-- ==== Sys2Proof/Word.lean ====
section
/-! DEFINITION. The word types of the KD-740 (R7, R13, R30): bits are numbered from 0 at the least significant end. -/

namespace Sys2Proof

/-- A 64-bit scalar register or control register value (R13, R15). -/
abbrev Word := BitVec 64

/-- One byte of memory (R7). -/
abbrev Byte := BitVec 8

/-- A 32-bit instruction word or vector lane (R59, R30). -/
abbrev Half32 := BitVec 32

/-- A scalar register number g0-g63 (R61). -/
abbrev Gpr := BitVec 6

/-- A vector register number v0-v31 (R66). -/
abbrev Vr := BitVec 5

/-- A mask register number k0-k7 (R66). -/
abbrev Kr := BitVec 3

/-- A five-bit format code (R27). -/
abbrev Fmt := BitVec 5

end Sys2Proof
end

