-- ==== Sys2Proof/Config.lean ====
section
/-! DEFINITION. What the manual leaves to the implementation. Each constant is opaque: no proof can see its value, so a claim
about the machine holds for every value of it (DESIGN CHOICE, log 22). -/

namespace Sys2Proof.Config

/-- The value of a register field that no rule gives, a fresh one for each number (DESIGN CHOICE, log 22). -/
opaque freeWord : Nat → Word

/-- The switch hops between two packages, which no rule gives (R345, DESIGN CHOICE, log 17). -/
opaque hops : Nat → Nat → Nat

/-- The measurement digest of an index, 1 the ROM, 2 the configuration image, 3 the Tardar image, over what was measured (R340, DESIGN CHOICE,
log 19). -/
opaque digest : Nat → List Nat → Nat

/-- The certificate chain of slot 0 (R340, DESIGN CHOICE, log 19). -/
opaque certChain : List Byte

/-- The root of trust's signature over a challenge (R340, DESIGN CHOICE, log 19). -/
opaque signature : Nat → Nat

/-- Where Tardar's image starts each service core (R336, DESIGN CHOICE, log 111). -/
opaque tardarEntry : Word

/-- The place of the notification queue in the class-3 memory, in units of its 128 KiB (R329, DESIGN CHOICE, log 110). -/
opaque mqBase : Nat

/-- The address space of a virtual function, 1-8, as Tardar maps it (R335, DESIGN CHOICE, log 28). -/
opaque hostSpace : Nat → Nat

/-- The router of a die's collective engine, as a core of the die (R259, R353, DESIGN CHOICE, log 29). -/
opaque collRouter : Nat → Nat

/-- The snapshot area of a die in global memory, as Tardar reserves it (R107, DESIGN CHOICE, log 101). -/
opaque snapshotArea : Nat → Nat

end Sys2Proof.Config
end

