-- ==== Sys2Proof/Syntax.lean ====
section
/-! DEFINITION. Every row of spec/opcode_table.json as one constructor of `Instr`: the encoded instructions with the fields of
their encoding (R62-R69), the prefixed forms with the widened field (R60, R64-R67), and the events with the place and the data
of the move (which task slot, which core, which unit). A task slot is numbered 16 * core + slot; a core is numbered
160 * die + 16 * ROW + COL; a quad is numbered 40 * die + quad (R121, R233). -/

namespace Sys2Proof

/-- One entry of a job's group table (R307): members in rank order as global die numbers (4 * package + die), the staging
factor RG, and the links of the two trees as the library lists them. -/
structure GroupDesc where
  members : List Nat
  rg : Nat
  primary : List Nat
  alternate : List Nat
  deriving DecidableEq, Repr

/-- What a job descriptor gives Tardar (R15, R18, R108, R116, R118, R136, R297, R307, R358, R388). -/
structure JobDesc where
  job : BitVec 16
  asid : BitVec 16
  trapEntry : Word
  seed : Word
  bankctl : Bool
  quads : List Nat
  lcn : List (Nat × BitVec 16)
  bankmap : List (Nat × BitVec 768)
  dequeBase : Nat
  dequeBanks : Nat
  localImage : List Byte
  handlers : List (Nat × Word)
  groups : List (Nat × GroupDesc)
  partition : Nat
  package : Nat
  routes : List (Nat × Nat)
  ringwait : BitVec 32
  deriving DecidableEq, Repr

/-- One row of the opcode table (R71), one constructor. -/
inductive Instr where
  -- scalar arithmetic, R81, R82
  | add (d a b : Gpr) | sub (d a b : Gpr) | min (d a b : Gpr) | minn (d a b : Gpr) | max (d a b : Gpr) | maxn (d a b : Gpr)
  | mul (d a b : Gpr) | mulh (d a b : Gpr) | mulhn (d a b : Gpr)
  | div (d a b : Gpr) | divn (d a b : Gpr) | rem (d a b : Gpr) | remn (d a b : Gpr)
  | and (d a b : Gpr) | or (d a b : Gpr) | xor (d a b : Gpr) | andn (d a b : Gpr)
  | shl (d a b : Gpr) | shr (d a b : Gpr) | sar (d a b : Gpr) | rol (d a b : Gpr)
  | clz (d a : Gpr) | ctz (d a : Gpr) | popc (d a : Gpr)
  -- bitfields, R69, R85 (len is LEN - 1)
  | zext (d a : Gpr) (pos len : BitVec 6) | sext (d a : Gpr) (pos len : BitVec 6) | ins (d a : Gpr) (pos len : BitVec 6)
  | ext (d a b : Gpr)
  -- compare and select, R83
  | cmp (d a b : Gpr) (cc : BitVec 4) | sel (d a b : Gpr)
  -- fat pointers, R86, R87
  | ptag (d a b : Gpr) | pfmt (d a : Gpr) | padd (d a b : Gpr) | pstrip (d a : Gpr)
  -- immediates, R62, R84
  | addi (d a : Gpr) (imm : BitVec 14) | addiPrefixed (d a : Gpr) (imm : BitVec 34)
  | shli (d a : Gpr) (n : BitVec 6) | shri (d a : Gpr) (n : BitVec 6) | sari (d a : Gpr) (n : BitVec 6)
  | ldi (d : Gpr) (imm : BitVec 20) | ldiPrefixed (d : Gpr) (imm : BitVec 40) | ldih (d : Gpr) (imm : BitVec 20)
  -- branches, R63, R89; rep, R76
  | br (off : BitVec 26) | jal (d : Gpr) (off : BitVec 20) | bc (a b : Gpr) (cc : BitVec 4) (off : BitVec 10)
  | bz (a : Gpr) (off : BitVec 17) | bnz (a : Gpr) (off : BitVec 17) | loop (a : Gpr) (off : BitVec 17)
  | jr (a : Gpr) (off : BitVec 17) | ret (a : Gpr) | rep (a : Gpr) (len : BitVec 4) (sd sa sb : BitVec 2)
  -- task control, R90-R102
  | fork (d a b : Gpr) | join (d a : Gpr) | joinT (d a : Gpr) | spawn (d a b : Gpr) | yield | endTask | nop
  | wait (d a : Gpr) | waitv (d a b : Gpr) | commit
  -- system, R73, R110, R118, R257, R326, R355, R356
  | mfc (d b : Gpr) | mtc (a b : Gpr) | trap (a : Gpr) | sys (a : Gpr) | eret | bkpt | tlbi (a b : Gpr)
  | bmap (d a b : Gpr) | qpool (d a : Gpr) | trace (a b : Gpr) | idle (d a : Gpr) | flush (d a : Gpr)
  -- scalar memory, R64, R123
  | ld (d a : Gpr) (sp sz : BitVec 2) (s : BitVec 1) (off : BitVec 9)
  | ldPrefixed (d a : Gpr) (sp sz : BitVec 2) (s : BitVec 1) (off : BitVec 9) (ext : BitVec 20)
  | st (d a : Gpr) (sp sz : BitVec 2) (off : BitVec 9)
  | stPrefixed (d a : Gpr) (sp sz : BitVec 2) (off : BitVec 9) (ext : BitVec 20)
  -- atomics and reductions, R65, R125-R127
  | amoAdd (d a b : Gpr) (z : BitVec 1) (p : BitVec 2) | amoMin (d a b : Gpr) (z : BitVec 1) (p : BitVec 2)
  | amoMinn (d a b : Gpr) (z : BitVec 1) (p : BitVec 2) | amoMax (d a b : Gpr) (z : BitVec 1) (p : BitVec 2)
  | amoMaxn (d a b : Gpr) (z : BitVec 1) (p : BitVec 2) | amoAnd (d a b : Gpr) (z : BitVec 1) (p : BitVec 2)
  | amoOr (d a b : Gpr) (z : BitVec 1) (p : BitVec 2) | amoXor (d a b : Gpr) (z : BitVec 1) (p : BitVec 2)
  | amoSwap (d a b : Gpr) (z : BitVec 1) (p : BitVec 2) | amoCas (d a b : Gpr) (z : BitVec 1) (p : BitVec 2)
  | amoFmin (d a b : Gpr) (p : BitVec 2) | amoFmax (d a b : Gpr) (p : BitVec 2)
  | amoPrefixed (op : BitVec 4) (d a b : Gpr) (z : BitVec 1) (p : BitVec 2) (c : Gpr) (scope : BitVec 3) (aq rl : BitVec 1)
  | redAdd (a b : Gpr) (z : BitVec 1) (p : BitVec 2) | redMin (a b : Gpr) (z : BitVec 1) (p : BitVec 2)
  | redMinn (a b : Gpr) (z : BitVec 1) (p : BitVec 2) | redMax (a b : Gpr) (z : BitVec 1) (p : BitVec 2)
  | redMaxn (a b : Gpr) (z : BitVec 1) (p : BitVec 2) | redAnd (a b : Gpr) (z : BitVec 1) (p : BitVec 2)
  | redOr (a b : Gpr) (z : BitVec 1) (p : BitVec 2) | redXor (a b : Gpr) (z : BitVec 1) (p : BitVec 2)
  | redFmin (a b : Gpr) (p : BitVec 2) | redFmax (a b : Gpr) (p : BitVec 2)
  -- cache maintenance, R137
  | cinv (scope : BitVec 3) (a b : Gpr) | cwb (scope : BitVec 3) (a b : Gpr) | cpref (scope : BitVec 3) (a b : Gpr)
  -- rings, R129-R132
  | qsetCreate (q : BitVec 4) (a b : Gpr) | qsetAttach (q : BitVec 4) (a b : Gpr) | qsetRelease (q : BitVec 4) (a b : Gpr)
  | qadvC (q : BitVec 4) (b : Gpr) | qadvP (q : BitVec 4) (b : Gpr) | qstat (d : Gpr) (q : BitVec 4)
  -- ordering, R283-R286
  | fence (scope : BitVec 3) | acq (scope : BitVec 3) | rel (scope : BitVec 3) | bar (a : Gpr) (scope : BitVec 3) | phase (d : Gpr)
  -- tasks and messages, R264, R289-R302
  | send (a b : Gpr) | post (a b : Gpr) | dpush (d a : Gpr) | dpop (d a : Gpr) | dsteal (d a b : Gpr) | hbind (d a b : Gpr)
  | hhold (d a : Gpr) | hrel (d a : Gpr) | launch (d a b : Gpr) | tid (d a : Gpr) | migrate (a : Gpr) | rcmask (d a : Gpr)
  -- ports, R245-R252
  | put (p : BitVec 4) (b : Gpr) | get (d : Gpr) (p : BitVec 4) (b : Gpr) | offer (p : BitVec 4) (b : Gpr)
  | alt (d a b : Gpr) | poll (d : Gpr) (p : BitVec 4) | pwd (d : Gpr) (p : BitVec 4) | cload (d a : Gpr) | cunload (d a : Gpr)
  | cbind (d : Gpr) (p : BitVec 4) (b : Gpr) | pstat (d : Gpr) (p : BitVec 4)
  -- copies, R209-R220
  | cpy (d a b : Gpr) | cpyM (d a b : Gpr) | cmcast (d a b : Gpr) | cseal (d : Gpr) | cwait (d a : Gpr) | wmk (d a : Gpr)
  | cresume (a : Gpr) | cabort (a : Gpr) | streamOn (a b : Gpr) | streamOff (d : Gpr)
  -- higher-order, R190-R197
  | rbind (d a : Gpr) | fold (d : Gpr) (x : BitVec 1) (s : BitVec 2) (b : Gpr)
  | scan (d : Gpr) (x : BitVec 1) (e s : BitVec 2) (b : Gpr) | zip (e s : BitVec 2) (b : Gpr)
  | outer (t : BitVec 2) (a b : Gpr) | hstat (d a : Gpr)
  -- vector arithmetic, R143-R148
  | vadd (d a b : Vr) (k : Kr) (f : Fmt) | vsub (d a b : Vr) (k : Kr) (f : Fmt) | vmul (d a b : Vr) (k : Kr) (f : Fmt)
  | vfma (d a b : Vr) (k : Kr) (f : Fmt) | vfms (d a b : Vr) (k : Kr) (f : Fmt) | vfnma (d a b : Vr) (k : Kr) (f : Fmt)
  | vmin (d a b : Vr) (k : Kr) (f : Fmt) | vmax (d a b : Vr) (k : Kr) (f : Fmt)
  | vabs (d a : Vr) (k : Kr) (f : Fmt) | vneg (d a : Vr) (k : Kr) (f : Fmt) | vrcp (d a : Vr) (k : Kr) (f : Fmt)
  | vrsqrt (d a : Vr) (k : Kr) (f : Fmt) | vexp2 (d a : Vr) (k : Kr) (f : Fmt) | vlog2 (d a : Vr) (k : Kr) (f : Fmt)
  | vmov (d a : Vr) (k : Kr) (f : BitVec 1) | vnot (d a : Vr) (k : Kr) (f : BitVec 1)
  | vand (d a b : Vr) (k : Kr) | vor (d a b : Vr) (k : Kr) | vxor (d a b : Vr) (k : Kr)
  | vshl (d a b : Vr) (k : Kr) (f : Fmt) | vshr (d a b : Vr) (k : Kr) (f : Fmt) | vsar (d a b : Vr) (k : Kr) (f : Fmt)
  | vsel (d a b : Vr) (k : Kr) | vbscale (d a b : Vr) (k : Kr) (f : Fmt)
  -- compare and convert, R149-R153
  | vcmp (kd : Kr) (a b : Vr) (k : Kr) (f : Fmt) (cc : BitVec 3)
  | vcvt (d a : Vr) (src : Fmt) (k : Kr) (f : Fmt) | vcvtSat (d a : Vr) (src : Fmt) (k : Kr) (f : Fmt)
  | vcvtSr (d a : Vr) (src : Fmt) (k : Kr) (f : Fmt)
  | vpack (d a : Vr) (j : BitVec 5) (k : Kr) (f : Fmt) | vunpack (d a : Vr) (j : BitVec 5) (k : Kr) (f : Fmt)
  | vdecode (d a : Vr) (j : BitVec 3) (k : Kr) (f : Fmt) | vins (d a b : Vr) (f : Fmt) | vext (d a b : Vr) (f : Fmt)
  -- reductions, permutes, masks, R154-R157
  | vredAdd (d a : Vr) (k : Kr) (f : Fmt) | vredMax (d a : Vr) (k : Kr) (f : Fmt) | vredMin (d a : Vr) (k : Kr) (f : Fmt)
  | vperm (d a b : Vr) (k : Kr) | vbcast (d a : Vr) (k : Kr) (f : Fmt) | vslide (d a b : Vr) (k : Kr)
  | vcompact (d a : Vr) (k : Kr) | vexpand (d a : Vr) (k : Kr)
  | vpopk (d : Vr) (ka : Kr) | kand (kd ka kb : Kr) | kor (kd ka kb : Kr) | kxor (kd ka kb : Kr) | knot (kd ka : Kr) | kmov (kd ka : Kr)
  -- vector memory, R158-R162
  | vldl (d : Vr) (a : Gpr) (sp : BitVec 2) (k : Kr) (x : BitVec 4)
  | vldlPrefixed (d : Vr) (a : Gpr) (sp : BitVec 2) (k : Kr) (x : BitVec 4) (c : Gpr) (ext : BitVec 20)
  | vstl (d : Vr) (a : Gpr) (sp : BitVec 2) (k : Kr) (x : BitVec 4)
  | vstlPrefixed (d : Vr) (a : Gpr) (sp : BitVec 2) (k : Kr) (x : BitVec 4) (c : Gpr) (ext : BitVec 20)
  | vld (d : Vr) (a : Gpr) (sp : BitVec 2) (k : Kr) (f : Fmt) (x : BitVec 5)
  | vldPrefixed (d : Vr) (a : Gpr) (sp : BitVec 2) (k : Kr) (f : Fmt) (x : BitVec 5) (c : Gpr) (ext : BitVec 20)
  | vst (d : Vr) (a : Gpr) (sp : BitVec 2) (k : Kr) (f : Fmt) (x : BitVec 5)
  | vstPrefixed (d : Vr) (a : Gpr) (sp : BitVec 2) (k : Kr) (f : Fmt) (x : BitVec 5) (c : Gpr) (ext : BitVec 20)
  | vgather (d : Vr) (a : Gpr) (sp : BitVec 2) (k : Kr) (f : Fmt) (x : BitVec 5)
  | vgatherPrefixed (d : Vr) (a : Gpr) (sp : BitVec 2) (k : Kr) (f : Fmt) (x : BitVec 5) (c : Gpr)
  | vscatter (d : Vr) (a : Gpr) (sp : BitVec 2) (k : Kr) (f : Fmt) (x : BitVec 5)
  | vscatterPrefixed (d : Vr) (a : Gpr) (sp : BitVec 2) (k : Kr) (f : Fmt) (x : BitVec 5) (c : Gpr)
  -- matrix, R168-R182
  | mma (t : BitVec 2) (fa fb : Fmt) (a : Gpr) | mcfg (d a b : Gpr) | mzero (k t : BitVec 2) | mloadA (k t : BitVec 2) (a : Gpr)
  | mlatchB (a : Gpr) | mrot | mring (a b : Gpr) | msum (t : BitVec 2) (a : Gpr) | mscale (t : BitVec 2) (a b : Vr)
  | mdrain (t : BitVec 2) (a b : Gpr) | mstat (d : Gpr) | mmaF64 (t : BitVec 2) (a : Gpr)
  -- extension D vector, R163
  | vdiv (d a b : Vr) (k : Kr) (f : Fmt) | vsqrt (d a : Vr) (k : Kr) (f : Fmt) | vexp (d a : Vr) (k : Kr) (f : Fmt)
  | vlog (d a : Vr) (k : Kr) (f : Fmt)
  -- guard and event crossbar, R223-R232
  | glaunch (a b : Gpr) | gres (a : Gpr) | evcfg (d a b : Gpr) | evsig (a b : Gpr)
  -- events: task life, R22, R23, R106-R114, R258
  | migration (t : Nat) | migrationAdmit (t slot base : Nat) | migrationContextLoaded (t : Nat)
  | dispatch (core slot base : Nat) | contextLoaded (t : Nat) | retiredToFree (t : Nat) | kill (t : Nat)
  | pageResident (asid va : Nat) | pageDeclaredInvalid (asid va : Nat) | coreError (t : Nat)
  | engineInterrupt (t : Nat) | sysRelease (t : Nat) (served : Bool) (writes : List (Nat × Word))
  | debuggerStop (t : Nat) | debuggerResume (t : Nat) | holdRequest (die : Nat)
  | joinReread (t : Nat) | waitvReread (t : Nat) | idleDeadline (t : Nat) | flagTreeUpdate (n : Nat)
  -- events: ordering, R276, R281
  | drain (t w : Nat) | arrive (w : Nat) | atomicAtHome (w : Nat) | settle (w : Nat) | cacheCopyDrop (core line : Nat)
  -- events: messages, queues, stealing, R133, R294-R299
  | messageRingArrival (m : Nat) | ringWaitExpiry (m : Nat) | negativeAcknowledgement (m : Nat) | mailboxMessage (m : Nat)
  | globalQueueRecord (m : Nat) | stealAttempt (core : Nat) | stealOperation (core : Nat) | stealReply (core slot base : Nat)
  -- events: teams and pre-emption, R290-R303
  | teamAdmission (grid quad : Nat) (places : List (Nat × Nat)) | timeSliceExpiry (quad team : Nat)
  | preemptionRequest (quad cls : Nat) (victims : List Nat) | halt (t : Nat) | swapSave (t : Nat) | restore (n t base : Nat)
  -- events: matrix engine, R166-R181, R230
  | matrixCommandComplete (core : Nat) | matrixGate (core : Nat) | latchStream (core : Nat) | latchFlip (core : Nat)
  | engineRelease (core : Nat) | mdrainWakeup (m : Nat) | routineCommandComplete (core : Nat)
  -- events: copy engine, R205-R219, R271
  | copyGate (core slot : Nat) | unitLand (core slot : Nat) | copyComplete (core slot : Nat) | copyFreeze (core slot : Nat)
  | freezeServedByTardar (core slot : Nat) | copyAbortComplete (core slot : Nat) | inboundEntryGrant (core : Nat)
  | stripFill (core slot : Nat) | multicastAcknowledgement (core slot receiver : Nat) | multicastRequest (core slot : Nat)
  -- events: guard and crossbar, R224-R232
  | guardPairDispatch (quad entry core : Nat) (slots bases : List Nat) | termFire (core term : Nat) | softwareLinePulse (m : Nat)
  -- events: ports, R240-R254
  | offerArrival (quad core : Nat) | fire (quad cslot : Nat) | fireArrival (quad core : Nat) | withdraw (quad core : Nat)
  | withdrawReply (quad core : Nat) | bindingRequest (quad core : Nat) | bindingReply (quad core : Nat)
  | barrierRelease (scope inst index : Nat)
  -- events: L2, translation, R266-R270, R323-R329
  | sectorFill (asid line sector : Nat) | eviction (asid line : Nat) | sliceTranslation (asid va : Nat) (pkg : Nat)
  | attributeQuery (unit asid va : Nat) | pendScan (stack : Nat) | replication (asid line : Nat) | withdrawAck (asid line unit : Nat)
  -- events: host, start, errors, R272, R335-R341
  | hostWindowWrite (fn q off : Nat) (data : List Byte) | hostWindowRead (fn q off n : Nat) | wbase (fn q : Nat) (v : Word)
  | coldStart | warmStart | stageComplete | stageFailure (code : Nat) | stageTimeout | getMeasurements
  | correctableError (die : Nat) (loc : Option (Nat × Nat)) | coolantOutOfLimits | coolantWithinLimits
  -- events: collectives, R309-R316
  | collectiveRequestTaken (die : Nat) | reservationGrant (die : Nat) | chunkWritten (die coll chunk : Nat)
  | finalAck (coll chunk : Nat) | chunkFailure (coll chunk : Nat) | chunkNoProgress (coll chunk : Nat) | memberLost (coll : Nat)
  | collectiveEnd (die coll : Nat)
  -- events: fabric, R345-R350
  | linkFailure (link : Nat) | noPath (pkg : Nat) | rootSwitchOrder (w : Nat) | switchCombine (w1 w2 : Nat)
  | moveRequest (asid va : Nat) (dest : Nat) (made : Word) | skewMeasurement (die nbr : Nat) (t1 t2 t3 t4 : Word)
  | lamportDelivery (die : Nat) (carried : BitVec 32)
  -- events: trace, jobs, debugger, R116, R251, R352-R354, R114
  | traceRecord (die unit : Nat) | jobStart (j : JobDesc) | jobEnd (job : Nat)
  | tracectlWrite (die : Nat) (base : Bool) (v : Word)
  | debuggerAttach (job : Nat) (on : Bool) (t : Nat) (brk : List Word) (watch : List (Nat × Nat × Nat))
  deriving DecidableEq, Repr

end Sys2Proof
end

