-- ==== Sys2Proof/WellFormed.lean ====
section
/-! DEFINITION. Which instructions and events are well formed: the sub-operation codes and field combinations that R62-R72
assign (R74 steps 4 to 6), and for an event the ranges of the place it names (R3, R121, R233). -/

namespace Sys2Proof

/-- The ring-slot space takes a handle in A[3:0], with A[5:4] and the offset zero (R64). -/
def memOk (a : Gpr) (sp : BitVec 2) (off : BitVec 9) : Bool :=
  sp != 3 || (decide (a.toNat < 16) && off == 0)

/-- An atomic without a prefix addresses the global or the local space (R65). -/
def amoSp (p : BitVec 2) : Bool := p == 0 || p == 1

/-- A vector access without a prefix is not near, and a ring slot takes a handle with no offset (R67). -/
def vmemOk (a : Gpr) (sp : BitVec 2) (noOffset : Bool) : Bool :=
  sp != 2 && (sp != 3 || (decide (a.toNat < 16) && noOffset))

/-- The instruction is one the encoding assigns (R62-R72), or the event names a place that exists. -/
def Instr.wf : Instr → Bool
  | .add _ _ _ => true
  | .sub _ _ _ => true
  | .min _ _ _ => true
  | .minn _ _ _ => true
  | .max _ _ _ => true
  | .maxn _ _ _ => true
  | .mul _ _ _ => true
  | .mulh _ _ _ => true
  | .mulhn _ _ _ => true
  | .div _ _ _ => true
  | .divn _ _ _ => true
  | .rem _ _ _ => true
  | .remn _ _ _ => true
  | .and _ _ _ => true
  | .or _ _ _ => true
  | .xor _ _ _ => true
  | .andn _ _ _ => true
  | .shl _ _ _ => true
  | .shr _ _ _ => true
  | .sar _ _ _ => true
  | .rol _ _ _ => true
  | .clz _ _ => true
  | .ctz _ _ => true
  | .popc _ _ => true
  | .zext _ _ _ _ => true
  | .sext _ _ _ _ => true
  | .ins _ _ _ _ => true
  | .ext _ _ _ => true
  | .cmp _ _ _ cc => decide (cc.toNat < 10)
  | .sel _ _ _ => true
  | .ptag _ _ _ => true
  | .pfmt _ _ => true
  | .padd _ _ _ => true
  | .pstrip _ _ => true
  | .addi _ _ _ => true
  | .addiPrefixed _ _ _ => true
  | .shli _ _ _ => true
  | .shri _ _ _ => true
  | .sari _ _ _ => true
  | .ldi _ _ => true
  | .ldiPrefixed _ _ => true
  | .ldih _ _ => true
  | .br _ => true
  | .jal _ _ => true
  | .bc _ _ cc _ => decide (cc.toNat < 10)
  | .bz _ _ => true
  | .bnz _ _ => true
  | .loop _ _ => true
  | .jr _ _ => true
  | .ret _ => true
  | .rep _ _ _ _ _ => true
  | .fork _ _ _ => true
  | .join _ _ => true
  | .joinT _ _ => true
  | .spawn _ _ _ => true
  | .yield => true
  | .endTask => true
  | .nop => true
  | .wait _ _ => true
  | .waitv _ _ _ => true
  | .commit => true
  | .mfc _ _ => true
  | .mtc _ _ => true
  | .trap _ => true
  | .sys _ => true
  | .eret => true
  | .bkpt => true
  | .tlbi _ _ => true
  | .bmap _ _ _ => true
  | .qpool _ _ => true
  | .trace _ _ => true
  | .idle _ _ => true
  | .flush _ _ => true
  | .ld _ a sp sz s off => memOk a sp off && !(sz == 3 && s == 1)
  | .ldPrefixed _ _ sp sz s _ _ => sp != 3 && !(sz == 3 && s == 1)
  | .st _ a sp _ off => memOk a sp off
  | .stPrefixed _ _ sp _ _ _ => sp != 3
  | .amoAdd d _ _ _ p => d != 0 && amoSp p
  | .amoMin d _ _ _ p => d != 0 && amoSp p
  | .amoMinn d _ _ _ p => d != 0 && amoSp p
  | .amoMax d _ _ _ p => d != 0 && amoSp p
  | .amoMaxn d _ _ _ p => d != 0 && amoSp p
  | .amoAnd d _ _ _ p => d != 0 && amoSp p
  | .amoOr d _ _ _ p => d != 0 && amoSp p
  | .amoXor d _ _ _ p => d != 0 && amoSp p
  | .amoSwap _ _ _ _ p => amoSp p
  | .amoCas _ _ b _ p => amoSp p && b.toNat % 2 == 0
  | .amoFmin d _ _ p => d != 0 && amoSp p
  | .amoFmax d _ _ p => d != 0 && amoSp p
  | .amoPrefixed op _ _ b z p c scope _ _ => decide (op.toNat < 12) && p != 3 && (p == 2 || c == 0) && decide (scope.toNat < 6) && !(decide (9 < op.toNat) && z == 1) && !(op == 9 && b.toNat % 2 == 1)
  | .redAdd _ _ _ p => amoSp p
  | .redMin _ _ _ p => amoSp p
  | .redMinn _ _ _ p => amoSp p
  | .redMax _ _ _ p => amoSp p
  | .redMaxn _ _ _ p => amoSp p
  | .redAnd _ _ _ p => amoSp p
  | .redOr _ _ _ p => amoSp p
  | .redXor _ _ _ p => amoSp p
  | .redFmin _ _ p => amoSp p
  | .redFmax _ _ p => amoSp p
  | .cinv scope _ _ => decide (1 ≤ scope.toNat ∧ scope.toNat ≤ 4)
  | .cwb scope _ _ => decide (1 ≤ scope.toNat ∧ scope.toNat ≤ 4)
  | .cpref scope _ _ => decide (1 ≤ scope.toNat ∧ scope.toNat ≤ 3)
  | .qsetCreate _ _ b => b != 0
  | .qsetAttach _ a b => b == 0 && a == 0
  | .qsetRelease _ a b => b == 0 && a != 0
  | .qadvC _ _ => true
  | .qadvP _ _ => true
  | .qstat _ _ => true
  | .fence scope => decide (scope.toNat < 6)
  | .acq scope => decide (scope.toNat < 6)
  | .rel scope => decide (scope.toNat < 6)
  | .bar _ scope => decide (1 ≤ scope.toNat ∧ scope.toNat < 6)
  | .phase _ => true
  | .send _ _ => true
  | .post _ _ => true
  | .dpush _ _ => true
  | .dpop _ _ => true
  | .dsteal _ _ _ => true
  | .hbind _ _ _ => true
  | .hhold _ _ => true
  | .hrel _ _ => true
  | .launch _ _ _ => true
  | .tid _ _ => true
  | .migrate _ => true
  | .rcmask _ _ => true
  | .put _ _ => true
  | .get _ _ _ => true
  | .offer _ _ => true
  | .alt _ _ _ => true
  | .poll _ _ => true
  | .pwd _ _ => true
  | .cload _ _ => true
  | .cunload _ _ => true
  | .cbind _ _ _ => true
  | .pstat _ _ => true
  | .cpy _ _ _ => true
  | .cpyM _ _ _ => true
  | .cmcast _ _ _ => true
  | .cseal _ => true
  | .cwait _ _ => true
  | .wmk _ _ => true
  | .cresume _ => true
  | .cabort _ => true
  | .streamOn _ _ => true
  | .streamOff _ => true
  | .rbind _ _ => true
  | .fold _ _ s _ => decide (s.toNat < 2)
  | .scan _ _ e s _ => decide (e.toNat < 2) && decide (s.toNat < 2)
  | .zip e s _ => decide (e.toNat < 2) && decide (s.toNat < 2)
  | .outer _ _ _ => true
  | .hstat _ _ => true
  | .vadd _ _ _ _ _ => true
  | .vsub _ _ _ _ _ => true
  | .vmul _ _ _ _ _ => true
  | .vfma _ _ _ _ _ => true
  | .vfms _ _ _ _ _ => true
  | .vfnma _ _ _ _ _ => true
  | .vmin _ _ _ _ _ => true
  | .vmax _ _ _ _ _ => true
  | .vabs _ _ _ _ => true
  | .vneg _ _ _ _ => true
  | .vrcp _ _ _ _ => true
  | .vrsqrt _ _ _ _ => true
  | .vexp2 _ _ _ _ => true
  | .vlog2 _ _ _ _ => true
  | .vmov _ _ _ _ => true
  | .vnot _ _ _ _ => true
  | .vand _ _ _ _ => true
  | .vor _ _ _ _ => true
  | .vxor _ _ _ _ => true
  | .vshl _ _ _ _ _ => true
  | .vshr _ _ _ _ _ => true
  | .vsar _ _ _ _ _ => true
  | .vsel _ _ _ _ => true
  | .vbscale _ _ _ _ _ => true
  | .vcmp _ _ _ _ _ _ => true
  | .vcvt _ _ _ _ _ => true
  | .vcvtSat _ _ _ _ _ => true
  | .vcvtSr _ _ _ _ _ => true
  | .vpack _ _ _ _ _ => true
  | .vunpack _ _ _ _ _ => true
  | .vdecode _ _ _ _ _ => true
  | .vins _ _ _ _ => true
  | .vext _ _ _ _ => true
  | .vredAdd _ _ _ _ => true
  | .vredMax _ _ _ _ => true
  | .vredMin _ _ _ _ => true
  | .vperm _ _ _ _ => true
  | .vbcast _ _ _ _ => true
  | .vslide _ _ _ _ => true
  | .vcompact _ _ _ => true
  | .vexpand _ _ _ => true
  | .vpopk _ _ => true
  | .kand _ _ _ => true
  | .kor _ _ _ => true
  | .kxor _ _ _ => true
  | .knot _ _ => true
  | .kmov _ _ => true
  | .vldl _ a sp _ x => vmemOk a sp (x == 0)
  | .vldlPrefixed _ _ sp _ _ c _ => sp != 3 && (sp == 2 || c == 0)
  | .vstl _ a sp _ x => vmemOk a sp (x == 0)
  | .vstlPrefixed _ _ sp _ _ c _ => sp != 3 && (sp == 2 || c == 0)
  | .vld _ a sp _ _ x => vmemOk a sp (x == 0)
  | .vldPrefixed _ _ sp _ _ _ c _ => sp != 3 && (sp == 2 || c == 0)
  | .vst _ a sp _ _ x => vmemOk a sp (x == 0)
  | .vstPrefixed _ _ sp _ _ _ c _ => sp != 3 && (sp == 2 || c == 0)
  | .vgather _ _ sp _ _ _ => sp == 0 || sp == 1
  | .vgatherPrefixed _ _ sp _ _ _ c => sp != 3 && (sp == 2 || c == 0)
  | .vscatter _ _ sp _ _ _ => sp == 0 || sp == 1
  | .vscatterPrefixed _ _ sp _ _ _ c => sp != 3 && (sp == 2 || c == 0)
  | .mma _ _ _ _ => true
  | .mcfg _ _ _ => true
  | .mzero k _ => k != 3
  | .mloadA k _ _ => k != 3
  | .mlatchB _ => true
  | .mrot => true
  | .mring _ _ => true
  | .msum _ _ => true
  | .mscale _ _ _ => true
  | .mdrain _ _ _ => true
  | .mstat _ => true
  | .mmaF64 _ _ => true
  | .vdiv _ _ _ _ _ => true
  | .vsqrt _ _ _ _ => true
  | .vexp _ _ _ _ => true
  | .vlog _ _ _ _ => true
  | .glaunch _ _ => true
  | .gres _ => true
  | .evcfg _ _ _ => true
  | .evsig _ _ => true
  | .migration t => decide (t < 10256)
  | .migrationAdmit t slot _ => decide (t < 10256 ∧ slot < 16)
  | .migrationContextLoaded t => decide (t < 10256)
  | .dispatch core slot _ => decide (core < 640 ∧ slot < 16)
  | .contextLoaded t => decide (t < 10256)
  | .retiredToFree t => decide (t < 10256 ∨ 20000 ≤ t)
  | .kill t => decide (t < 10256 ∨ 20000 ≤ t)
  | .pageResident _ _ => true
  | .pageDeclaredInvalid _ _ => true
  | .coreError t => decide (t < 10256)
  | .engineInterrupt t => decide (t < 10256)
  | .sysRelease t _ _ => decide (t < 10256)
  | .debuggerStop t => decide (t < 10256 ∨ 20000 ≤ t)
  | .debuggerResume t => decide (t < 10256 ∨ 20000 ≤ t)
  | .holdRequest die => decide (die < 4)
  | .joinReread t => decide (t < 10256)
  | .waitvReread t => decide (t < 10256)
  | .idleDeadline t => decide (t < 10256)
  | .flagTreeUpdate _ => true
  | .drain t _ => decide (t < 10256)
  | .arrive _ => true
  | .atomicAtHome _ => true
  | .settle _ => true
  | .cacheCopyDrop core _ => decide (core < 640)
  | .messageRingArrival _ => true
  | .ringWaitExpiry _ => true
  | .negativeAcknowledgement _ => true
  | .mailboxMessage _ => true
  | .globalQueueRecord _ => true
  | .stealAttempt core => decide (core < 640)
  | .stealOperation core => decide (core < 640)
  | .stealReply core slot _ => decide (core < 640 ∧ slot < 16)
  | .teamAdmission _ quad _ => decide (quad < 160)
  | .timeSliceExpiry quad _ => decide (quad < 160)
  | .preemptionRequest quad _ _ => decide (quad < 160)
  | .halt t => decide (t < 10256)
  | .swapSave t => decide (t < 10256)
  | .restore _ t _ => decide (t < 10256)
  | .matrixCommandComplete core => decide (core < 640)
  | .matrixGate core => decide (core < 640)
  | .latchStream core => decide (core < 640)
  | .latchFlip core => decide (core < 640)
  | .engineRelease core => decide (core < 640)
  | .mdrainWakeup _ => true
  | .routineCommandComplete core => decide (core < 640)
  | .copyGate core slot => decide (core < 640 ∧ slot < 8)
  | .unitLand core slot => decide (core < 640 ∧ slot < 8)
  | .copyComplete core slot => decide (core < 640 ∧ slot < 8)
  | .copyFreeze core slot => decide (core < 640 ∧ slot < 8)
  | .freezeServedByTardar core slot => decide (core < 640 ∧ slot < 8)
  | .copyAbortComplete core slot => decide (core < 640 ∧ slot < 8)
  | .inboundEntryGrant core => decide (core < 640)
  | .stripFill core slot => decide (core < 640 ∧ slot < 8)
  | .multicastAcknowledgement core slot _ => decide (core < 640 ∧ slot < 8)
  | .multicastRequest core slot => decide (core < 640 ∧ slot < 8)
  | .guardPairDispatch quad _ core _ _ => decide (quad < 160 ∧ core < 640)
  | .termFire core term => decide (core < 640 ∧ term < 32)
  | .softwareLinePulse _ => true
  | .offerArrival quad core => decide (quad < 160 ∧ core < 640)
  | .fire quad cslot => decide (quad < 160 ∧ cslot < 16)
  | .fireArrival quad core => decide (quad < 160 ∧ core < 640)
  | .withdraw quad core => decide (quad < 160 ∧ core < 640)
  | .withdrawReply quad core => decide (quad < 160 ∧ core < 640)
  | .bindingRequest quad core => decide (quad < 160 ∧ core < 640)
  | .bindingReply quad core => decide (quad < 160 ∧ core < 640)
  | .barrierRelease _ inst _ => decide (inst < 16)
  | .sectorFill _ _ sector => decide (sector < 4)
  | .eviction _ _ => true
  | .sliceTranslation _ _ _ => true
  | .attributeQuery _ _ _ => true
  | .pendScan stack => decide (stack < 12)
  | .replication _ _ => true
  | .withdrawAck _ _ _ => true
  | .hostWindowWrite fn q off _ => decide (fn < 9 ∧ q < 4 ∧ off < 2 ^ 26)
  | .hostWindowRead fn q off _ => decide (fn < 9 ∧ q < 4 ∧ off < 2 ^ 26)
  | .wbase fn q _ => decide (fn < 9 ∧ q < 4)
  | .coldStart => true
  | .warmStart => true
  | .stageComplete => true
  | .stageFailure _ => true
  | .stageTimeout => true
  | .getMeasurements => true
  | .correctableError die _ => decide (die < 4)
  | .coolantOutOfLimits => true
  | .coolantWithinLimits => true
  | .collectiveRequestTaken die => decide (die < 4)
  | .reservationGrant die => decide (die < 4)
  | .chunkWritten die _ _ => decide (die < 4)
  | .finalAck _ _ => true
  | .chunkFailure _ _ => true
  | .chunkNoProgress _ _ => true
  | .memberLost _ => true
  | .collectiveEnd die _ => decide (die < 4)
  | .linkFailure link => decide (link < 16)
  | .noPath _ => true
  | .rootSwitchOrder _ => true
  | .switchCombine _ _ => true
  | .moveRequest _ _ _ _ => true
  | .skewMeasurement die _ _ _ _ _ => decide (die < 4)
  | .lamportDelivery die _ => decide (die < 4)
  | .traceRecord die _ => decide (die < 4)
  | .jobStart _ => true
  | .jobEnd _ => true
  | .tracectlWrite die _ _ => decide (die < 4)
  | .debuggerAttach _ _ t _ _ => decide (t < 10256 ∨ 20000 ≤ t)

end Sys2Proof
end

