-- ==== Sys2Proof/Decode.lean ====
section
/-! DEFINITION. Decoding of an instruction word or a prefix pair (R59-R74), total on any bytes, every refusal named; after it
the encoder, from the same encoding tables (R62-R69), and the helpers both use. -/

namespace Sys2Proof

/-- Why a word is no instruction: the step of R74 that makes it ILLEGAL. -/
inductive Reject where
  /-- Step 1: major 0x00, the all-zero word and handler headers. -/
  | majorZero
  /-- Step 2: a reserved major (R70). -/
  | reservedMajor
  /-- Step 3's reserved extension-D majors 0x32 and 0x33, ILLEGAL once on a D core (R75). -/
  | reservedD
  /-- Step 4: a prefix pairing that R60 forbids. -/
  | badPairing
  /-- Step 5: an unassigned minor or sub-operation. -/
  | badMinor
  /-- Step 6: a nonzero must-be-zero field. -/
  | mustBeZero
  /-- The bytes end before the instruction does. -/
  | truncated
  deriving DecidableEq, Repr

/-- Bits [lo + n - 1 : lo] of a word (R7). -/
def fld (w : Half32) (lo n : Nat) : BitVec n := w.extractLsb' lo n

/-- The instruction, when its must-be-zero fields are zero (R61). -/
def must (c : Bool) (i : Instr) : Except Reject Instr := if c then .ok i else .error .mustBeZero

/-- Major 0x01 (R70, R71). -/
def dec01 (w : Half32) : Except Reject Instr :=
  match (fld w 0 8).toNat with
  | 0 => .ok (.add (fld w 20 6) (fld w 14 6) (fld w 8 6))
  | 1 => .ok (.sub (fld w 20 6) (fld w 14 6) (fld w 8 6))
  | 2 => .ok (.min (fld w 20 6) (fld w 14 6) (fld w 8 6))
  | 3 => .ok (.minn (fld w 20 6) (fld w 14 6) (fld w 8 6))
  | 4 => .ok (.max (fld w 20 6) (fld w 14 6) (fld w 8 6))
  | 5 => .ok (.maxn (fld w 20 6) (fld w 14 6) (fld w 8 6))
  | _ => .error .badMinor

/-- Major 0x02 (R70, R71). -/
def dec02 (w : Half32) : Except Reject Instr :=
  match (fld w 0 8).toNat with
  | 0 => .ok (.mul (fld w 20 6) (fld w 14 6) (fld w 8 6))
  | 1 => .ok (.mulh (fld w 20 6) (fld w 14 6) (fld w 8 6))
  | 2 => .ok (.mulhn (fld w 20 6) (fld w 14 6) (fld w 8 6))
  | 3 => .ok (.div (fld w 20 6) (fld w 14 6) (fld w 8 6))
  | 4 => .ok (.divn (fld w 20 6) (fld w 14 6) (fld w 8 6))
  | 5 => .ok (.rem (fld w 20 6) (fld w 14 6) (fld w 8 6))
  | 6 => .ok (.remn (fld w 20 6) (fld w 14 6) (fld w 8 6))
  | _ => .error .badMinor

/-- Major 0x03 (R70, R71). -/
def dec03 (w : Half32) : Except Reject Instr :=
  match (fld w 0 8).toNat with
  | 0 => .ok (.and (fld w 20 6) (fld w 14 6) (fld w 8 6))
  | 1 => .ok (.or (fld w 20 6) (fld w 14 6) (fld w 8 6))
  | 2 => .ok (.xor (fld w 20 6) (fld w 14 6) (fld w 8 6))
  | 3 => .ok (.andn (fld w 20 6) (fld w 14 6) (fld w 8 6))
  | 4 => .ok (.shl (fld w 20 6) (fld w 14 6) (fld w 8 6))
  | 5 => .ok (.shr (fld w 20 6) (fld w 14 6) (fld w 8 6))
  | 6 => .ok (.sar (fld w 20 6) (fld w 14 6) (fld w 8 6))
  | 7 => .ok (.rol (fld w 20 6) (fld w 14 6) (fld w 8 6))
  | 8 => must (fld w 8 6 == 0) (.clz (fld w 20 6) (fld w 14 6))
  | 9 => must (fld w 8 6 == 0) (.ctz (fld w 20 6) (fld w 14 6))
  | 10 => must (fld w 8 6 == 0) (.popc (fld w 20 6) (fld w 14 6))
  | _ => .error .badMinor

/-- Major 0x04 (R70, R71). -/
def dec04 (w : Half32) : Except Reject Instr :=
  match (fld w 0 2).toNat with
  | 0 => .ok (.zext (fld w 20 6) (fld w 14 6) (fld w 8 6) (fld w 2 6))
  | 1 => .ok (.sext (fld w 20 6) (fld w 14 6) (fld w 8 6) (fld w 2 6))
  | 2 => .ok (.ins (fld w 20 6) (fld w 14 6) (fld w 8 6) (fld w 2 6))
  | 3 => must (fld w 2 6 == 0) (.ext (fld w 20 6) (fld w 14 6) (fld w 8 6))
  | _ => .error .badMinor

/-- Major 0x05 (R70, R71). -/
def dec05 (w : Half32) : Except Reject Instr :=
  match (fld w 4 4).toNat with
  | 0 => .ok (.cmp (fld w 20 6) (fld w 14 6) (fld w 8 6) (fld w 0 4))
  | 1 => must (fld w 0 4 == 0) (.sel (fld w 20 6) (fld w 14 6) (fld w 8 6))
  | _ => .error .badMinor

/-- Major 0x06 (R70, R71). -/
def dec06 (w : Half32) : Except Reject Instr :=
  match (fld w 0 8).toNat with
  | 0 => .ok (.ptag (fld w 20 6) (fld w 14 6) (fld w 8 6))
  | 1 => must (fld w 8 6 == 0) (.pfmt (fld w 20 6) (fld w 14 6))
  | 2 => .ok (.padd (fld w 20 6) (fld w 14 6) (fld w 8 6))
  | 3 => must (fld w 8 6 == 0) (.pstrip (fld w 20 6) (fld w 14 6))
  | _ => .error .badMinor

/-- Major 0x08 (R70, R71). -/
def dec08 (w : Half32) : Except Reject Instr :=
  .ok (.addi (fld w 20 6) (fld w 14 6) (fld w 0 14))

/-- Major 0x09 (R70, R71). -/
def dec09 (w : Half32) : Except Reject Instr :=
  match (fld w 12 2).toNat with
  | 0 => must (fld w 6 6 == 0) (.shli (fld w 20 6) (fld w 14 6) (fld w 0 6))
  | 1 => must (fld w 6 6 == 0) (.shri (fld w 20 6) (fld w 14 6) (fld w 0 6))
  | 2 => must (fld w 6 6 == 0) (.sari (fld w 20 6) (fld w 14 6) (fld w 0 6))
  | _ => .error .badMinor

/-- Major 0x0A (R70, R71). -/
def dec0A (w : Half32) : Except Reject Instr :=
  .ok (.ldi (fld w 20 6) (fld w 0 20))

/-- Major 0x0B (R70, R71). -/
def dec0B (w : Half32) : Except Reject Instr :=
  .ok (.ldih (fld w 20 6) (fld w 0 20))

/-- Major 0x10 (R70, R71). -/
def dec10 (w : Half32) : Except Reject Instr :=
  .ok (.br (fld w 0 26))

/-- Major 0x11 (R70, R71). -/
def dec11 (w : Half32) : Except Reject Instr :=
  .ok (.jal (fld w 20 6) (fld w 0 20))

/-- Major 0x12 (R70, R71). -/
def dec12 (w : Half32) : Except Reject Instr :=
  .ok (.bc (fld w 20 6) (fld w 14 6) (fld w 10 4) (fld w 0 10))

/-- Major 0x13 (R70, R71). -/
def dec13 (w : Half32) : Except Reject Instr :=
  match (fld w 17 3).toNat with
  | 0 => .ok (.bz (fld w 20 6) (fld w 0 17))
  | 1 => .ok (.bnz (fld w 20 6) (fld w 0 17))
  | 2 => .ok (.loop (fld w 20 6) (fld w 0 17))
  | 3 => .ok (.jr (fld w 20 6) (fld w 0 17))
  | 4 => must (fld w 0 17 == 0) (.ret (fld w 20 6))
  | 5 => must (fld w 0 7 == 0) (.rep (fld w 20 6) (fld w 13 4) (fld w 11 2) (fld w 9 2) (fld w 7 2))
  | _ => .error .badMinor

/-- Major 0x14 (R70, R71). -/
def dec14 (w : Half32) : Except Reject Instr :=
  match (fld w 0 8).toNat with
  | 0 => .ok (.fork (fld w 20 6) (fld w 14 6) (fld w 8 6))
  | 1 => must (fld w 8 6 == 0) (.join (fld w 20 6) (fld w 14 6))
  | 2 => must (fld w 8 6 == 0) (.joinT (fld w 20 6) (fld w 14 6))
  | 3 => .ok (.spawn (fld w 20 6) (fld w 14 6) (fld w 8 6))
  | 4 => must (fld w 8 18 == 0) (.yield)
  | 5 => must (fld w 8 18 == 0) (.endTask)
  | 6 => must (fld w 8 18 == 0) (.nop)
  | 7 => must (fld w 8 6 == 0) (.wait (fld w 20 6) (fld w 14 6))
  | 8 => .ok (.waitv (fld w 20 6) (fld w 14 6) (fld w 8 6))
  | 9 => must (fld w 8 18 == 0) (.commit)
  | _ => .error .badMinor

/-- Major 0x15 (R70, R71). -/
def dec15 (w : Half32) : Except Reject Instr :=
  match (fld w 0 8).toNat with
  | 0 => must (fld w 14 6 == 0) (.mfc (fld w 20 6) (fld w 8 6))
  | 1 => must (fld w 20 6 == 0) (.mtc (fld w 14 6) (fld w 8 6))
  | 2 => must (fld w 8 6 == 0 && fld w 20 6 == 0) (.trap (fld w 14 6))
  | 3 => must (fld w 8 6 == 0 && fld w 20 6 == 0) (.sys (fld w 14 6))
  | 4 => must (fld w 8 18 == 0) (.eret)
  | 5 => must (fld w 8 18 == 0) (.bkpt)
  | 6 => must (fld w 20 6 == 0) (.tlbi (fld w 14 6) (fld w 8 6))
  | 7 => .ok (.bmap (fld w 20 6) (fld w 14 6) (fld w 8 6))
  | 8 => must (fld w 8 6 == 0) (.qpool (fld w 20 6) (fld w 14 6))
  | 9 => must (fld w 20 6 == 0) (.trace (fld w 14 6) (fld w 8 6))
  | 10 => must (fld w 8 6 == 0) (.idle (fld w 20 6) (fld w 14 6))
  | 11 => must (fld w 8 6 == 0) (.flush (fld w 20 6) (fld w 14 6))
  | _ => .error .badMinor

/-- Major 0x16 (R70, R71). -/
def dec16 (w : Half32) : Except Reject Instr :=
  .ok (.ld (fld w 20 6) (fld w 14 6) (fld w 12 2) (fld w 10 2) (fld w 9 1) (fld w 0 9))

/-- Major 0x17 (R70, R71). -/
def dec17 (w : Half32) : Except Reject Instr :=
  must (fld w 9 1 == 0) (.st (fld w 20 6) (fld w 14 6) (fld w 12 2) (fld w 10 2) (fld w 0 9))

/-- Major 0x18 (R70, R71). -/
def dec18 (w : Half32) : Except Reject Instr :=
  match (fld w 4 4).toNat with
  | 0 => must (fld w 0 1 == 0) (if fld w 20 6 == 0 then (.redAdd (fld w 14 6) (fld w 8 6) (fld w 3 1) (fld w 1 2)) else (.amoAdd (fld w 20 6) (fld w 14 6) (fld w 8 6) (fld w 3 1) (fld w 1 2)))
  | 1 => must (fld w 0 1 == 0) (if fld w 20 6 == 0 then (.redMin (fld w 14 6) (fld w 8 6) (fld w 3 1) (fld w 1 2)) else (.amoMin (fld w 20 6) (fld w 14 6) (fld w 8 6) (fld w 3 1) (fld w 1 2)))
  | 2 => must (fld w 0 1 == 0) (if fld w 20 6 == 0 then (.redMinn (fld w 14 6) (fld w 8 6) (fld w 3 1) (fld w 1 2)) else (.amoMinn (fld w 20 6) (fld w 14 6) (fld w 8 6) (fld w 3 1) (fld w 1 2)))
  | 3 => must (fld w 0 1 == 0) (if fld w 20 6 == 0 then (.redMax (fld w 14 6) (fld w 8 6) (fld w 3 1) (fld w 1 2)) else (.amoMax (fld w 20 6) (fld w 14 6) (fld w 8 6) (fld w 3 1) (fld w 1 2)))
  | 4 => must (fld w 0 1 == 0) (if fld w 20 6 == 0 then (.redMaxn (fld w 14 6) (fld w 8 6) (fld w 3 1) (fld w 1 2)) else (.amoMaxn (fld w 20 6) (fld w 14 6) (fld w 8 6) (fld w 3 1) (fld w 1 2)))
  | 5 => must (fld w 0 1 == 0) (if fld w 20 6 == 0 then (.redAnd (fld w 14 6) (fld w 8 6) (fld w 3 1) (fld w 1 2)) else (.amoAnd (fld w 20 6) (fld w 14 6) (fld w 8 6) (fld w 3 1) (fld w 1 2)))
  | 6 => must (fld w 0 1 == 0) (if fld w 20 6 == 0 then (.redOr (fld w 14 6) (fld w 8 6) (fld w 3 1) (fld w 1 2)) else (.amoOr (fld w 20 6) (fld w 14 6) (fld w 8 6) (fld w 3 1) (fld w 1 2)))
  | 7 => must (fld w 0 1 == 0) (if fld w 20 6 == 0 then (.redXor (fld w 14 6) (fld w 8 6) (fld w 3 1) (fld w 1 2)) else (.amoXor (fld w 20 6) (fld w 14 6) (fld w 8 6) (fld w 3 1) (fld w 1 2)))
  | 8 => must (fld w 0 1 == 0) (.amoSwap (fld w 20 6) (fld w 14 6) (fld w 8 6) (fld w 3 1) (fld w 1 2))
  | 9 => must (fld w 0 1 == 0) (.amoCas (fld w 20 6) (fld w 14 6) (fld w 8 6) (fld w 3 1) (fld w 1 2))
  | 10 => must (fld w 0 1 == 0 && fld w 3 1 == 0) (if fld w 20 6 == 0 then (.redFmin (fld w 14 6) (fld w 8 6) (fld w 1 2)) else (.amoFmin (fld w 20 6) (fld w 14 6) (fld w 8 6) (fld w 1 2)))
  | 11 => must (fld w 0 1 == 0 && fld w 3 1 == 0) (if fld w 20 6 == 0 then (.redFmax (fld w 14 6) (fld w 8 6) (fld w 1 2)) else (.amoFmax (fld w 20 6) (fld w 14 6) (fld w 8 6) (fld w 1 2)))
  | _ => .error .badMinor

/-- Major 0x19 (R70, R71). -/
def dec19 (w : Half32) : Except Reject Instr :=
  match (fld w 0 8).toNat with
  | 0 => must (fld w 23 3 == 0) (.cinv (fld w 20 3) (fld w 14 6) (fld w 8 6))
  | 1 => must (fld w 23 3 == 0) (.cwb (fld w 20 3) (fld w 14 6) (fld w 8 6))
  | 2 => must (fld w 23 3 == 0) (.cpref (fld w 20 3) (fld w 14 6) (fld w 8 6))
  | _ => .error .badMinor

/-- Major 0x1A (R70, R71). -/
def dec1A (w : Half32) : Except Reject Instr :=
  match (fld w 0 8).toNat with
  | 0 => must (fld w 24 2 == 0) (if fld w 8 6 != 0 then .qsetCreate (fld w 20 4) (fld w 14 6) (fld w 8 6) else if fld w 14 6 == 0 then .qsetAttach (fld w 20 4) (fld w 14 6) (fld w 8 6) else .qsetRelease (fld w 20 4) (fld w 14 6) (fld w 8 6))
  | 1 => must (fld w 14 6 == 0 && fld w 24 2 == 0) (.qadvC (fld w 20 4) (fld w 8 6))
  | 2 => must (fld w 14 6 == 0 && fld w 24 2 == 0) (.qadvP (fld w 20 4) (fld w 8 6))
  | 3 => must (fld w 8 6 == 0 && fld w 18 2 == 0) (.qstat (fld w 20 6) (fld w 14 4))
  | _ => .error .badMinor

/-- Major 0x1B (R70, R71). -/
def dec1B (w : Half32) : Except Reject Instr :=
  match (fld w 3 5).toNat with
  | 0 => must (fld w 8 18 == 0) (.fence (fld w 0 3))
  | 1 => must (fld w 8 18 == 0) (.acq (fld w 0 3))
  | 2 => must (fld w 8 18 == 0) (.rel (fld w 0 3))
  | 3 => must (fld w 8 6 == 0 && fld w 20 6 == 0) (.bar (fld w 14 6) (fld w 0 3))
  | 4 => must (fld w 0 3 == 0 && fld w 8 12 == 0) (.phase (fld w 20 6))
  | _ => .error .badMinor

/-- Major 0x1C (R70, R71). -/
def dec1C (w : Half32) : Except Reject Instr :=
  match (fld w 0 8).toNat with
  | 0 => must (fld w 20 6 == 0) (.send (fld w 14 6) (fld w 8 6))
  | 1 => must (fld w 20 6 == 0) (.post (fld w 14 6) (fld w 8 6))
  | 2 => must (fld w 8 6 == 0) (.dpush (fld w 20 6) (fld w 14 6))
  | 3 => must (fld w 8 6 == 0) (.dpop (fld w 20 6) (fld w 14 6))
  | 4 => .ok (.dsteal (fld w 20 6) (fld w 14 6) (fld w 8 6))
  | 5 => .ok (.hbind (fld w 20 6) (fld w 14 6) (fld w 8 6))
  | 6 => must (fld w 8 6 == 0) (.hhold (fld w 20 6) (fld w 14 6))
  | 7 => must (fld w 8 6 == 0) (.hrel (fld w 20 6) (fld w 14 6))
  | 8 => .ok (.launch (fld w 20 6) (fld w 14 6) (fld w 8 6))
  | 9 => must (fld w 8 6 == 0) (.tid (fld w 20 6) (fld w 14 6))
  | 10 => must (fld w 8 6 == 0 && fld w 20 6 == 0) (.migrate (fld w 14 6))
  | 11 => must (fld w 8 6 == 0) (.rcmask (fld w 20 6) (fld w 14 6))
  | _ => .error .badMinor

/-- Major 0x1D (R70, R71). -/
def dec1D (w : Half32) : Except Reject Instr :=
  match (fld w 0 8).toNat with
  | 0 => must (fld w 18 8 == 0) (.put (fld w 14 4) (fld w 8 6))
  | 1 => must (fld w 18 2 == 0) (.get (fld w 20 6) (fld w 14 4) (fld w 8 6))
  | 2 => must (fld w 18 8 == 0) (.offer (fld w 14 4) (fld w 8 6))
  | 3 => .ok (.alt (fld w 20 6) (fld w 14 6) (fld w 8 6))
  | 4 => must (fld w 8 6 == 0 && fld w 18 2 == 0) (.poll (fld w 20 6) (fld w 14 4))
  | 5 => must (fld w 8 6 == 0 && fld w 18 2 == 0) (.pwd (fld w 20 6) (fld w 14 4))
  | 6 => must (fld w 8 6 == 0) (.cload (fld w 20 6) (fld w 14 6))
  | 7 => must (fld w 8 6 == 0) (.cunload (fld w 20 6) (fld w 14 6))
  | 8 => must (fld w 18 2 == 0) (.cbind (fld w 20 6) (fld w 14 4) (fld w 8 6))
  | 9 => must (fld w 8 6 == 0 && fld w 18 2 == 0) (.pstat (fld w 20 6) (fld w 14 4))
  | _ => .error .badMinor

/-- Major 0x1E (R70, R71). -/
def dec1E (w : Half32) : Except Reject Instr :=
  match (fld w 0 8).toNat with
  | 0 => .ok (.cpy (fld w 20 6) (fld w 14 6) (fld w 8 6))
  | 1 => .ok (.cpyM (fld w 20 6) (fld w 14 6) (fld w 8 6))
  | 2 => .ok (.cmcast (fld w 20 6) (fld w 14 6) (fld w 8 6))
  | 3 => must (fld w 8 12 == 0) (.cseal (fld w 20 6))
  | 4 => must (fld w 8 6 == 0) (.cwait (fld w 20 6) (fld w 14 6))
  | 5 => must (fld w 8 6 == 0) (.wmk (fld w 20 6) (fld w 14 6))
  | 6 => must (fld w 8 6 == 0 && fld w 20 6 == 0) (.cresume (fld w 14 6))
  | 7 => must (fld w 8 6 == 0 && fld w 20 6 == 0) (.cabort (fld w 14 6))
  | 8 => must (fld w 20 6 == 0) (.streamOn (fld w 14 6) (fld w 8 6))
  | 9 => must (fld w 8 12 == 0) (.streamOff (fld w 20 6))
  | _ => .error .badMinor

/-- Major 0x1F (R70, R71). -/
def dec1F (w : Half32) : Except Reject Instr :=
  match (fld w 0 8).toNat with
  | 0 => must (fld w 8 6 == 0) (.rbind (fld w 20 6) (fld w 14 6))
  | 1 => must (fld w 16 2 == 0 && fld w 19 1 == 0) (.fold (fld w 20 6) (fld w 18 1) (fld w 14 2) (fld w 8 6))
  | 2 => must (fld w 19 1 == 0) (.scan (fld w 20 6) (fld w 18 1) (fld w 16 2) (fld w 14 2) (fld w 8 6))
  | 3 => must (fld w 18 8 == 0) (.zip (fld w 16 2) (fld w 14 2) (fld w 8 6))
  | 4 => must (fld w 22 4 == 0) (.outer (fld w 20 2) (fld w 14 6) (fld w 8 6))
  | 5 => must (fld w 8 6 == 0) (.hstat (fld w 20 6) (fld w 14 6))
  | _ => .error .badMinor

/-- Major 0x20 (R70, R71). -/
def dec20 (w : Half32) : Except Reject Instr :=
  match (fld w 0 3).toNat with
  | 0 => .ok (.vadd (fld w 21 5) (fld w 16 5) (fld w 11 5) (fld w 8 3) (fld w 3 5))
  | 1 => .ok (.vsub (fld w 21 5) (fld w 16 5) (fld w 11 5) (fld w 8 3) (fld w 3 5))
  | 2 => .ok (.vmul (fld w 21 5) (fld w 16 5) (fld w 11 5) (fld w 8 3) (fld w 3 5))
  | 3 => .ok (.vfma (fld w 21 5) (fld w 16 5) (fld w 11 5) (fld w 8 3) (fld w 3 5))
  | 4 => .ok (.vfms (fld w 21 5) (fld w 16 5) (fld w 11 5) (fld w 8 3) (fld w 3 5))
  | 5 => .ok (.vfnma (fld w 21 5) (fld w 16 5) (fld w 11 5) (fld w 8 3) (fld w 3 5))
  | 6 => .ok (.vmin (fld w 21 5) (fld w 16 5) (fld w 11 5) (fld w 8 3) (fld w 3 5))
  | 7 => .ok (.vmax (fld w 21 5) (fld w 16 5) (fld w 11 5) (fld w 8 3) (fld w 3 5))
  | _ => .error .badMinor

/-- Major 0x21 (R70, R71). -/
def dec21 (w : Half32) : Except Reject Instr :=
  match (fld w 0 3).toNat with
  | 0 => must (fld w 11 5 == 0) (.vabs (fld w 21 5) (fld w 16 5) (fld w 8 3) (fld w 3 5))
  | 1 => must (fld w 11 5 == 0) (.vneg (fld w 21 5) (fld w 16 5) (fld w 8 3) (fld w 3 5))
  | 2 => must (fld w 11 5 == 0) (.vrcp (fld w 21 5) (fld w 16 5) (fld w 8 3) (fld w 3 5))
  | 3 => must (fld w 11 5 == 0) (.vrsqrt (fld w 21 5) (fld w 16 5) (fld w 8 3) (fld w 3 5))
  | 4 => must (fld w 11 5 == 0) (.vexp2 (fld w 21 5) (fld w 16 5) (fld w 8 3) (fld w 3 5))
  | 5 => must (fld w 11 5 == 0) (.vlog2 (fld w 21 5) (fld w 16 5) (fld w 8 3) (fld w 3 5))
  | 6 => must (fld w 4 4 == 0 && fld w 11 5 == 0) (.vmov (fld w 21 5) (fld w 16 5) (fld w 8 3) (fld w 3 1))
  | 7 => must (fld w 4 4 == 0 && fld w 11 5 == 0) (.vnot (fld w 21 5) (fld w 16 5) (fld w 8 3) (fld w 3 1))
  | _ => .error .badMinor

/-- Major 0x22 (R70, R71). -/
def dec22 (w : Half32) : Except Reject Instr :=
  match (fld w 0 3).toNat with
  | 0 => must (fld w 3 5 == 0) (.vand (fld w 21 5) (fld w 16 5) (fld w 11 5) (fld w 8 3))
  | 1 => must (fld w 3 5 == 0) (.vor (fld w 21 5) (fld w 16 5) (fld w 11 5) (fld w 8 3))
  | 2 => must (fld w 3 5 == 0) (.vxor (fld w 21 5) (fld w 16 5) (fld w 11 5) (fld w 8 3))
  | 3 => .ok (.vshl (fld w 21 5) (fld w 16 5) (fld w 11 5) (fld w 8 3) (fld w 3 5))
  | 4 => .ok (.vshr (fld w 21 5) (fld w 16 5) (fld w 11 5) (fld w 8 3) (fld w 3 5))
  | 5 => .ok (.vsar (fld w 21 5) (fld w 16 5) (fld w 11 5) (fld w 8 3) (fld w 3 5))
  | 6 => must (fld w 3 5 == 0) (.vsel (fld w 21 5) (fld w 16 5) (fld w 11 5) (fld w 8 3))
  | 7 => .ok (.vbscale (fld w 21 5) (fld w 16 5) (fld w 11 5) (fld w 8 3) (fld w 3 5))
  | _ => .error .badMinor

/-- Major 0x23 (R70, R71). -/
def dec23 (w : Half32) : Except Reject Instr :=
  must (fld w 24 2 == 0) (.vcmp (fld w 21 3) (fld w 16 5) (fld w 11 5) (fld w 8 3) (fld w 3 5) (fld w 0 3))

/-- Major 0x24 (R70, R71). -/
def dec24 (w : Half32) : Except Reject Instr :=
  match (fld w 0 3).toNat with
  | 0 => .ok (.vcvt (fld w 21 5) (fld w 16 5) (fld w 11 5) (fld w 8 3) (fld w 3 5))
  | 1 => .ok (.vcvtSat (fld w 21 5) (fld w 16 5) (fld w 11 5) (fld w 8 3) (fld w 3 5))
  | 2 => .ok (.vcvtSr (fld w 21 5) (fld w 16 5) (fld w 11 5) (fld w 8 3) (fld w 3 5))
  | 3 => .ok (.vpack (fld w 21 5) (fld w 16 5) (fld w 11 5) (fld w 8 3) (fld w 3 5))
  | 4 => .ok (.vunpack (fld w 21 5) (fld w 16 5) (fld w 11 5) (fld w 8 3) (fld w 3 5))
  | 5 => must (fld w 14 2 == 0) (.vdecode (fld w 21 5) (fld w 16 5) (fld w 11 3) (fld w 8 3) (fld w 3 5))
  | 6 => must (fld w 8 3 == 0) (.vins (fld w 21 5) (fld w 16 5) (fld w 11 5) (fld w 3 5))
  | 7 => must (fld w 8 3 == 0) (.vext (fld w 21 5) (fld w 16 5) (fld w 11 5) (fld w 3 5))
  | _ => .error .badMinor

/-- Major 0x25 (R70, R71). -/
def dec25 (w : Half32) : Except Reject Instr :=
  match (fld w 0 3).toNat with
  | 0 => must (fld w 11 5 == 0) (.vredAdd (fld w 21 5) (fld w 16 5) (fld w 8 3) (fld w 3 5))
  | 1 => must (fld w 11 5 == 0) (.vredMax (fld w 21 5) (fld w 16 5) (fld w 8 3) (fld w 3 5))
  | 2 => must (fld w 11 5 == 0) (.vredMin (fld w 21 5) (fld w 16 5) (fld w 8 3) (fld w 3 5))
  | 3 => must (fld w 3 5 == 0) (.vperm (fld w 21 5) (fld w 16 5) (fld w 11 5) (fld w 8 3))
  | 4 => must (fld w 11 5 == 0) (.vbcast (fld w 21 5) (fld w 16 5) (fld w 8 3) (fld w 3 5))
  | 5 => must (fld w 3 5 == 0) (.vslide (fld w 21 5) (fld w 16 5) (fld w 11 5) (fld w 8 3))
  | 6 => must (fld w 3 5 == 0 && fld w 11 5 == 0) (.vcompact (fld w 21 5) (fld w 16 5) (fld w 8 3))
  | 7 => must (fld w 3 5 == 0 && fld w 11 5 == 0) (.vexpand (fld w 21 5) (fld w 16 5) (fld w 8 3))
  | _ => .error .badMinor

/-- Major 0x26 (R70, R71). -/
def dec26 (w : Half32) : Except Reject Instr :=
  match (fld w 0 3).toNat with
  | 0 => must (fld w 3 13 == 0 && fld w 19 2 == 0) (.vpopk (fld w 21 5) (fld w 16 3))
  | 1 => must (fld w 3 8 == 0 && fld w 14 2 == 0 && fld w 19 2 == 0 && fld w 24 2 == 0) (.kand (fld w 21 3) (fld w 16 3) (fld w 11 3))
  | 2 => must (fld w 3 8 == 0 && fld w 14 2 == 0 && fld w 19 2 == 0 && fld w 24 2 == 0) (.kor (fld w 21 3) (fld w 16 3) (fld w 11 3))
  | 3 => must (fld w 3 8 == 0 && fld w 14 2 == 0 && fld w 19 2 == 0 && fld w 24 2 == 0) (.kxor (fld w 21 3) (fld w 16 3) (fld w 11 3))
  | 4 => must (fld w 3 13 == 0 && fld w 19 2 == 0 && fld w 24 2 == 0) (.knot (fld w 21 3) (fld w 16 3))
  | 5 => must (fld w 3 13 == 0 && fld w 19 2 == 0 && fld w 24 2 == 0) (.kmov (fld w 21 3) (fld w 16 3))
  | _ => .error .badMinor

/-- Major 0x27 (R70, R71). -/
def dec27 (w : Half32) : Except Reject Instr :=
  match (fld w 4 1).toNat with
  | 0 => must (fld w 5 5 == 0) (.vldl (fld w 21 5) (fld w 15 6) (fld w 13 2) (fld w 10 3) (fld w 0 4))
  | 1 => must (fld w 5 5 == 0) (.vstl (fld w 21 5) (fld w 15 6) (fld w 13 2) (fld w 10 3) (fld w 0 4))
  | _ => .error .badMinor

/-- Major 0x28 (R70, R71). -/
def dec28 (w : Half32) : Except Reject Instr :=
  .ok (.vld (fld w 21 5) (fld w 15 6) (fld w 13 2) (fld w 10 3) (fld w 5 5) (fld w 0 5))

/-- Major 0x29 (R70, R71). -/
def dec29 (w : Half32) : Except Reject Instr :=
  .ok (.vst (fld w 21 5) (fld w 15 6) (fld w 13 2) (fld w 10 3) (fld w 5 5) (fld w 0 5))

/-- Major 0x2A (R70, R71). -/
def dec2A (w : Half32) : Except Reject Instr :=
  .ok (.vgather (fld w 21 5) (fld w 15 6) (fld w 13 2) (fld w 10 3) (fld w 5 5) (fld w 0 5))

/-- Major 0x2B (R70, R71). -/
def dec2B (w : Half32) : Except Reject Instr :=
  .ok (.vscatter (fld w 21 5) (fld w 15 6) (fld w 13 2) (fld w 10 3) (fld w 5 5) (fld w 0 5))

/-- Major 0x2C (R70, R71). -/
def dec2C (w : Half32) : Except Reject Instr :=
  must (fld w 0 8 == 0) (.mma (fld w 24 2) (fld w 19 5) (fld w 14 5) (fld w 8 6))

/-- Major 0x2D (R70, R71). -/
def dec2D (w : Half32) : Except Reject Instr :=
  match (fld w 0 8).toNat with
  | 0 => .ok (.mcfg (fld w 20 6) (fld w 14 6) (fld w 8 6))
  | 1 => must (fld w 8 12 == 0 && fld w 22 2 == 0) (.mzero (fld w 24 2) (fld w 20 2))
  | 2 => must (fld w 8 6 == 0 && fld w 22 2 == 0) (.mloadA (fld w 24 2) (fld w 20 2) (fld w 14 6))
  | 3 => must (fld w 8 6 == 0 && fld w 20 6 == 0) (.mlatchB (fld w 14 6))
  | 4 => must (fld w 8 18 == 0) (.mrot)
  | 5 => must (fld w 20 6 == 0) (.mring (fld w 14 6) (fld w 8 6))
  | 6 => must (fld w 8 6 == 0 && fld w 22 4 == 0) (.msum (fld w 20 2) (fld w 14 6))
  | 7 => must (fld w 13 1 == 0 && fld w 19 1 == 0 && fld w 22 4 == 0) (.mscale (fld w 20 2) (fld w 14 5) (fld w 8 5))
  | 8 => must (fld w 22 4 == 0) (.mdrain (fld w 20 2) (fld w 14 6) (fld w 8 6))
  | 9 => must (fld w 8 12 == 0) (.mstat (fld w 20 6))
  | _ => .error .badMinor

/-- Major 0x30 (R70, R71). -/
def dec30 (w : Half32) : Except Reject Instr :=
  must (fld w 0 8 == 0 && fld w 14 10 == 33) (.mmaF64 (fld w 24 2) (fld w 8 6))

/-- Major 0x31 (R70, R71). -/
def dec31 (w : Half32) : Except Reject Instr :=
  match (fld w 0 3).toNat with
  | 0 => .ok (.vdiv (fld w 21 5) (fld w 16 5) (fld w 11 5) (fld w 8 3) (fld w 3 5))
  | 1 => must (fld w 11 5 == 0) (.vsqrt (fld w 21 5) (fld w 16 5) (fld w 8 3) (fld w 3 5))
  | 2 => must (fld w 11 5 == 0) (.vexp (fld w 21 5) (fld w 16 5) (fld w 8 3) (fld w 3 5))
  | 3 => must (fld w 11 5 == 0) (.vlog (fld w 21 5) (fld w 16 5) (fld w 8 3) (fld w 3 5))
  | _ => .error .badMinor

/-- Major 0x3E (R70, R71). -/
def dec3E (w : Half32) : Except Reject Instr :=
  match (fld w 0 8).toNat with
  | 0 => must (fld w 20 6 == 0) (.glaunch (fld w 14 6) (fld w 8 6))
  | 1 => must (fld w 8 6 == 0 && fld w 20 6 == 0) (.gres (fld w 14 6))
  | 2 => .ok (.evcfg (fld w 20 6) (fld w 14 6) (fld w 8 6))
  | 3 => must (fld w 20 6 == 0) (.evsig (fld w 14 6) (fld w 8 6))
  | _ => .error .badMinor

/-- The fields of one unprefixed word, by its major (R70). -/
def decodeFields (w : Half32) : Except Reject Instr :=
  match (fld w 26 6).toNat with
  | 0 => .error .majorZero
  | 1 => dec01 w
  | 2 => dec02 w
  | 3 => dec03 w
  | 4 => dec04 w
  | 5 => dec05 w
  | 6 => dec06 w
  | 8 => dec08 w
  | 9 => dec09 w
  | 10 => dec0A w
  | 11 => dec0B w
  | 16 => dec10 w
  | 17 => dec11 w
  | 18 => dec12 w
  | 19 => dec13 w
  | 20 => dec14 w
  | 21 => dec15 w
  | 22 => dec16 w
  | 23 => dec17 w
  | 24 => dec18 w
  | 25 => dec19 w
  | 26 => dec1A w
  | 27 => dec1B w
  | 28 => dec1C w
  | 29 => dec1D w
  | 30 => dec1E w
  | 31 => dec1F w
  | 32 => dec20 w
  | 33 => dec21 w
  | 34 => dec22 w
  | 35 => dec23 w
  | 36 => dec24 w
  | 37 => dec25 w
  | 38 => dec26 w
  | 39 => dec27 w
  | 40 => dec28 w
  | 41 => dec29 w
  | 42 => dec2A w
  | 43 => dec2B w
  | 44 => dec2C w
  | 45 => dec2D w
  | 48 => dec30 w
  | 49 => dec31 w
  | 62 => dec3E w
  | 50 => .error .reservedD
  | 51 => .error .reservedD
  | 63 => .error .badPairing
  | _ => .error .reservedMajor

/-- The sub-operation codes and field combinations that are left (R74 steps 4 to 6). -/
def checked (r : Except Reject Instr) : Except Reject Instr :=
  match r with
  | .ok i => if i.wf then .ok i else .error .badMinor
  | .error e => .error e

/-- An unprefixed word (R74). -/
def decodeWord (w : Half32) : Except Reject Instr := checked (decodeFields w)

/-- The instruction a prefix makes of the word after it (R60, R62, R64, R65, R67). -/
def widen (p : Half32) : Instr → Except Reject Instr
  | .addi d a imm => must (fld p 20 6 == 0) (.addiPrefixed d a (fld p 0 20 ++ imm))
  | .ldi d imm => must (fld p 20 6 == 0) (.ldiPrefixed d (fld p 0 20 ++ imm))
  | .ld d a sp sz s off => must (fld p 20 6 == 0) (.ldPrefixed d a sp sz s off (fld p 0 20))
  | .st d a sp sz off => must (fld p 20 6 == 0) (.stPrefixed d a sp sz off (fld p 0 20))
  | .vldl d a sp k x => .ok (.vldlPrefixed d a sp k x (fld p 20 6) (fld p 0 20))
  | .vstl d a sp k x => .ok (.vstlPrefixed d a sp k x (fld p 20 6) (fld p 0 20))
  | .vld d a sp k f x => .ok (.vldPrefixed d a sp k f x (fld p 20 6) (fld p 0 20))
  | .vst d a sp k f x => .ok (.vstPrefixed d a sp k f x (fld p 20 6) (fld p 0 20))
  | .vgather d a sp k f x => must (fld p 0 20 == 0) (.vgatherPrefixed d a sp k f x (fld p 20 6))
  | .vscatter d a sp k f x => must (fld p 0 20 == 0) (.vscatterPrefixed d a sp k f x (fld p 20 6))
  | _ => .error .badPairing

/-- The atomic form under a prefix (R65): the prefix carries the coordinate register, the scope and the ordering. -/
def decAmoPrefixed (p w : Half32) : Except Reject Instr :=
  must (fld w 0 1 == 0 && fld p 5 15 == 0)
    (.amoPrefixed (fld w 4 4) (fld w 20 6) (fld w 14 6) (fld w 8 6) (fld w 3 1) (fld w 1 2) (fld p 20 6) (fld p 0 3)
      (fld p 3 1) (fld p 4 1))

/-- A prefix and the word after it (R60). -/
def decodePair (p w : Half32) : Except Reject Instr :=
  match (fld w 26 6).toNat with
  | 24 => checked (decAmoPrefixed p w)
  | 9 => .error .badPairing
  | 11 => .error .badPairing
  | _ =>
    match decodeFields w with
    | .ok i => checked (widen p i)
    | .error e => .error e

/-- The word is a prefix (R60). -/
def isPrefix (w : Half32) : Bool := fld w 26 6 == 0x3F

/-- The four bytes of a word, lowest address first (R7, R59). -/
def wordBytes (w : Half32) : List Byte := [fld w 0 8, fld w 8 8, fld w 16 8, fld w 24 8]

/-- The little-endian word of four bytes (R59). -/
def bytesWord (b0 b1 b2 b3 : Byte) : Half32 := b3 ++ b2 ++ b1 ++ b0

/-- Decoding on bytes: the instruction and its length in bytes, or why there is none (R59, R60, R74). -/
def decodeBytes : List Byte → Except Reject (Instr × Nat)
  | b0 :: b1 :: b2 :: b3 :: rest =>
    let w := bytesWord b0 b1 b2 b3
    if isPrefix w then
      match rest with
      | c0 :: c1 :: c2 :: c3 :: _ =>
        match decodePair w (bytesWord c0 c1 c2 c3) with
        | .ok i => .ok (i, 8)
        | .error e => .error e
      | _ => .error .truncated
    else
      match decodeWord w with
      | .ok i => .ok (i, 4)
      | .error e => .error e
  | _ => .error .truncated

/-- A 32-bit word from its value. -/
def word (n : Nat) : Half32 := BitVec.ofNat 32 n

/-- A prefix word with its C and EXT fields (R60). -/
def pfx (c ext : Nat) : Half32 := word (0xFC000000 + c * 1048576 + ext)

/-- The words of an instruction, first word first; no words for an event (R62-R69). -/
def encode : Instr → List Half32
  | .add d a b => [word (0x04000000 + d.toNat * 1048576 + a.toNat * 16384 + b.toNat * 256)]
  | .sub d a b => [word (0x04000001 + d.toNat * 1048576 + a.toNat * 16384 + b.toNat * 256)]
  | .min d a b => [word (0x04000002 + d.toNat * 1048576 + a.toNat * 16384 + b.toNat * 256)]
  | .minn d a b => [word (0x04000003 + d.toNat * 1048576 + a.toNat * 16384 + b.toNat * 256)]
  | .max d a b => [word (0x04000004 + d.toNat * 1048576 + a.toNat * 16384 + b.toNat * 256)]
  | .maxn d a b => [word (0x04000005 + d.toNat * 1048576 + a.toNat * 16384 + b.toNat * 256)]
  | .mul d a b => [word (0x08000000 + d.toNat * 1048576 + a.toNat * 16384 + b.toNat * 256)]
  | .mulh d a b => [word (0x08000001 + d.toNat * 1048576 + a.toNat * 16384 + b.toNat * 256)]
  | .mulhn d a b => [word (0x08000002 + d.toNat * 1048576 + a.toNat * 16384 + b.toNat * 256)]
  | .div d a b => [word (0x08000003 + d.toNat * 1048576 + a.toNat * 16384 + b.toNat * 256)]
  | .divn d a b => [word (0x08000004 + d.toNat * 1048576 + a.toNat * 16384 + b.toNat * 256)]
  | .rem d a b => [word (0x08000005 + d.toNat * 1048576 + a.toNat * 16384 + b.toNat * 256)]
  | .remn d a b => [word (0x08000006 + d.toNat * 1048576 + a.toNat * 16384 + b.toNat * 256)]
  | .and d a b => [word (0x0C000000 + d.toNat * 1048576 + a.toNat * 16384 + b.toNat * 256)]
  | .or d a b => [word (0x0C000001 + d.toNat * 1048576 + a.toNat * 16384 + b.toNat * 256)]
  | .xor d a b => [word (0x0C000002 + d.toNat * 1048576 + a.toNat * 16384 + b.toNat * 256)]
  | .andn d a b => [word (0x0C000003 + d.toNat * 1048576 + a.toNat * 16384 + b.toNat * 256)]
  | .shl d a b => [word (0x0C000004 + d.toNat * 1048576 + a.toNat * 16384 + b.toNat * 256)]
  | .shr d a b => [word (0x0C000005 + d.toNat * 1048576 + a.toNat * 16384 + b.toNat * 256)]
  | .sar d a b => [word (0x0C000006 + d.toNat * 1048576 + a.toNat * 16384 + b.toNat * 256)]
  | .rol d a b => [word (0x0C000007 + d.toNat * 1048576 + a.toNat * 16384 + b.toNat * 256)]
  | .clz d a => [word (0x0C000008 + d.toNat * 1048576 + a.toNat * 16384)]
  | .ctz d a => [word (0x0C000009 + d.toNat * 1048576 + a.toNat * 16384)]
  | .popc d a => [word (0x0C00000A + d.toNat * 1048576 + a.toNat * 16384)]
  | .zext d a pos len => [word (0x10000000 + d.toNat * 1048576 + a.toNat * 16384 + pos.toNat * 256 + len.toNat * 4)]
  | .sext d a pos len => [word (0x10000001 + d.toNat * 1048576 + a.toNat * 16384 + pos.toNat * 256 + len.toNat * 4)]
  | .ins d a pos len => [word (0x10000002 + d.toNat * 1048576 + a.toNat * 16384 + pos.toNat * 256 + len.toNat * 4)]
  | .ext d a b => [word (0x10000003 + d.toNat * 1048576 + a.toNat * 16384 + b.toNat * 256)]
  | .cmp d a b cc => [word (0x14000000 + d.toNat * 1048576 + a.toNat * 16384 + b.toNat * 256 + cc.toNat)]
  | .sel d a b => [word (0x14000010 + d.toNat * 1048576 + a.toNat * 16384 + b.toNat * 256)]
  | .ptag d a b => [word (0x18000000 + d.toNat * 1048576 + a.toNat * 16384 + b.toNat * 256)]
  | .pfmt d a => [word (0x18000001 + d.toNat * 1048576 + a.toNat * 16384)]
  | .padd d a b => [word (0x18000002 + d.toNat * 1048576 + a.toNat * 16384 + b.toNat * 256)]
  | .pstrip d a => [word (0x18000003 + d.toNat * 1048576 + a.toNat * 16384)]
  | .addi d a imm => [word (0x20000000 + d.toNat * 1048576 + a.toNat * 16384 + imm.toNat)]
  | .shli d a n => [word (0x24000000 + d.toNat * 1048576 + a.toNat * 16384 + n.toNat)]
  | .shri d a n => [word (0x24001000 + d.toNat * 1048576 + a.toNat * 16384 + n.toNat)]
  | .sari d a n => [word (0x24002000 + d.toNat * 1048576 + a.toNat * 16384 + n.toNat)]
  | .ldi d imm => [word (0x28000000 + d.toNat * 1048576 + imm.toNat)]
  | .ldih d imm => [word (0x2C000000 + d.toNat * 1048576 + imm.toNat)]
  | .br off => [word (0x40000000 + off.toNat)]
  | .jal d off => [word (0x44000000 + d.toNat * 1048576 + off.toNat)]
  | .bc a b cc off => [word (0x48000000 + a.toNat * 1048576 + b.toNat * 16384 + cc.toNat * 1024 + off.toNat)]
  | .bz a off => [word (0x4C000000 + a.toNat * 1048576 + off.toNat)]
  | .bnz a off => [word (0x4C020000 + a.toNat * 1048576 + off.toNat)]
  | .loop a off => [word (0x4C040000 + a.toNat * 1048576 + off.toNat)]
  | .jr a off => [word (0x4C060000 + a.toNat * 1048576 + off.toNat)]
  | .ret a => [word (0x4C080000 + a.toNat * 1048576)]
  | .rep a len sd sa sb => [word (0x4C0A0000 + a.toNat * 1048576 + len.toNat * 8192 + sd.toNat * 2048 + sa.toNat * 512 + sb.toNat * 128)]
  | .fork d a b => [word (0x50000000 + d.toNat * 1048576 + a.toNat * 16384 + b.toNat * 256)]
  | .join d a => [word (0x50000001 + d.toNat * 1048576 + a.toNat * 16384)]
  | .joinT d a => [word (0x50000002 + d.toNat * 1048576 + a.toNat * 16384)]
  | .spawn d a b => [word (0x50000003 + d.toNat * 1048576 + a.toNat * 16384 + b.toNat * 256)]
  | .yield => [word (0x50000004)]
  | .endTask => [word (0x50000005)]
  | .nop => [word (0x50000006)]
  | .wait d a => [word (0x50000007 + d.toNat * 1048576 + a.toNat * 16384)]
  | .waitv d a b => [word (0x50000008 + d.toNat * 1048576 + a.toNat * 16384 + b.toNat * 256)]
  | .commit => [word (0x50000009)]
  | .mfc d b => [word (0x54000000 + d.toNat * 1048576 + b.toNat * 256)]
  | .mtc a b => [word (0x54000001 + a.toNat * 16384 + b.toNat * 256)]
  | .trap a => [word (0x54000002 + a.toNat * 16384)]
  | .sys a => [word (0x54000003 + a.toNat * 16384)]
  | .eret => [word (0x54000004)]
  | .bkpt => [word (0x54000005)]
  | .tlbi a b => [word (0x54000006 + a.toNat * 16384 + b.toNat * 256)]
  | .bmap d a b => [word (0x54000007 + d.toNat * 1048576 + a.toNat * 16384 + b.toNat * 256)]
  | .qpool d a => [word (0x54000008 + d.toNat * 1048576 + a.toNat * 16384)]
  | .trace a b => [word (0x54000009 + a.toNat * 16384 + b.toNat * 256)]
  | .idle d a => [word (0x5400000A + d.toNat * 1048576 + a.toNat * 16384)]
  | .flush d a => [word (0x5400000B + d.toNat * 1048576 + a.toNat * 16384)]
  | .ld d a sp sz s off => [word (0x58000000 + d.toNat * 1048576 + a.toNat * 16384 + sp.toNat * 4096 + sz.toNat * 1024 + s.toNat * 512 + off.toNat)]
  | .st d a sp sz off => [word (0x5C000000 + d.toNat * 1048576 + a.toNat * 16384 + sp.toNat * 4096 + sz.toNat * 1024 + off.toNat)]
  | .amoAdd d a b z p => [word (0x60000000 + d.toNat * 1048576 + a.toNat * 16384 + b.toNat * 256 + z.toNat * 8 + p.toNat * 2)]
  | .amoMin d a b z p => [word (0x60000010 + d.toNat * 1048576 + a.toNat * 16384 + b.toNat * 256 + z.toNat * 8 + p.toNat * 2)]
  | .amoMinn d a b z p => [word (0x60000020 + d.toNat * 1048576 + a.toNat * 16384 + b.toNat * 256 + z.toNat * 8 + p.toNat * 2)]
  | .amoMax d a b z p => [word (0x60000030 + d.toNat * 1048576 + a.toNat * 16384 + b.toNat * 256 + z.toNat * 8 + p.toNat * 2)]
  | .amoMaxn d a b z p => [word (0x60000040 + d.toNat * 1048576 + a.toNat * 16384 + b.toNat * 256 + z.toNat * 8 + p.toNat * 2)]
  | .amoAnd d a b z p => [word (0x60000050 + d.toNat * 1048576 + a.toNat * 16384 + b.toNat * 256 + z.toNat * 8 + p.toNat * 2)]
  | .amoOr d a b z p => [word (0x60000060 + d.toNat * 1048576 + a.toNat * 16384 + b.toNat * 256 + z.toNat * 8 + p.toNat * 2)]
  | .amoXor d a b z p => [word (0x60000070 + d.toNat * 1048576 + a.toNat * 16384 + b.toNat * 256 + z.toNat * 8 + p.toNat * 2)]
  | .amoSwap d a b z p => [word (0x60000080 + d.toNat * 1048576 + a.toNat * 16384 + b.toNat * 256 + z.toNat * 8 + p.toNat * 2)]
  | .amoCas d a b z p => [word (0x60000090 + d.toNat * 1048576 + a.toNat * 16384 + b.toNat * 256 + z.toNat * 8 + p.toNat * 2)]
  | .amoFmin d a b p => [word (0x600000A0 + d.toNat * 1048576 + a.toNat * 16384 + b.toNat * 256 + p.toNat * 2)]
  | .amoFmax d a b p => [word (0x600000B0 + d.toNat * 1048576 + a.toNat * 16384 + b.toNat * 256 + p.toNat * 2)]
  | .redAdd a b z p => [word (0x60000000 + a.toNat * 16384 + b.toNat * 256 + z.toNat * 8 + p.toNat * 2)]
  | .redMin a b z p => [word (0x60000010 + a.toNat * 16384 + b.toNat * 256 + z.toNat * 8 + p.toNat * 2)]
  | .redMinn a b z p => [word (0x60000020 + a.toNat * 16384 + b.toNat * 256 + z.toNat * 8 + p.toNat * 2)]
  | .redMax a b z p => [word (0x60000030 + a.toNat * 16384 + b.toNat * 256 + z.toNat * 8 + p.toNat * 2)]
  | .redMaxn a b z p => [word (0x60000040 + a.toNat * 16384 + b.toNat * 256 + z.toNat * 8 + p.toNat * 2)]
  | .redAnd a b z p => [word (0x60000050 + a.toNat * 16384 + b.toNat * 256 + z.toNat * 8 + p.toNat * 2)]
  | .redOr a b z p => [word (0x60000060 + a.toNat * 16384 + b.toNat * 256 + z.toNat * 8 + p.toNat * 2)]
  | .redXor a b z p => [word (0x60000070 + a.toNat * 16384 + b.toNat * 256 + z.toNat * 8 + p.toNat * 2)]
  | .redFmin a b p => [word (0x600000A0 + a.toNat * 16384 + b.toNat * 256 + p.toNat * 2)]
  | .redFmax a b p => [word (0x600000B0 + a.toNat * 16384 + b.toNat * 256 + p.toNat * 2)]
  | .cinv scope a b => [word (0x64000000 + scope.toNat * 1048576 + a.toNat * 16384 + b.toNat * 256)]
  | .cwb scope a b => [word (0x64000001 + scope.toNat * 1048576 + a.toNat * 16384 + b.toNat * 256)]
  | .cpref scope a b => [word (0x64000002 + scope.toNat * 1048576 + a.toNat * 16384 + b.toNat * 256)]
  | .qsetCreate q a b => [word (0x68000000 + q.toNat * 1048576 + a.toNat * 16384 + b.toNat * 256)]
  | .qsetAttach q a b => [word (0x68000000 + q.toNat * 1048576 + a.toNat * 16384 + b.toNat * 256)]
  | .qsetRelease q a b => [word (0x68000000 + q.toNat * 1048576 + a.toNat * 16384 + b.toNat * 256)]
  | .qadvC q b => [word (0x68000001 + q.toNat * 1048576 + b.toNat * 256)]
  | .qadvP q b => [word (0x68000002 + q.toNat * 1048576 + b.toNat * 256)]
  | .qstat d q => [word (0x68000003 + d.toNat * 1048576 + q.toNat * 16384)]
  | .fence scope => [word (0x6C000000 + scope.toNat)]
  | .acq scope => [word (0x6C000008 + scope.toNat)]
  | .rel scope => [word (0x6C000010 + scope.toNat)]
  | .bar a scope => [word (0x6C000018 + a.toNat * 16384 + scope.toNat)]
  | .phase d => [word (0x6C000020 + d.toNat * 1048576)]
  | .send a b => [word (0x70000000 + a.toNat * 16384 + b.toNat * 256)]
  | .post a b => [word (0x70000001 + a.toNat * 16384 + b.toNat * 256)]
  | .dpush d a => [word (0x70000002 + d.toNat * 1048576 + a.toNat * 16384)]
  | .dpop d a => [word (0x70000003 + d.toNat * 1048576 + a.toNat * 16384)]
  | .dsteal d a b => [word (0x70000004 + d.toNat * 1048576 + a.toNat * 16384 + b.toNat * 256)]
  | .hbind d a b => [word (0x70000005 + d.toNat * 1048576 + a.toNat * 16384 + b.toNat * 256)]
  | .hhold d a => [word (0x70000006 + d.toNat * 1048576 + a.toNat * 16384)]
  | .hrel d a => [word (0x70000007 + d.toNat * 1048576 + a.toNat * 16384)]
  | .launch d a b => [word (0x70000008 + d.toNat * 1048576 + a.toNat * 16384 + b.toNat * 256)]
  | .tid d a => [word (0x70000009 + d.toNat * 1048576 + a.toNat * 16384)]
  | .migrate a => [word (0x7000000A + a.toNat * 16384)]
  | .rcmask d a => [word (0x7000000B + d.toNat * 1048576 + a.toNat * 16384)]
  | .put p b => [word (0x74000000 + p.toNat * 16384 + b.toNat * 256)]
  | .get d p b => [word (0x74000001 + d.toNat * 1048576 + p.toNat * 16384 + b.toNat * 256)]
  | .offer p b => [word (0x74000002 + p.toNat * 16384 + b.toNat * 256)]
  | .alt d a b => [word (0x74000003 + d.toNat * 1048576 + a.toNat * 16384 + b.toNat * 256)]
  | .poll d p => [word (0x74000004 + d.toNat * 1048576 + p.toNat * 16384)]
  | .pwd d p => [word (0x74000005 + d.toNat * 1048576 + p.toNat * 16384)]
  | .cload d a => [word (0x74000006 + d.toNat * 1048576 + a.toNat * 16384)]
  | .cunload d a => [word (0x74000007 + d.toNat * 1048576 + a.toNat * 16384)]
  | .cbind d p b => [word (0x74000008 + d.toNat * 1048576 + p.toNat * 16384 + b.toNat * 256)]
  | .pstat d p => [word (0x74000009 + d.toNat * 1048576 + p.toNat * 16384)]
  | .cpy d a b => [word (0x78000000 + d.toNat * 1048576 + a.toNat * 16384 + b.toNat * 256)]
  | .cpyM d a b => [word (0x78000001 + d.toNat * 1048576 + a.toNat * 16384 + b.toNat * 256)]
  | .cmcast d a b => [word (0x78000002 + d.toNat * 1048576 + a.toNat * 16384 + b.toNat * 256)]
  | .cseal d => [word (0x78000003 + d.toNat * 1048576)]
  | .cwait d a => [word (0x78000004 + d.toNat * 1048576 + a.toNat * 16384)]
  | .wmk d a => [word (0x78000005 + d.toNat * 1048576 + a.toNat * 16384)]
  | .cresume a => [word (0x78000006 + a.toNat * 16384)]
  | .cabort a => [word (0x78000007 + a.toNat * 16384)]
  | .streamOn a b => [word (0x78000008 + a.toNat * 16384 + b.toNat * 256)]
  | .streamOff d => [word (0x78000009 + d.toNat * 1048576)]
  | .rbind d a => [word (0x7C000000 + d.toNat * 1048576 + a.toNat * 16384)]
  | .fold d x s b => [word (0x7C000001 + d.toNat * 1048576 + x.toNat * 262144 + s.toNat * 16384 + b.toNat * 256)]
  | .scan d x e s b => [word (0x7C000002 + d.toNat * 1048576 + x.toNat * 262144 + e.toNat * 65536 + s.toNat * 16384 + b.toNat * 256)]
  | .zip e s b => [word (0x7C000003 + e.toNat * 65536 + s.toNat * 16384 + b.toNat * 256)]
  | .outer t a b => [word (0x7C000004 + t.toNat * 1048576 + a.toNat * 16384 + b.toNat * 256)]
  | .hstat d a => [word (0x7C000005 + d.toNat * 1048576 + a.toNat * 16384)]
  | .vadd d a b k f => [word (0x80000000 + d.toNat * 2097152 + a.toNat * 65536 + b.toNat * 2048 + k.toNat * 256 + f.toNat * 8)]
  | .vsub d a b k f => [word (0x80000001 + d.toNat * 2097152 + a.toNat * 65536 + b.toNat * 2048 + k.toNat * 256 + f.toNat * 8)]
  | .vmul d a b k f => [word (0x80000002 + d.toNat * 2097152 + a.toNat * 65536 + b.toNat * 2048 + k.toNat * 256 + f.toNat * 8)]
  | .vfma d a b k f => [word (0x80000003 + d.toNat * 2097152 + a.toNat * 65536 + b.toNat * 2048 + k.toNat * 256 + f.toNat * 8)]
  | .vfms d a b k f => [word (0x80000004 + d.toNat * 2097152 + a.toNat * 65536 + b.toNat * 2048 + k.toNat * 256 + f.toNat * 8)]
  | .vfnma d a b k f => [word (0x80000005 + d.toNat * 2097152 + a.toNat * 65536 + b.toNat * 2048 + k.toNat * 256 + f.toNat * 8)]
  | .vmin d a b k f => [word (0x80000006 + d.toNat * 2097152 + a.toNat * 65536 + b.toNat * 2048 + k.toNat * 256 + f.toNat * 8)]
  | .vmax d a b k f => [word (0x80000007 + d.toNat * 2097152 + a.toNat * 65536 + b.toNat * 2048 + k.toNat * 256 + f.toNat * 8)]
  | .vabs d a k f => [word (0x84000000 + d.toNat * 2097152 + a.toNat * 65536 + k.toNat * 256 + f.toNat * 8)]
  | .vneg d a k f => [word (0x84000001 + d.toNat * 2097152 + a.toNat * 65536 + k.toNat * 256 + f.toNat * 8)]
  | .vrcp d a k f => [word (0x84000002 + d.toNat * 2097152 + a.toNat * 65536 + k.toNat * 256 + f.toNat * 8)]
  | .vrsqrt d a k f => [word (0x84000003 + d.toNat * 2097152 + a.toNat * 65536 + k.toNat * 256 + f.toNat * 8)]
  | .vexp2 d a k f => [word (0x84000004 + d.toNat * 2097152 + a.toNat * 65536 + k.toNat * 256 + f.toNat * 8)]
  | .vlog2 d a k f => [word (0x84000005 + d.toNat * 2097152 + a.toNat * 65536 + k.toNat * 256 + f.toNat * 8)]
  | .vmov d a k f => [word (0x84000006 + d.toNat * 2097152 + a.toNat * 65536 + k.toNat * 256 + f.toNat * 8)]
  | .vnot d a k f => [word (0x84000007 + d.toNat * 2097152 + a.toNat * 65536 + k.toNat * 256 + f.toNat * 8)]
  | .vand d a b k => [word (0x88000000 + d.toNat * 2097152 + a.toNat * 65536 + b.toNat * 2048 + k.toNat * 256)]
  | .vor d a b k => [word (0x88000001 + d.toNat * 2097152 + a.toNat * 65536 + b.toNat * 2048 + k.toNat * 256)]
  | .vxor d a b k => [word (0x88000002 + d.toNat * 2097152 + a.toNat * 65536 + b.toNat * 2048 + k.toNat * 256)]
  | .vshl d a b k f => [word (0x88000003 + d.toNat * 2097152 + a.toNat * 65536 + b.toNat * 2048 + k.toNat * 256 + f.toNat * 8)]
  | .vshr d a b k f => [word (0x88000004 + d.toNat * 2097152 + a.toNat * 65536 + b.toNat * 2048 + k.toNat * 256 + f.toNat * 8)]
  | .vsar d a b k f => [word (0x88000005 + d.toNat * 2097152 + a.toNat * 65536 + b.toNat * 2048 + k.toNat * 256 + f.toNat * 8)]
  | .vsel d a b k => [word (0x88000006 + d.toNat * 2097152 + a.toNat * 65536 + b.toNat * 2048 + k.toNat * 256)]
  | .vbscale d a b k f => [word (0x88000007 + d.toNat * 2097152 + a.toNat * 65536 + b.toNat * 2048 + k.toNat * 256 + f.toNat * 8)]
  | .vcmp kd a b k f cc => [word (0x8C000000 + kd.toNat * 2097152 + a.toNat * 65536 + b.toNat * 2048 + k.toNat * 256 + f.toNat * 8 + cc.toNat)]
  | .vcvt d a src k f => [word (0x90000000 + d.toNat * 2097152 + a.toNat * 65536 + src.toNat * 2048 + k.toNat * 256 + f.toNat * 8)]
  | .vcvtSat d a src k f => [word (0x90000001 + d.toNat * 2097152 + a.toNat * 65536 + src.toNat * 2048 + k.toNat * 256 + f.toNat * 8)]
  | .vcvtSr d a src k f => [word (0x90000002 + d.toNat * 2097152 + a.toNat * 65536 + src.toNat * 2048 + k.toNat * 256 + f.toNat * 8)]
  | .vpack d a j k f => [word (0x90000003 + d.toNat * 2097152 + a.toNat * 65536 + j.toNat * 2048 + k.toNat * 256 + f.toNat * 8)]
  | .vunpack d a j k f => [word (0x90000004 + d.toNat * 2097152 + a.toNat * 65536 + j.toNat * 2048 + k.toNat * 256 + f.toNat * 8)]
  | .vdecode d a j k f => [word (0x90000005 + d.toNat * 2097152 + a.toNat * 65536 + j.toNat * 2048 + k.toNat * 256 + f.toNat * 8)]
  | .vins d a b f => [word (0x90000006 + d.toNat * 2097152 + a.toNat * 65536 + b.toNat * 2048 + f.toNat * 8)]
  | .vext d a b f => [word (0x90000007 + d.toNat * 2097152 + a.toNat * 65536 + b.toNat * 2048 + f.toNat * 8)]
  | .vredAdd d a k f => [word (0x94000000 + d.toNat * 2097152 + a.toNat * 65536 + k.toNat * 256 + f.toNat * 8)]
  | .vredMax d a k f => [word (0x94000001 + d.toNat * 2097152 + a.toNat * 65536 + k.toNat * 256 + f.toNat * 8)]
  | .vredMin d a k f => [word (0x94000002 + d.toNat * 2097152 + a.toNat * 65536 + k.toNat * 256 + f.toNat * 8)]
  | .vperm d a b k => [word (0x94000003 + d.toNat * 2097152 + a.toNat * 65536 + b.toNat * 2048 + k.toNat * 256)]
  | .vbcast d a k f => [word (0x94000004 + d.toNat * 2097152 + a.toNat * 65536 + k.toNat * 256 + f.toNat * 8)]
  | .vslide d a b k => [word (0x94000005 + d.toNat * 2097152 + a.toNat * 65536 + b.toNat * 2048 + k.toNat * 256)]
  | .vcompact d a k => [word (0x94000006 + d.toNat * 2097152 + a.toNat * 65536 + k.toNat * 256)]
  | .vexpand d a k => [word (0x94000007 + d.toNat * 2097152 + a.toNat * 65536 + k.toNat * 256)]
  | .vpopk d ka => [word (0x98000000 + d.toNat * 2097152 + ka.toNat * 65536)]
  | .kand kd ka kb => [word (0x98000001 + kd.toNat * 2097152 + ka.toNat * 65536 + kb.toNat * 2048)]
  | .kor kd ka kb => [word (0x98000002 + kd.toNat * 2097152 + ka.toNat * 65536 + kb.toNat * 2048)]
  | .kxor kd ka kb => [word (0x98000003 + kd.toNat * 2097152 + ka.toNat * 65536 + kb.toNat * 2048)]
  | .knot kd ka => [word (0x98000004 + kd.toNat * 2097152 + ka.toNat * 65536)]
  | .kmov kd ka => [word (0x98000005 + kd.toNat * 2097152 + ka.toNat * 65536)]
  | .vldl d a sp k x => [word (0x9C000000 + d.toNat * 2097152 + a.toNat * 32768 + sp.toNat * 8192 + k.toNat * 1024 + x.toNat)]
  | .vstl d a sp k x => [word (0x9C000010 + d.toNat * 2097152 + a.toNat * 32768 + sp.toNat * 8192 + k.toNat * 1024 + x.toNat)]
  | .vld d a sp k f x => [word (0xA0000000 + d.toNat * 2097152 + a.toNat * 32768 + sp.toNat * 8192 + k.toNat * 1024 + f.toNat * 32 + x.toNat)]
  | .vst d a sp k f x => [word (0xA4000000 + d.toNat * 2097152 + a.toNat * 32768 + sp.toNat * 8192 + k.toNat * 1024 + f.toNat * 32 + x.toNat)]
  | .vgather d a sp k f x => [word (0xA8000000 + d.toNat * 2097152 + a.toNat * 32768 + sp.toNat * 8192 + k.toNat * 1024 + f.toNat * 32 + x.toNat)]
  | .vscatter d a sp k f x => [word (0xAC000000 + d.toNat * 2097152 + a.toNat * 32768 + sp.toNat * 8192 + k.toNat * 1024 + f.toNat * 32 + x.toNat)]
  | .mma t fa fb a => [word (0xB0000000 + t.toNat * 16777216 + fa.toNat * 524288 + fb.toNat * 16384 + a.toNat * 256)]
  | .mcfg d a b => [word (0xB4000000 + d.toNat * 1048576 + a.toNat * 16384 + b.toNat * 256)]
  | .mzero k t => [word (0xB4000001 + k.toNat * 16777216 + t.toNat * 1048576)]
  | .mloadA k t a => [word (0xB4000002 + k.toNat * 16777216 + t.toNat * 1048576 + a.toNat * 16384)]
  | .mlatchB a => [word (0xB4000003 + a.toNat * 16384)]
  | .mrot => [word (0xB4000004)]
  | .mring a b => [word (0xB4000005 + a.toNat * 16384 + b.toNat * 256)]
  | .msum t a => [word (0xB4000006 + t.toNat * 1048576 + a.toNat * 16384)]
  | .mscale t a b => [word (0xB4000007 + t.toNat * 1048576 + a.toNat * 16384 + b.toNat * 256)]
  | .mdrain t a b => [word (0xB4000008 + t.toNat * 1048576 + a.toNat * 16384 + b.toNat * 256)]
  | .mstat d => [word (0xB4000009 + d.toNat * 1048576)]
  | .mmaF64 t a => [word (0xC0084000 + t.toNat * 16777216 + a.toNat * 256)]
  | .vdiv d a b k f => [word (0xC4000000 + d.toNat * 2097152 + a.toNat * 65536 + b.toNat * 2048 + k.toNat * 256 + f.toNat * 8)]
  | .vsqrt d a k f => [word (0xC4000001 + d.toNat * 2097152 + a.toNat * 65536 + k.toNat * 256 + f.toNat * 8)]
  | .vexp d a k f => [word (0xC4000002 + d.toNat * 2097152 + a.toNat * 65536 + k.toNat * 256 + f.toNat * 8)]
  | .vlog d a k f => [word (0xC4000003 + d.toNat * 2097152 + a.toNat * 65536 + k.toNat * 256 + f.toNat * 8)]
  | .glaunch a b => [word (0xF8000000 + a.toNat * 16384 + b.toNat * 256)]
  | .gres a => [word (0xF8000001 + a.toNat * 16384)]
  | .evcfg d a b => [word (0xF8000002 + d.toNat * 1048576 + a.toNat * 16384 + b.toNat * 256)]
  | .evsig a b => [word (0xF8000003 + a.toNat * 16384 + b.toNat * 256)]
  | .addiPrefixed d a imm => [pfx 0 (imm.toNat / 16384), word (0x20000000 + d.toNat * 1048576 + a.toNat * 16384 + imm.toNat % 16384)]
  | .ldiPrefixed d imm => [pfx 0 (imm.toNat / 1048576), word (0x28000000 + d.toNat * 1048576 + imm.toNat % 1048576)]
  | .ldPrefixed d a sp sz s off ext => [pfx 0 ext.toNat, word (0x58000000 + d.toNat * 1048576 + a.toNat * 16384 + sp.toNat * 4096 + sz.toNat * 1024 + s.toNat * 512 + off.toNat)]
  | .stPrefixed d a sp sz off ext => [pfx 0 ext.toNat, word (0x5C000000 + d.toNat * 1048576 + a.toNat * 16384 + sp.toNat * 4096 + sz.toNat * 1024 + off.toNat)]
  | .amoPrefixed op d a b z p c scope aq rl => [pfx c.toNat (scope.toNat + aq.toNat * 8 + rl.toNat * 16), word (0x60000000 + d.toNat * 1048576 + a.toNat * 16384 + b.toNat * 256 + op.toNat * 16 + z.toNat * 8 + p.toNat * 2)]
  | .vldlPrefixed d a sp k x c ext => [pfx c.toNat ext.toNat, word (0x9C000000 + d.toNat * 2097152 + a.toNat * 32768 + sp.toNat * 8192 + k.toNat * 1024 + x.toNat)]
  | .vstlPrefixed d a sp k x c ext => [pfx c.toNat ext.toNat, word (0x9C000010 + d.toNat * 2097152 + a.toNat * 32768 + sp.toNat * 8192 + k.toNat * 1024 + x.toNat)]
  | .vldPrefixed d a sp k f x c ext => [pfx c.toNat ext.toNat, word (0xA0000000 + d.toNat * 2097152 + a.toNat * 32768 + sp.toNat * 8192 + k.toNat * 1024 + f.toNat * 32 + x.toNat)]
  | .vstPrefixed d a sp k f x c ext => [pfx c.toNat ext.toNat, word (0xA4000000 + d.toNat * 2097152 + a.toNat * 32768 + sp.toNat * 8192 + k.toNat * 1024 + f.toNat * 32 + x.toNat)]
  | .vgatherPrefixed d a sp k f x c => [pfx c.toNat 0, word (0xA8000000 + d.toNat * 2097152 + a.toNat * 32768 + sp.toNat * 8192 + k.toNat * 1024 + f.toNat * 32 + x.toNat)]
  | .vscatterPrefixed d a sp k f x c => [pfx c.toNat 0, word (0xAC000000 + d.toNat * 2097152 + a.toNat * 32768 + sp.toNat * 8192 + k.toNat * 1024 + f.toNat * 32 + x.toNat)]
  | .migration _ => []
  | .migrationAdmit _ _ _ => []
  | .migrationContextLoaded _ => []
  | .dispatch _ _ _ => []
  | .contextLoaded _ => []
  | .retiredToFree _ => []
  | .kill _ => []
  | .pageResident _ _ => []
  | .pageDeclaredInvalid _ _ => []
  | .coreError _ => []
  | .engineInterrupt _ => []
  | .sysRelease _ _ _ => []
  | .debuggerStop _ => []
  | .debuggerResume _ => []
  | .holdRequest _ => []
  | .joinReread _ => []
  | .waitvReread _ => []
  | .idleDeadline _ => []
  | .flagTreeUpdate _ => []
  | .drain _ _ => []
  | .arrive _ => []
  | .atomicAtHome _ => []
  | .settle _ => []
  | .cacheCopyDrop _ _ => []
  | .messageRingArrival _ => []
  | .ringWaitExpiry _ => []
  | .negativeAcknowledgement _ => []
  | .mailboxMessage _ => []
  | .globalQueueRecord _ => []
  | .stealAttempt _ => []
  | .stealOperation _ => []
  | .stealReply _ _ _ => []
  | .teamAdmission _ _ _ => []
  | .timeSliceExpiry _ _ => []
  | .preemptionRequest _ _ _ => []
  | .halt _ => []
  | .swapSave _ => []
  | .restore _ _ _ => []
  | .matrixCommandComplete _ => []
  | .matrixGate _ => []
  | .latchStream _ => []
  | .latchFlip _ => []
  | .engineRelease _ => []
  | .mdrainWakeup _ => []
  | .routineCommandComplete _ => []
  | .copyGate _ _ => []
  | .unitLand _ _ => []
  | .copyComplete _ _ => []
  | .copyFreeze _ _ => []
  | .freezeServedByTardar _ _ => []
  | .copyAbortComplete _ _ => []
  | .inboundEntryGrant _ => []
  | .stripFill _ _ => []
  | .multicastAcknowledgement _ _ _ => []
  | .multicastRequest _ _ => []
  | .guardPairDispatch _ _ _ _ _ => []
  | .termFire _ _ => []
  | .softwareLinePulse _ => []
  | .offerArrival _ _ => []
  | .fire _ _ => []
  | .fireArrival _ _ => []
  | .withdraw _ _ => []
  | .withdrawReply _ _ => []
  | .bindingRequest _ _ => []
  | .bindingReply _ _ => []
  | .barrierRelease _ _ _ => []
  | .sectorFill _ _ _ => []
  | .eviction _ _ => []
  | .sliceTranslation _ _ _ => []
  | .attributeQuery _ _ _ => []
  | .pendScan _ => []
  | .replication _ _ => []
  | .withdrawAck _ _ _ => []
  | .hostWindowWrite _ _ _ _ => []
  | .hostWindowRead _ _ _ _ => []
  | .wbase _ _ _ => []
  | .coldStart => []
  | .warmStart => []
  | .stageComplete => []
  | .stageFailure _ => []
  | .stageTimeout => []
  | .getMeasurements => []
  | .correctableError _ _ => []
  | .coolantOutOfLimits => []
  | .coolantWithinLimits => []
  | .collectiveRequestTaken _ => []
  | .reservationGrant _ => []
  | .chunkWritten _ _ _ => []
  | .finalAck _ _ => []
  | .chunkFailure _ _ => []
  | .chunkNoProgress _ _ => []
  | .memberLost _ => []
  | .collectiveEnd _ _ => []
  | .linkFailure _ => []
  | .noPath _ => []
  | .rootSwitchOrder _ => []
  | .switchCombine _ _ => []
  | .moveRequest _ _ _ _ => []
  | .skewMeasurement _ _ _ _ _ _ => []
  | .lamportDelivery _ _ => []
  | .traceRecord _ _ => []
  | .jobStart _ => []
  | .jobEnd _ => []
  | .tracectlWrite _ _ _ => []
  | .debuggerAttach _ _ _ _ _ => []

/-- The bytes of an instruction as memory holds them (R59). -/
def encodeBytes (i : Instr) : List Byte := (encode i).flatMap wordBytes

/-- The bytes of an instruction of `nbits` bits given as one number, bit 0 the least significant bit of the first word; bits
above `nbits` are zero, up to the longest instruction (two words). -/
def tableBytes (nbits w : Nat) : List Byte :=
  let v := w % 2 ^ nbits
  wordBytes (word (v % 4294967296)) ++ wordBytes (word (v / 4294967296))

/-- The instruction this decoder reads from an instruction whose bits are `w`, numbered as the opcode table numbers them. -/
def decodeTableWord (nbits w : Nat) : Option Instr :=
  match decodeBytes (tableBytes nbits w) with
  | .ok (i, _) => some i
  | .error _ => none

end Sys2Proof
end

