-- ==== Sys2Proof/Machine/State.lean ====
section
/-! DEFINITION. The whole machine as plain data: tasks, cores, quads, dies, the package, the memory machine of R275, and the
environment's next moves. `State.reset` has every field at its Reset value (R8), before Tardar starts a job. -/

namespace Sys2Proof.Machine

/-- Why the machine stops: nothing does, every error of the spec has an effect of its own. -/
inductive Fault where
  deriving DecidableEq, Repr

/-- Why a step has no meaning. -/
inductive Refusal where
  /-- Raised by an arm of `exec` whose instruction has no meaning in this model yet. Safe. -/
  | notModelled (mnemonic : String)
  deriving DecidableEq, Repr

/-- A finite table from numbers to entries; an unlisted number has the default of the reader. -/
abbrev Tbl (α : Type) := List (Nat × α)

/-- A memory: (address, byte) pairs with strictly rising addresses and no zero byte, an unlisted byte reading 0 (DESIGN CHOICE, log 4); and the
64-byte sectors that are poisoned; `badCheck` lists each sector whose carried check is not the CRC-16 of its bytes, with the difference
of the two (R331). -/
structure Memory where
  cells : List Host.Cell
  poison : List Nat
  badCheck : Tbl (BitVec 16)
  deriving DecidableEq, Repr

/-- A location's place: a global byte of an address space (0 for class 3, R319), or a byte of a core's banks (R115, R275). -/
inductive Loc where
  | glob (asid va : Nat)
  | bank (core off : Nat)
  deriving DecidableEq, Repr

/-- A party of the ordering machine (R275, R277): tasks by TASKID, and the engines and service cores by their place. -/
inductive Party where
  | task (tid : Word) (core : Nat)
  | matrix (core : Nat)
  | copy (core : Nat)
  | collective (die hand : Nat)
  | service (n : Nat)
  | transom (quad : Nat)
  | curator (die : Nat)
  | remote (pkg : Nat)
  deriving DecidableEq, Repr

/-- A release snapshot with its scope code (R275, R278). -/
structure Release where
  scope : Nat
  snap : List Nat
  writer : Party
  deriving DecidableEq, Repr

/-- A write of the ordering machine: issued, in flight or arrived (R275, R276). `op` makes it a `red.*` performed at its home
(R125); `rel` is its carried release, with those an atomic joins to it; `mask` limits it to some bits of its bytes (R159), empty for all; `old` are the home's bytes it replaced; `sent` numbers its entry into
the network; `cover` marks the last word of a write that covers its sector whole, `bad` data whose carried check fails or that is poisoned
(R331, R333). -/
structure Write where
  id : Nat
  party : Party
  loc : Loc
  bytes : List Byte
  mask : List Byte
  op : Option (BitVec 4)
  phase : BitVec 2
  view : List Nat
  rel : List Release
  cls : Nat
  xy : Bool
  old : List Byte
  preds : List Nat
  sent : Nat
  arrivedAt : Nat
  settled : Bool
  cover : Bool
  bad : Bool
  deriving DecidableEq, Repr

/-- What a task knows and has issued (R275, R278, R279). -/
structure View where
  known : List Nat
  readSince : List Nat
  rel : Option Release
  issued : List Nat
  arrived : List Nat
  relStarted : Bool
  deriving DecidableEq, Repr

/-- Rounding as it stood when an instruction issued (R47, R55). -/
structure Rnd where
  mode : BitVec 3
  seed : Word
  lcn : BitVec 16
  pos : BitVec 52
  deriving DecidableEq, Repr

/-- Why a task waits (R23). -/
inductive WaitReason where
  | port | ring | watermark | join | value | event | time
  deriving DecidableEq, Repr

/-- The state of a task's life (R23), with what a Held or Swapped task returns to, and for a Parked one the access that found no page,
with TRAPINFO where a rule gives it (R106, R158). -/
inductive Life where
  | free
  | ready
  | running
  | waiting (w : WaitReason)
  | held (w : Option WaitReason)
  | parked (asid va : Nat) (kind : Nat) (info : Option Word)
  | retired
  | swapped (w : Option WaitReason)
  deriving DecidableEq, Repr

/-- A captured repeat frame (R76-R78): each window instruction with its address and length, the count and the position. -/
structure Frame where
  window : List (Instr × Word × Nat)
  n : Nat
  i : Nat
  j : Nat
  sd : Nat
  sa : Nat
  sb : Nat
  deriving DecidableEq, Repr

/-- A ring handle: the core and the entry it names (R135). -/
structure RingRef where
  core : Nat
  entry : Nat
  deriving DecidableEq, Repr

/-- A datum of a port (R234, R246): its bytes, and whether the check they carry fails or they are poisoned (R331, R333). -/
structure Datum where
  bytes : List Byte
  bad : Bool
  deriving DecidableEq, Repr

/-- A bound port handle (R246, R252): `offered` is an outstanding offer with its landing offset and its datum, `block` and `alt`
say which instruction made it, `done` a completion not yet consumed with the releases it acquires, `again` an offer to be made
again and `landing` a sink datum to land on restore, `alt` the mark of the alt group it belongs to, `asked` whether a WITHDRAW for it is
under way, `owed` the FIRED replies still to come for offers that have fired (R254), `issuedAt` the PC of the instruction that made the
offer (R213), `dlv` the datum of a delivery handle (R244) with the scope and the releases its `get` acquires (R253). -/
structure PortRef where
  name : Word
  sink : Bool
  dsz : Nat
  offered : Option (Nat × Datum)
  block : Bool
  alt : Option Word
  done : Option (List Nat)
  again : Option (Nat × Datum)
  landing : Option (Nat × Datum)
  asked : Bool
  owed : Nat
  issuedAt : Word
  dlv : Option (Datum × Nat × List Nat)
  deriving DecidableEq, Repr

/-- What a task in Waiting (port) waits for (R247, R249, R251): a FIRE on one of the handles of an offering instruction, the reply to
`pwd`, to the withdrawal or to the binding request of `cbind`, or to `cunload`; `replied` is a wait that is over, whose instruction
completes with a value once the task is Running or Waiting again (R23, R24). -/
inductive PortWait where
  | fire (d : Gpr) (hs : List Nat)
  | pwd (d : Gpr) (h : Nat)
  | unbind (d : Gpr) (h : Nat) (name : Word)
  | bind (d : Gpr) (h : Nat)
  | unload (d : Gpr)
  | replied (d : Gpr) (v : Word)
  deriving DecidableEq, Repr

/-- What a trigger was started by (R20, R288). -/
inductive Source where
  | message | record | spawned | queue | port | team | guard | requeue
  deriving DecidableEq, Repr

/-- A task's place in a guard (R224). -/
inductive Role where
  | surrogate | check | exact
  deriving DecidableEq, Repr

/-- A waiting trigger (R20, R22, R287): its eight doublewords, and what the start adds to them. `parked` is the unbound handler
table entry it waits for (R298), `page` the absent page (R22, R106), `avoid` the core it failed on (R107); breakpoints and watchpoints
travel with it (R114). -/
structure Trigger where
  dwords : List Word
  src : Source
  job : Nat
  tid : Word
  lcn : Option (BitVec 16)
  stamp : Word
  port : Option (Word × Datum)
  cls : Option (BitVec 2)
  team : Option (Nat × Nat × Nat)
  guard : Option (Nat × Nat × Nat × Role)
  gtol : BitVec 32
  counter : Option Word
  rel : Option Release
  parked : Option Nat
  page : Option (Nat × Nat)
  avoid : Option Nat
  brk : List Word
  watch : List (Nat × Nat × Nat)
  deriving DecidableEq, Repr

/-- A copy's or stream's descriptor (R202): RUN, CVT, and the outer dimensions as (extent, source stride, destination stride). -/
structure Pattern where
  run : Nat
  cvt : Nat
  dims : List (Nat × Int × Int)
  deriving DecidableEq, Repr

/-- A multicast's receivers (R217): OWN, OSTR, and for each receiver its core and the landed bytes it has acknowledged. -/
structure Multicast where
  own : Bool
  ostr : Int
  cores : List Nat
  acked : List Nat
  deriving DecidableEq, Repr

/-- A copy or a stream in a slot of a copy engine (R205, R211-R219). `src` and `dst` are 56-bit addresses, `sfmt` and `dfmt` the
formats of both sides with their block-length logs, `conv` is set where elements are converted; `ssp`, `dsp`, `scoord` and `dcoord`
name the spaces and cores, a near space of the copy's own core being local. `landed` counts destination bytes in the order of R205, or
the strips of a stream, `ahead` are the units that landed before an earlier one that waits (R210). `cache` is the last destination element or block encoded; `frozen` holds KIND and the faulting address;
`gated` and `requested` hold a copy back (R230, R271); `order` is its place among the copies accepted (R210); `mword` is the matrix
command that follows it, with its register value and its owner (R218). -/
structure Copy where
  ident : Word
  tid : Word
  job : Nat
  asid : Nat
  src : Nat
  dst : Nat
  sfmt : Nat × Nat
  dfmt : Nat × Nat
  conv : Bool
  ssp : Nat
  dsp : Nat
  scoord : Nat
  dcoord : Nat
  pat : Pattern
  rnd : Rnd
  flags : BitVec 7
  dlo : Nat
  dhi : Nat
  ordered : Bool
  landed : Nat
  ahead : List (Nat × Nat)
  cache : Option (Nat × Nat)
  frozen : Option (Nat × Nat)
  aborting : Bool
  gated : Bool
  requested : Bool
  order : Nat
  mword : Option (Instr × Word × (Bool × Nat))
  multi : Option Multicast
  ring : Option RingRef
  stream : Option Fmt
  batch : Nat
  deriving DecidableEq, Repr

/-- An operation held in a shadow buffer (R111): a store or `red.*`, a fork with ORD as it was at its issue (R264), a copy, or a release
marker (R284). -/
inductive Held where
  | write (w : Write)
  | fork (t : Trigger) (counter : Option Word) (spawn : Bool) (ord : BitVec 8)
  | copy (c : Copy)
  | release (scope : Nat)
  deriving DecidableEq, Repr

/-- A stream as its task sees it (R219, R220): its slot, its strips not yet read, pops, whether the last element was filled, whether it
was aborted, and what a halt saved of its copy until a slot is granted. -/
structure StreamRef where
  slot : Nat
  fmt : Fmt
  strips : List (BitVec 8192)
  popped : Nat
  ended : Bool
  stopped : Bool
  saved : Option Copy
  deriving DecidableEq, Repr

/-- An ENGINE interrupt waiting for its boundary (R212, R213): SUB, TRAPVAL, TRAPINFO. -/
structure EngineIrq where
  sub : Nat
  val : Word
  info : Word
  deriving DecidableEq, Repr

/-- A migration under way (R258): the core it goes to and, once admitted, its slot there; `order` is its arrival. -/
structure Moving where
  dest : Nat
  slot : Option Nat
  order : Nat
  deriving DecidableEq, Repr

/-- A victim's halt (R292, R303): for a time slice or for a request of a class; `halted` once it is at its boundary. -/
structure Halting where
  slice : Bool
  cls : Nat
  halted : Bool
  deriving DecidableEq, Repr

/-- What a task that stalls at issue waits for, oldest first: a copy slot (R211), the routine unit of the copy engine or that of the matrix
engine (R198). -/
inductive Busy where
  | copySlot
  | routineUnit
  | outerUnit
  deriving DecidableEq, Repr

/-- A barrier in which a task has arrived (R286): its scope and instance, the address and the level (NEST) of its `bar`, and, once the
generation is complete, the releases of its participants. -/
structure BarWait where
  scope : Nat
  inst : Nat
  pc : Word
  nest : Bool
  passed : Option (List Nat)
  deriving DecidableEq, Repr

/-- A task's context in its slot (R13, R15, R23, R78, R104, R111, R114, R213, R215, R264, R275, R300). `skipStop` says which stop of the
instruction at hand has been reported, a breakpoint (bit 0) or a watchpoint (bit 1); `pendingTrap` is a recorded trap that is not yet
delivered (R113), with its PC, cause, SUB, TRAPVAL and TRAPINFO; `bars` the barriers it has arrived at and not left, one for each level of
its `bar` (R213, R286); `yielded` the cycle of a `yield` and the tasks that issue before this one (R100); `stalled` the number at which the task began to
wait for a unit (R198, R211); `mail` are the releases of its completed copies, by batch (R215,
R282), `snapDue` whether its input snapshot is still to be written to memory (R107), `theft` what a `dsteal` has read of its victim's deque: the victim, HEAD and the record (R293, R295). -/
structure Task where
  pc : Word
  g : Vector Word 64
  k : Vector (BitVec 256) 8
  v : Vector (BitVec 8192) 32
  q : Vector (Option RingRef) 16
  p : Vector (Option PortRef) 16
  leaseBase : Nat
  leaseCls : BitVec 2
  tid : Word
  lcn : BitVec 16
  seed : Word
  round : BitVec 3
  fflags : BitVec 7
  ftrapen : BitVec 7
  gtol : BitVec 32
  cls : BitVec 2
  phase : BitVec 2
  trapPc : Word
  trapCause : Word
  trapVal : Word
  trapInfo : Word
  pos : BitVec 52
  ord : BitVec 8
  job : Nat
  life : Life
  holdReq : Bool
  holdDbg : Bool
  holdSys : Bool
  frame : Option Frame
  frameAside : Option Frame
  restartable : Bool
  committed : Bool
  shadowKiB : Nat
  shadow : List Held
  shadowUsed : Nat
  snapshot : Option Trigger
  snapDue : Bool
  joinAddr : Option Word
  how : Nat
  brk : List Word
  watch : List (Nat × Nat × Nat)
  skipStop : BitVec 2
  pendingTrap : Option (Word × Nat × Nat × Word × Word)
  irqs : List EngineIrq
  batchOpen : Nat
  batchSeq : Nat
  batches : List (Nat × Nat)
  aborted : Nat
  mail : List (Nat × Release)
  stream : Option StreamRef
  sb : List Write
  view : View
  bars : List BarWait
  yielded : Option (Nat × List Nat)
  stalled : Option (Busy × Nat)
  theft : Option (Nat × Word × Trigger)
  nacks : Nat
  team : Option (Nat × Nat × Nat)
  enq : Word
  disp : Word
  guard : Option (Nat × Nat × Nat × Role)
  residual : Option (BitVec 32)
  engaged : Bool
  portWait : Option PortWait
  moving : Option Moving
  halt : Option Halting
  reply : Option (Option Nat)
  deriving DecidableEq, Repr

/-- A configured ring entry (R128): `marks` are the side-band records of a message ring, each a start count, a length and
whether it is a pad; `held` are the messages held in the network with their arrival cycle (R133), `rel` the releases that TAIL carries
(R280). -/
structure Ring where
  base : Nat
  cap : Nat
  slog : Nat
  msg : Bool
  head : BitVec 32
  tail : BitVec 32
  nacks : Nat
  handles : Nat
  marks : List (BitVec 32 × Nat × Bool)
  held : List (Nat × Nat)
  rel : List Release
  deriving DecidableEq, Repr

/-- An accumulator tile (R165): its KIND and its 16 KiB image. -/
structure Tile where
  kind : BitVec 2
  data : BitVec 131072
  deriving DecidableEq, Repr

/-- One bank of the operand latch (R165, R171): `full` until it is passed on, VALID, its format and K, and each column's bytes as a
number. -/
structure Latch where
  valid : Bool
  full : Bool
  fmt : Fmt
  k : Nat
  blog : Nat
  cols : List Nat
  deriving DecidableEq, Repr

/-- A routine image (R186) as its bytes at bind time, by address. -/
structure Routine where
  addr : Nat
  assoc : Bool
  comm : Bool
  w : Bool
  ty : BitVec 2
  idlo : Half32
  idhi : Half32
  init : List Half32
  words : List Half32
  deriving DecidableEq, Repr

/-- The engine state left by every accepted command (R167), against which issue checks. -/
structure Submitted where
  k : Nat
  acc : Bool
  astr : Nat
  bstr : Nat
  lvalid : Bool
  lfmt : Fmt
  lk : Nat
  lblog : Nat
  kinds : List (BitVec 2)
  ring : Bool
  deriving DecidableEq, Repr

/-- A command of the matrix engine with the operands read at issue (R167, R172, R176, R179, R197): the A register, the scale lanes,
the rounding, the submitted configuration and latch, the drain's target, handler and argument or the ring's predecessor. `token` is
set once the matrix gate is passed (R230), `failed` for a command of a copy that is not performed (R218), `sent` are the near
stores of a remote drain, `askew` whether its place is misaligned, `dropped` whether a store was refused (R179, R181). -/
structure MCmd where
  instr : Instr
  a : Word
  rows : List Byte
  cols : List Byte
  rnd : Rnd
  tid : Word
  ord : BitVec 8
  phase : BitVec 2
  sub : Submitted
  clrf : Bool
  routine : Option Routine
  target : Option (Nat × Word × Word)
  known : List Nat
  token : Bool
  failed : Bool
  sent : Option (List Nat)
  askew : Bool
  dropped : Bool
  deriving DecidableEq, Repr

/-- The matrix engine (R165). `owner` is a task's TASKID (false) or a team (true, R166); `releasing` is a release that waits, `orphan` that
an abort made it (R184), `streamAcked` the acknowledgement of its own latch stream (R178), `known` and `rel` the engine's view and its
latest release as a party (R282). -/
structure MatrixEngine where
  owner : Option (Bool × Nat)
  tiles : Vector Tile 4
  latch : Vector Latch 2
  cur : Bool
  k : Nat
  acc : Bool
  astr : Nat
  bstr : Nat
  ringOn : Bool
  succ : Nat
  pred : Nat
  queue : List MCmd
  sub : Submitted
  done : BitVec 16
  fault : Bool
  releasing : Bool
  orphan : Bool
  streamAcked : Bool
  known : List Nat
  rel : Option Release
  deriving DecidableEq, Repr

/-- The copy slot's watermark register (R206) apart from the copy itself. -/
structure WmkReg where
  act : Bool
  frz : Bool
  uno : Bool
  abt : Bool
  strm : Bool
  addr : BitVec 56
  deriving DecidableEq, Repr

/-- One copy slot (R205, R211). -/
structure CopySlot where
  wmk : WmkReg
  gen : BitVec 13
  copy : Option Copy
  deriving DecidableEq, Repr

/-- An inbound entry (R207): the copy's engine and slot, the receiver's number, the watched range and its watermark. -/
structure Inbound where
  core : Nat
  slot : Nat
  recv : Nat
  dlo : Nat
  dhi : Nat
  wmk : Nat
  deriving DecidableEq, Repr

/-- A product term (R229, R231). -/
structure Term where
  mask : BitVec 32
  en : Bool
  ctr : BitVec 4
  inc : Bool
  latched : BitVec 32
  deriving DecidableEq, Repr

/-- The event crossbar of a core (R228-R231). `waiters` are the tasks in `wait`, oldest first. -/
structure Crossbar where
  terms : Vector Term 32
  counters : Vector (BitVec 16) 16
  ovf : BitVec 16
  men : Bool
  mctr : BitVec 4
  cen : Bool
  cctr : BitVec 4
  cross : Vector (BitVec 56) 8
  waiters : List (Nat × Nat)
  deriving DecidableEq, Repr

/-- A barrier instance (R286): the generation's N, the arrivals by TASKID with their release snapshots, and the highest LAMPORT value
they carried (R351). -/
structure Barrier where
  n : Nat
  arrivals : List (Nat × List Nat)
  gen : Nat
  stamp : BitVec 32
  deriving DecidableEq, Repr

/-- A steal attempt of an idle core (R293, R294), or its visit to another slice's queue (`slice`, R288 source 6): the victim, the
accesses performed so far, and what they brought; `result` is 0 for a record, 1 EMPTY, 2 LOST. -/
structure Steal where
  slice : Bool
  victim : Nat
  stage : Nat
  head : Word
  record : Option Trigger
  result : Option Nat
  since : Nat
  deriving DecidableEq, Repr

/-- An entry of a page-attribute cache (R323); the caches are those of the cores (unit = core), of the collective engines
(640 + die) and of the service cores (644 + q). -/
structure Attr where
  asid : Nat
  cls : Nat
  vpn : Nat
  kind : Nat
  r : Bool
  w : Bool
  x : Bool
  deriving DecidableEq, Repr

/-- A trace record waiting at its source (R353, R354): its eight doublewords. -/
abbrev TraceRec := List Word

/-- A routine-unit command in progress (R198, R201): the task's slot, its instruction and the image it runs; `landing` once its outputs are
on their way. -/
structure RoutineCmd where
  slot : Nat
  instr : Instr
  routine : Routine
  landing : Bool
  deriving DecidableEq, Repr

/-- A cached copy of a line (R124, R256, R281): the line's key, the cycle it was filled, and the Cache bank that is its way, of a core
or, in an Annex, as 512 times the core's index plus the bank; per sector POISON, and whether its check fails (R331). -/
structure Copied where
  key : Nat
  at_ : Nat
  bank : Nat
  poison : BitVec 4
  bad : BitVec 4
  deriving DecidableEq, Repr

/-- A core; `cacheLines` is the local cache, the most recently used line first; `copyKnown` and `copyRel` are the copy engine's view and its
latest release as a party (R282); `stealAt` is the start of the last steal attempt (R294); `dequeMeta` is what accompanies a deque record beside its 64 bytes: identity, stamp, release (R115-R138, R165, R191, R205, R228, R288, R300). -/
structure Core where
  mem : Memory
  bankmap : BitVec 768
  dequeBase : Nat
  dequeBanks : Nat
  dequeMeta : Tbl Trigger
  rings : Vector (Option Ring) 32
  ringwait : BitVec 32
  neardrop : Nat
  cacheLines : List Copied
  mx : MatrixEngine
  routines : List Routine
  rcmd : Option RoutineCmd
  slots : Vector CopySlot 8
  copyKnown : List Nat
  copyRel : Option Release
  inbound : List Inbound
  inboundWait : List (Nat × Nat × Nat)
  xbar : Crossbar
  mailbox : List Trigger
  victim : Nat
  steal : Option Steal
  stealFails : Nat
  nextSlice : Nat
  stealAttempts : Word
  stealFailed : Word
  searchCycles : Word
  stealAt : Option Nat
  qwait : Nat
  run : Nat
  bars : Vector Barrier 16
  redirects : List Nat
  trace : List TraceRec
  job : Option Nat
  deriving DecidableEq, Repr

/-- A fifo of a casement (R234, R238) with its data, each with the release of the step that enqueued it (R253). -/
structure CFifo where
  cap : Nat
  dsz : Nat
  data : List (Datum × List Nat)
  deriving DecidableEq, Repr

/-- A filter's predicate (R234, R238). -/
structure CFilter where
  k : Half32
  op : Nat
  ty : Nat
  deriving DecidableEq, Repr

/-- A transition of a casement (R238): guards are (POL, filter, origin), routes are (destination, origin). -/
structure CTrans where
  mask : BitVec 32
  next : Nat
  enq : BitVec 8
  deq : BitVec 8
  guards : List (Bool × Nat × Nat)
  routes : List (Nat × Nat)
  deriving DecidableEq, Repr

/-- A port entry's binding (R239). -/
inductive Binding where
  | none
  | task (tid : Word) (core : Nat)
  | handler (addr : Word) (core : Nat)
  deriving DecidableEq, Repr

/-- A port entry of the Transom (R239): an offer holds the datum and the offering task's release; `alt` is an alt-group mark. -/
structure PEntry where
  sink : Bool
  dsz : Nat
  bind : Binding
  offer : Option (Datum × List Nat)
  alt : Option Word
  credits : Nat
  deriving DecidableEq, Repr

/-- A loaded casement (R238, R239). -/
structure Casement where
  job : Nat
  scope : Nat
  buf : Nat
  ports : List PEntry
  fifos : List CFifo
  filters : List CFilter
  states : List (Nat × Nat)
  trans : List CTrans
  state : Nat
  ptrs : List Nat
  deriving DecidableEq, Repr

/-- A message between a core and a Transom on route class 3 (R240, R262): from the core down to `credit`, from the Transom after it. -/
inductive PMsg where
  | offer (tid : Word) (name : Word) (data : Datum) (alt : Option Word) (snap : List Nat)
  | withdraw (tid : Word) (name : Word)
  | bind (tid : Word) (name : Word)
  | unload (tid : Word) (name : Word)
  | free (tid : Word) (name : Word)
  | rebind (tid : Word) (name : Word)
  | credit (name : Word)
  | fire (tid : Word) (name : Word) (data : Datum) (snap : List Nat)
  | withdrawn (tid : Word) (name : Word)
  | fired (tid : Word) (name : Word)
  | bound (tid : Word) (name : Word) (status : Nat) (sink : Bool) (dsz : Nat)
  | unloaded (tid : Word) (status : Nat)
  deriving DecidableEq, Repr

/-- The state of a guard's tile (R224-R228): the core its pair was dispatched from, each task's end (0 running, 1 gres or end, 2 other),
overflow, and whether the tile is decided. -/
structure GTile where
  t : Nat
  core : Nat
  sEnd : Option Nat
  cEnd : Option Nat
  spilled : Bool
  residual : Option (BitVec 32)
  gtol : BitVec 32
  decided : Bool
  deriving DecidableEq, Repr

/-- A tile whose pair runs again (R226): the page it waits for, and both input snapshots. -/
structure Redo where
  tile : Nat
  page : Option (Nat × Nat)
  sur : Trigger
  chk : Trigger
  deriving DecidableEq, Repr

/-- A guard entry of a quad (R223); `redo` are the tiles to run again (R226). -/
structure Guard where
  job : Nat
  n : Nat
  next : Nat
  sur : Word
  chk : Word
  exa : Word
  arg : Word
  record : Word
  gtol : BitVec 32
  cls : BitVec 2
  redo : List Redo
  tiles : List GTile
  deriving DecidableEq, Repr

/-- A quad (R52, R233-R258); `toT` and `fromT` are the port messages on their way, by core, those of a task with its phase (R260). -/
structure Quad where
  qflags : BitVec 7
  qpool : BitVec 32
  annex : List Copied
  gens : Vector (BitVec 8) 16
  cas : Vector (Option Casement) 16
  toT : List (Nat × BitVec 2 × PMsg)
  fromT : List (Nat × PMsg)
  bars : Vector Barrier 16
  guards : Vector (Option Guard) 4
  trace : List TraceRec
  deriving DecidableEq, Repr

/-- What every member of a collective must give alike (R310, R311): OP, CL, RM, n and the routine image. -/
structure CollOp where
  op : Nat
  cl : Nat
  rm : Nat
  n : Nat
  routine : Option Routine
  deriving DecidableEq, Repr

/-- A member's part of a collective (R309-R316) at one die's engine: the submitting core and what the request carried; `bitmap` are
the chunks written. -/
structure CollMember where
  die : Nat
  core : Nat
  src : Nat
  dst : Nat
  status : Word
  wake : Word
  warg : Word
  bitmap : List Nat
  flags : BitVec 7
  ended : Bool
  deriving DecidableEq, Repr

/-- A collective of a group (R311-R316). `what` is what its first request asked for, `keep` are the contributions kept in staging per chunk, by
rank, and whether they are poisoned there (R331, R334); `grants` are the reservations by global die number with their order; `flips` are the operand orders of a commutative Op in each
chunk, a bit for each application, `on` is set once it runs (R317), `since` the last progress of each started chunk. -/
structure Coll where
  id : Nat
  job : Nat
  group : Nat
  seq : Nat
  ranks : List Nat
  rg : Nat
  links : List Nat × List Nat
  what : CollOp
  members : List CollMember
  keep : List (Nat × List (List Half32) × Bool)
  grants : Tbl Nat
  alternate : Bool
  retries : Nat
  cause : Option Nat
  on : Bool
  acked : List Nat
  flips : Tbl Nat
  since : Tbl Nat
  deriving DecidableEq, Repr

/-- A die (R17, R52, R262, R269-R273, R286, R297, R301, R309, R334, R350-R354). -/
structure Die where
  dflags : BitVec 7
  dieclk : Word
  lamport : BitVec 32
  lwrap : Bool
  serial : Tbl Nat
  bars : Vector Barrier 16
  handlers : Tbl Word
  routes : Vector Nat 8
  correctable : Nat
  holdQ : List (Nat × Word × Bool)
  tracectl : Word
  tracebase : Word
  lostSince : Bool
  traceLost : Nat
  traceTail : Nat
  trace : List TraceRec
  skew : Tbl Word
  replicas : List (Nat × List Nat)
  withdrawing : List (Nat × List Nat)
  deriving DecidableEq, Repr

/-- An L2 line (R265): 64 words of data with a mask bit each, and per sector DIRTY, POISON and the difference of its carried check from the
CRC-16 of its bytes, 16 bits each (R331). -/
structure Line where
  mask : BitVec 64
  dirty : BitVec 4
  poison : BitVec 4
  syn : BitVec 64
  data : BitVec 2048
  deriving DecidableEq, Repr

/-- A message in flight on route class 2 or 4 (R262, R299): to a mailbox, a message ring, a global queue, software lines or a
sender (a refusal), a remote drain's wake-up, or a handler trigger of a port with its datum (R244). -/
inductive MsgKind where
  | mailbox
  | ring (entry : Nat)
  | queue (slice : Nat)
  | lines (bits : BitVec 8)
  | nack (tid : Word)
  | wake
  | trigger (name : Word) (data : Datum)
  deriving DecidableEq, Repr

/-- A message (R260, R287, R299) with its route class, its route mode bit and its sender's phase; `left` are its packets of at most 256
bytes that are still to arrive (R260, DEDUCED, log 105). -/
structure Msg where
  id : Nat
  kind : MsgKind
  core : Nat
  fromCore : Nat
  tid : Word
  job : Nat
  dwords : List Word
  rel : Option Release
  lamport : BitVec 32
  stamped : Bool
  landed : Bool
  cls : Nat
  xy : Bool
  phase : BitVec 2
  left : Nat
  deriving DecidableEq, Repr

/-- A resident or swapped team (R289-R292): `resident` is the DIECLK its round counts from, or the part of a round that a pre-emption
interrupted; `order` is its place among waiting teams, `known` what its ended tasks release to the grid counter;
`engines` and `banks` are what a swap saved, by core. -/
structure Team where
  grid : Nat
  num : Nat
  quad : Nat
  bank : Nat
  scr : Nat
  alive : Nat
  poisoned : Bool
  resident : Nat
  swapped : Bool
  bySlice : Bool
  cls : Nat
  order : Nat
  known : List Nat
  engines : Tbl MatrixEngine
  banks : Tbl Memory
  deriving DecidableEq, Repr

/-- A grid (R289-R291); `serial` is the SERIAL of its first task on its die (R17). -/
structure Grid where
  id : Nat
  job : Nat
  num : Nat
  handler : Word
  arg : Word
  teams : Nat
  size : Nat
  scr : Nat
  counter : Word
  next : Nat
  stamp : Word
  rel : Option Release
  die : Nat
  serial : Nat
  deriving DecidableEq, Repr

/-- A swapped task, the core it was halted on, its team, and the engines saved with a task of no team, by core (R185, R292, R303). -/
structure Swap where
  task : Task
  core : Nat
  team : Option Nat
  engines : Tbl MatrixEngine
  deriving DecidableEq, Repr

/-- A job as Tardar holds it (R15, R108, R388). -/
structure Job where
  desc : JobDesc
  debugger : Bool
  grids : Nat
  nearNotified : List Nat
  deriving DecidableEq, Repr

/-- A notification to Tardar, with its kind by name and its data. -/
inductive Notice where
  | absent (asid va kind : Nat)
  | fatal (tid cause pc val info : Word)
  | coreError (tid : Word)
  | counterWrap (job die : Nat)
  | shadowTooBig (core : Nat) (handler : Word)
  | gridUnplaceable (grid : Nat)
  | neardrop (core job : Nat)
  | copyFault (ident addr : Word)
  | parkedRefused (dwords : List Word)
  | malformedEntry (pa : Nat)
  | staleTranslation (asid va : Nat)
  | sysRequest (tid : Word) (req : BitVec 8)
  | badStatus (job group : Nat)
  | linkFailed (link : Nat)
  | unreachable (pkg : Nat)
  | coolant (ok : Bool)
  | hostRefused (asid va : Nat)
  | jobRefused (job : Nat)
  deriving DecidableEq, Repr

/-- A peer page's entry in a stack port (R344); ROOT is its root switch. -/
structure Peer where
  asid : Nat
  cls : Nat
  vpn : Nat
  members : List Nat
  root : Nat
  deriving DecidableEq, Repr

/-- A stack port's TLB entry (R324). -/
structure TlbEntry where
  asid : Nat
  cls : Nat
  vpn : Nat
  pte : Word
  deriving DecidableEq, Repr

/-- A configuration image (R336, R338, R341): its signature verifies, its anti-rollback version, the voltage and PHY trims, the highest inlet
temperature and the lowest flow, MIGTHR, the default route table and RINGWAIT, and what it adds to the limits of stages 3-5, in ns. -/
structure Image where
  good : Bool
  version : Nat
  trims : List Nat
  inlet : Nat
  flow : Nat
  migthr : Nat
  routes : Vector Nat 8
  ringwait : Nat
  more : Vector Nat 3
  deriving DecidableEq, Repr

/-- Tardar's image: its signature verifies, what it holds (R336). -/
structure Firmware where
  good : Bool
  content : List Nat
  deriving DecidableEq, Repr

/-- The start sequence and its registers (R336-R339); `config` and `tardar` are what its stages measured (R340). -/
structure Boot where
  stage : Nat
  code : Nat
  done : Bool
  fail : Bool
  warm : Bool
  retry : Bool
  starts : BitVec 32
  trained : Bool
  since : Word
  requests : Nat
  config : List Nat
  tardar : List Nat
  deriving DecidableEq, Repr

/-- An SPDM 1.2 request but for measurements (R340). -/
inductive Spdm where
  | version
  | algorithms
  | digests
  | certificate (slot off len : Nat)
  | challenge (slot nonce : Nat)
  deriving DecidableEq, Repr

/-- A message to the host: a completion, an answer of the root of trust, or an MSI-X vector of a function (R335, R340). -/
inductive HostReply where
  | data (bytes : List Byte) (ep : Bool)
  | completerAbort
  | measurements (rom config tardar : Nat) (warm : Bool) (starts : BitVec 32)
  | version (major minor : Nat)
  | algorithms (hash curve : Nat)
  | digests (slots digest : Nat)
  | certificate (bytes : List Byte)
  | challengeAuth (digest signature : Nat)
  | refused
  | interrupt (fn vector : Nat)
  deriving DecidableEq, Repr

/-- Where an uncorrectable error in data occurs beside banks and L2 (R331, R334): a sector of a cached copy of a line, the contributions of a chunk in
staging, a datum of a fifo or of an offer in a Transom's SRAM, a burst of HBM, the data of a write on its way. -/
inductive Upset where
  | cached (core key sector : Nat)
  | annex (quad key sector : Nat)
  | staging (coll chunk : Nat)
  | fifo (quad entry fifo datum : Nat)
  | offer (quad entry port : Nat)
  | hbm (sector : Nat)
  | flits (write : Nat)
  deriving DecidableEq, Repr

/-- A request of the host in a quadrant window (R272, R335): a posted write, poisoned or not, a read, or a write or read of WBASE. -/
inductive HostReq where
  | write (fn off : Nat) (data : List Byte) (ep : Bool)
  | read (fn off n : Nat)
  | wbase (fn : Nat) (v : Option Word)
  deriving DecidableEq, Repr

/-- One move of the environment: a context issues, an event of the opcode table happens, cycles pass; Tardar writes a page-table
entry of a stack's memory (R322) or a peer table's (R344), advances MQHEAD, resets an access-counter record or its PEND (R328, R329), or raises an MSI-X
vector (R335); the host accesses a doubleword of a function's BAR2, writes poisoned data to a window or makes an SPDM request (R335, R340);
another package writes a peer page (R345); an uncorrectable error occurs (R334); the coolant has a temperature and a flow, an image is stored for the
next start (R341) (DESIGN CHOICE, log 2, log 3). -/
inductive Move where
  | issue (slot : Nat)
  | event (i : Instr)
  | pass (cycles ns : Nat)
  | entry (pa : Nat) (e : Word)
  | peer (asid va : Nat) (members : List Nat) (root : Nat)
  | mqHead (n : Nat)
  | record (frame : Nat) (whole : Bool)
  | msix (fn vector : Nat)
  | bar2 (fn off : Nat) (v : Option Word)
  | poisonedWrite (fn window off : Nat) (data : List Byte)
  | spdm (r : Spdm)
  | remote (pkg asid va : Nat) (bytes mask : List Byte) (op : Option (BitVec 4)) (rel : Bool)
  | upset (u : Upset)
  | coolant (inlet flow : Nat)
  | image (i : Image)
  | tardar (f : Firmware)
  deriving DecidableEq, Repr

/-- The machine. Contexts are by slot number: 16 * core + slot for tasks, 10240 + q for the service core of quadrant q.
`hot` are the loads of each L2 line that reached its home within 4,096 cycles, by core and cycle, `invalidated` the cycle of a line's last
`cinv` (R269); `merges` the merge entries of each slice, a line and the copies its stream serves (R271); `windows` the host's requests that
wait in each quadrant window (R272), `svcTrace` the trace records of each service core (R354); `image` and `tardar` are the stored images, `conf` the
configuration in force, `rollback` the anti-rollback counter (R336, R341); `views` holds what the parties know that keep
no view in a register: service core q at q, the curator of die d at 16 + d, its collective engine at 20 + d (R276, R308). -/
structure State where
  tasks : Tbl Task
  cores : Tbl Core
  quads : Tbl Quad
  dies : Tbl Die
  l2 : Tbl Line
  l2Partitioned : Bool
  hot : Tbl (List (Nat × Nat))
  invalidated : Tbl Nat
  merges : Tbl (List (Nat × List (Nat × Nat)))
  windows : Tbl (List HostReq)
  hbm : Memory
  queues : Tbl (List Trigger)
  parkedRecs : List Trigger
  path : List Write
  hist : List Write
  views : Tbl (List Nat)
  atSwitch : List Write
  msgs : List Msg
  nextId : Nat
  tlbs : Tbl (List TlbEntry)
  attrs : Tbl (List Attr)
  peers : Tbl (List Peer)
  mqHead : Nat
  mqTail : Nat
  mqOvf : BitVec 32
  owed : Tbl (Nat × Nat)
  faultQ : List (Nat × Nat × Nat)
  notices : List Notice
  jobs : Tbl Job
  grids : List Grid
  teams : Tbl Team
  swaps : List Swap
  pkgBars : Vector Barrier 16
  podBars : Tbl (Vector Barrier 16)
  colls : List Coll
  collSeq : Tbl Nat
  raises : List (Nat × BitVec 7)
  boot : Boot
  image : Image
  conf : Image
  rollback : Nat
  tardar : Firmware
  wbase : Tbl Word
  svcTrace : Tbl (List TraceRec)
  hostReplies : List HostReply
  halfClock : Bool
  links : BitVec 16
  unreachable : List Nat
  peerMem : Tbl Memory
  moves : Tbl (List Word)
  pkg : Nat
  cycle : Nat
  focus : Nat
  schedule : List Move
  choices : List Nat
  tick : Nat
  deriving DecidableEq, Repr

/-- An empty memory: every byte reads as 0 (DESIGN CHOICE, log 4), no sector is poisoned. -/
def Memory.empty : Memory := ⟨[], [], []⟩

/-- A view that knows nothing beyond the initial writes (R275). -/
def View.init : View := ⟨[], [], none, [0, 0, 0, 0], [0, 0, 0, 0], false⟩

/-- A slot that holds no task: every register of R13 and R15 at its value at activation (R8). -/
def Task.empty : Task where
  pc := 0
  g := Vector.replicate 64 0
  k := Vector.replicate 8 0
  v := Vector.replicate 32 0
  q := Vector.replicate 16 none
  p := Vector.replicate 16 none
  leaseBase := 0
  leaseCls := 0
  tid := 0
  lcn := 0
  seed := 0
  round := 0
  fflags := 0
  ftrapen := 0
  gtol := 0
  cls := 0
  phase := 0
  trapPc := 0
  trapCause := 0
  trapVal := 0
  trapInfo := 0
  pos := 0
  ord := 0
  job := 0
  life := .free
  holdReq := false
  holdDbg := false
  holdSys := false
  frame := none
  frameAside := none
  restartable := false
  committed := false
  shadowKiB := 0
  shadow := []
  shadowUsed := 0
  snapshot := none
  snapDue := false
  joinAddr := none
  how := 0
  brk := []
  watch := []
  skipStop := 0
  pendingTrap := none
  irqs := []
  batchOpen := 0
  batchSeq := 1
  batches := []
  aborted := 0
  mail := []
  stream := none
  sb := []
  view := View.init
  bars := []
  yielded := none
  stalled := none
  theft := none
  nacks := 0
  team := none
  enq := 0
  disp := 0
  guard := none
  residual := none
  engaged := false
  portWait := none
  moving := none
  halt := none
  reply := none

/-- A tile of KIND FP32 with every byte zero (R166, R174). -/
def Tile.zero : Tile := ⟨0, 0⟩

/-- An empty latch bank (R166). -/
def Latch.empty : Latch := ⟨false, false, 0, 0, 0, []⟩

/-- The configuration a claim leaves (R166): K = 1, FP32 accumulation, zero strides, invalid latch, KIND FP32. -/
def Submitted.reset : Submitted := ⟨1, false, 0, 0, false, 0, 0, 0, [0, 0, 0, 0], false⟩

/-- A free matrix engine (R165, R166, R182). -/
def MatrixEngine.reset : MatrixEngine where
  owner := none
  tiles := Vector.replicate 4 Tile.zero
  latch := Vector.replicate 2 Latch.empty
  cur := false
  k := 1
  acc := false
  astr := 0
  bstr := 0
  ringOn := false
  succ := 0
  pred := 0
  queue := []
  sub := Submitted.reset
  done := 0
  fault := false
  releasing := false
  orphan := false
  streamAcked := false
  known := []
  rel := none

/-- A barrier instance with no arrival (R286). -/
def Barrier.reset : Barrier := ⟨0, [], 0, 0⟩

/-- A copy slot with nothing in it (R206). -/
def CopySlot.reset : CopySlot := ⟨⟨false, false, false, false, false, 0⟩, 0, none⟩

/-- A crossbar with every item zero and every latch clear (R231). -/
def Crossbar.reset : Crossbar where
  terms := Vector.replicate 32 ⟨0, false, 0, false, 0⟩
  counters := Vector.replicate 16 0
  ovf := 0
  men := false
  mctr := 0
  cen := false
  cctr := 0
  cross := Vector.replicate 8 0
  waiters := []

/-- BANKMAP at its Reset value (R116): banks 352-383 Shadow, 320-351 FIFO, 256-319 Cache, 0-255 Scratch. -/
def bankmapReset : BitVec 768 :=
  (BitVec.allOnes 64 : BitVec 64) ++ (BitVec.ofNat 64 0xAAAAAAAAAAAAAAAA) ++
    (BitVec.ofNat 128 0x55555555555555555555555555555555) ++ (0#512)

/-- A core at its Reset values (R116, R134, R136, R206, R231, R336). -/
def Core.reset : Core where
  mem := Memory.empty
  bankmap := bankmapReset
  dequeBase := 320
  dequeBanks := 16
  dequeMeta := []
  rings := Vector.replicate 32 none
  ringwait := 4096
  neardrop := 0
  cacheLines := []
  mx := MatrixEngine.reset
  routines := []
  rcmd := none
  slots := Vector.replicate 8 CopySlot.reset
  copyKnown := []
  copyRel := none
  inbound := []
  inboundWait := []
  xbar := Crossbar.reset
  mailbox := []
  victim := 0
  steal := none
  stealFails := 0
  nextSlice := 0
  stealAttempts := 0
  stealFailed := 0
  searchCycles := 0
  stealAt := none
  qwait := 0
  run := 0
  bars := Vector.replicate 16 Barrier.reset
  redirects := []
  trace := []
  job := none

/-- A quad at its Reset values (R52, R236, R239, R256). -/
def Quad.reset : Quad where
  qflags := 0
  qpool := 0
  annex := []
  gens := Vector.replicate 16 0
  cas := Vector.replicate 16 none
  toT := []
  fromT := []
  bars := Vector.replicate 16 Barrier.reset
  guards := Vector.replicate 4 none
  trace := []

/-- The default route table (R262): 0 XY, 1 YX, 2 adaptive, by class. -/
def routesReset : Vector Nat 8 := ⟨#[0, 1, 0, 0, 2, 0, 0, 0], rfl⟩

/-- A die at its Reset values (R52, R262, R350-R352). -/
def Die.reset : Die where
  dflags := 0
  dieclk := 0
  lamport := 0
  lwrap := false
  serial := []
  bars := Vector.replicate 16 Barrier.reset
  handlers := []
  routes := routesReset
  correctable := 0
  holdQ := []
  tracectl := 0
  tracebase := 0
  lostSince := false
  traceLost := 0
  traceTail := 0
  trace := []
  skew := []
  replicas := []
  withdrawing := []

/-- An invalid L2 line (R265). -/
def Line.invalid : Line := ⟨0, 0, 0, 0, 0⟩

/-- The boot mailbox at its Reset values (R339): no stage has begun, and no HBM parameters are retained. -/
def Boot.reset : Boot := ⟨0, 0, false, false, false, false, 0, false, 0, 0, [], []⟩

/-- The configuration image at reset: the spec's defaults (R134, R262, R329, R338), the rest zero (DESIGN CHOICE, log 30). -/
def Image.reset : Image := ⟨true, 0, [], 0, 0, 256, routesReset, 4096, ⟨#[0, 0, 0], rfl⟩⟩

/-- The package with every register at its Reset value (R8): no job, no task, nothing in flight (DESIGN CHOICE, log 1, log 5). -/
def State.reset : State where
  tasks := []
  cores := []
  quads := []
  dies := []
  l2 := []
  l2Partitioned := false
  hot := []
  invalidated := []
  merges := []
  windows := []
  hbm := Memory.empty
  queues := []
  parkedRecs := []
  path := []
  hist := []
  views := []
  atSwitch := []
  msgs := []
  nextId := 1
  tlbs := []
  attrs := []
  peers := []
  mqHead := 0
  mqTail := 0
  mqOvf := 0
  owed := []
  faultQ := []
  notices := []
  jobs := []
  grids := []
  teams := []
  swaps := []
  pkgBars := Vector.replicate 16 Barrier.reset
  podBars := []
  colls := []
  collSeq := []
  raises := []
  boot := Boot.reset
  image := Image.reset
  conf := Image.reset
  rollback := 0
  tardar := ⟨true, []⟩
  wbase := []
  svcTrace := []
  hostReplies := []
  halfClock := false
  links := BitVec.allOnes 16
  unreachable := []
  peerMem := []
  moves := []
  pkg := 0
  cycle := 0
  focus := 0
  schedule := []
  choices := []
  tick := 0

end Sys2Proof.Machine
end

