-- ==== Sys2Proof/Machine/Bits.lean ====
section
/-! DEFINITION. Helpers over tables, bytes and bit strings that the meanings share (R7, R10, R30). -/

namespace Sys2Proof.Machine

/-- The entry of a table, if it is listed. -/
def tfind {α : Type} : Tbl α → Nat → Option α
  | [], _ => none
  | (k, v) :: r, n => if k = n then some v else tfind r n

/-- The entry of a table, or a default. -/
def tget {α : Type} (t : Tbl α) (n : Nat) (d : α) : α := (tfind t n).getD d

/-- The table with one entry set, keys in rising order where they were. -/
def tput {α : Type} : Tbl α → Nat → α → Tbl α
  | [], n, a => [(n, a)]
  | (k, v) :: r, n, a => if k = n then (n, a) :: r else if n < k then (n, a) :: (k, v) :: r else (k, v) :: tput r n a

/-- The table without one entry. -/
def tdel {α : Type} : Tbl α → Nat → Tbl α
  | [], _ => []
  | (k, v) :: r, n => if k = n then tdel r n else (k, v) :: tdel r n

/-- The byte of a memory at an address; an unlisted byte reads 0 (DESIGN CHOICE, log 4). -/
def cellByte : List Host.Cell → Nat → Byte
  | [], _ => 0
  | (k, b) :: r, a => if k = a then b else cellByte r a

/-- One byte written, in the canonical form: rising addresses, no zero byte listed. -/
def cellPut : List Host.Cell → Nat → Byte → List Host.Cell
  | [], a, b => if b = 0 then [] else [(a, b)]
  | (k, c) :: r, a, b =>
    if a < k then (if b = 0 then (k, c) :: r else (a, b) :: (k, c) :: r)
    else if k = a then (if b = 0 then r else (a, b) :: r)
    else (k, c) :: cellPut r a b

/-- The byte of a memory at an address. -/
def Memory.byte (m : Memory) (a : Nat) : Byte := cellByte m.cells a

/-- A memory with one byte written. -/
def Memory.put (m : Memory) (a : Nat) (b : Byte) : Memory := { m with cells := cellPut m.cells a b }

/-- The canonical form of a list of cells: rising addresses from a bound on, no zero byte. -/
def cellsFrom (lo : Nat) : List Host.Cell → Bool
  | [] => true
  | (k, b) :: r => decide (lo ≤ k) && (b != 0) && cellsFrom (k + 1) r

/-- The canonical form of a memory. -/
def Memory.wf (m : Memory) : Bool := cellsFrom 0 m.cells

/-- The bytes of a memory from an address on. -/
def Memory.bytes (m : Memory) (a : Nat) : Nat → List Byte
  | 0 => []
  | n + 1 => m.byte a :: m.bytes (a + 1) n

/-- A memory with bytes written from an address on. -/
def Memory.putBytes (m : Memory) (a : Nat) : List Byte → Memory
  | [] => m
  | b :: r => (m.put a b).putBytes (a + 1) r

/-- A range of a memory takes the bytes of a range of another. -/
def Memory.graft (m : Memory) (lo n : Nat) (src : Memory) (at_ : Nat) : Memory :=
  let keep (a : Nat) : Bool := decide (a < lo) || decide (lo + n ≤ a)
  let inside (a : Nat) : Bool := decide (at_ ≤ a) && decide (a < at_ + n)
  ⟨(m.cells.filter fun e => decide (e.1 < lo)) ++
      ((src.cells.filter fun e => inside e.1).map fun e => (lo + (e.1 - at_), e.2)) ++
      (m.cells.filter fun e => decide (lo + n ≤ e.1)),
    (m.poison.filter fun k => keep (64 * k)) ++ ((src.poison.filter fun k => inside (64 * k)).map fun k => (lo + (64 * k - at_)) / 64),
    (m.badCheck.filter fun k => keep (64 * k.1)) ++
      ((src.badCheck.filter fun k => inside (64 * k.1)).map fun k => ((lo + (64 * k.1 - at_)) / 64, k.2))⟩

/-- The part of a core's memory in the banks chosen by number: bytes, poison and checks. -/
def Memory.banks (m : Memory) (keep : Nat → Bool) : Memory :=
  ⟨m.cells.filter fun e => keep (e.1 / 4096), m.poison.filter fun k => keep (k / 64), m.badCheck.filter fun k => keep (k.1 / 64)⟩

/-- The natural number of bytes, lowest address first (R7). -/
def leNat : List Byte → Nat
  | [] => 0
  | b :: r => b.toNat + 256 * leNat r

/-- The n low bytes of a number, lowest first (R7). -/
def natBytes (v : Nat) : Nat → List Byte
  | 0 => []
  | n + 1 => BitVec.ofNat 8 v :: natBytes (v / 256) n

/-- The little-endian word of at most eight bytes, zero-extended. -/
def leWord (bs : List Byte) : Word := BitVec.ofNat 64 (leNat bs)

/-- Sign extension of a field to a register (R61). -/
def sx {n : Nat} (b : BitVec n) : Word := b.signExtend 64

/-- Zero extension of a field to a register. -/
def zx {n : Nat} (b : BitVec n) : Word := b.setWidth 64

/-- Bits [lo + n - 1 : lo] of a word as a number (R10). -/
def bits {w : Nat} (b : BitVec w) (lo n : Nat) : Nat := b.toNat / 2 ^ lo % 2 ^ n

/-- One bit of a number. -/
def natBit (v i : Nat) : Bool := v / 2 ^ i % 2 == 1

/-- A list with one place set. -/
def lset {α : Type} : List α → Nat → α → List α
  | [], _, _ => []
  | _ :: r, 0, a => a :: r
  | x :: r, n + 1, a => x :: lset r n a

/-- The vector entry at a place that the bound holds for, else a default. -/
def vget {α : Type} {n : Nat} (v : Vector α n) (i : Nat) (d : α) : α := if h : i < n then v[i] else d

/-- The vector with a place set, unchanged where the place does not exist. -/
def vput {α : Type} {n : Nat} (v : Vector α n) (i : Nat) (a : α) : Vector α n := if h : i < n then v.set i a else v

/-- A natural number from bits, lowest first. -/
def bitsNat : List Bool → Nat
  | [] => 0
  | b :: r => (if b then 1 else 0) + 2 * bitsNat r

/-- A bit string assembled from equal pieces, piece 0 lowest (R30). -/
def pieces (w : Nat) : List Nat → Nat
  | [] => 0
  | p :: r => p % 2 ^ w + 2 ^ w * pieces w r

/-- The pieces of width w of a bit string, lowest first (R30). -/
def cut (w : Nat) (v : Nat) : Nat → List Nat
  | 0 => []
  | n + 1 => v % 2 ^ w :: cut w (v / 2 ^ w) n

/-- The signed value of a number of width w (R9). -/
def toS (w v : Nat) : Int := if v % 2 ^ w < 2 ^ (w - 1) then ((v % 2 ^ w : Nat) : Int) else ((v % 2 ^ w : Nat) : Int) - ((2 ^ w : Nat) : Int)

/-- The width-w encoding of an integer, wrapping (R10). -/
def ofS (w : Nat) (v : Int) : Nat := (v % ((2 ^ w : Nat) : Int)).toNat

/-- The first element a test holds for, with its index. -/
def findIdxFrom {α : Type} (p : α → Bool) : List α → Nat → Option (Nat × α)
  | [], _ => none
  | a :: r, i => if p a then some (i, a) else findIdxFrom p r (i + 1)

/-- The lowest number of a range that a test fails. -/
def firstBad (ok : Nat → Bool) (from_ : Nat) : Nat → Option Nat
  | 0 => none
  | n + 1 => if ok from_ then firstBad ok (from_ + 1) n else some from_

/-- Sets of numbers as lists without repeats. -/
def union (a b : List Nat) : List Nat := a ++ b.filter (fun x => !a.contains x)

/-- A number added to a set. -/
def insertNat (a : List Nat) (x : Nat) : List Nat := if a.contains x then a else x :: a

end Sys2Proof.Machine
end

