-- ==== Sys2Proof/Machine/Numbers.lean ====
section
/-! DEFINITION. The number formats bit by bit, exact values, `RoundTo`, `RoundInt`, `OverOut`, `NaNOut`, the draw generator and
the flags of each (R27-R42, R47-R55). An exact value is a dyadic number `(-1)^neg * m * 2^e`, an infinity or a NaN. -/

namespace Sys2Proof.Machine

/-- An exact value as an operation sees it (R32, R48); `sig` marks a signalling NaN (R34). -/
inductive FV where
  | nan (sig : Bool)
  | inf (neg : Bool)
  | fin (neg : Bool) (m : Nat) (e : Int)
  deriving DecidableEq, Repr

/-- A set of raised flags, laid out as FFLAGS (R50). -/
abbrev Flags := BitVec 7

/-- Rounded result differs from the exact result (R50). -/
def flagNX : Flags := 0x01
/-- Tiny and inexact (R50). -/
def flagUF : Flags := 0x02
/-- Overflow (R50). -/
def flagOF : Flags := 0x04
/-- Divided by zero, log of zero (R50). -/
def flagDZ : Flags := 0x08
/-- Invalid (R50). -/
def flagNV : Flags := 0x10
/-- A result was clamped (R50). -/
def flagSAT : Flags := 0x20
/-- Non-canonical encoded data met (R50). -/
def flagFMT : Flags := 0x40

/-- The flags when a condition holds. -/
def flagIf (c : Bool) (f : Flags) : Flags := if c then f else 0

/-- The class of a format (R27). -/
inductive FClass where
  | raw | float | integer | block | scale
  deriving DecidableEq, Repr

/-- A float format (R31): width in memory, mantissa and exponent widths, bias, the bits below the mantissa, infinity, NaN. -/
structure FFmt where
  width : Nat
  p : Nat
  eb : Nat
  b : Nat
  low : Nat
  hasInf : Bool
  hasNan : Bool
  deriving DecidableEq, Repr

/-- The float formats by code (R31). -/
def floatFmt : Nat → Option FFmt
  | 1 => some ⟨64, 52, 11, 1023, 0, true, true⟩
  | 2 => some ⟨32, 23, 8, 127, 0, true, true⟩
  | 3 => some ⟨32, 10, 8, 127, 13, true, true⟩
  | 4 => some ⟨16, 7, 8, 127, 0, true, true⟩
  | 5 => some ⟨16, 10, 5, 15, 0, true, true⟩
  | 6 => some ⟨8, 3, 4, 7, 0, false, true⟩
  | 7 => some ⟨8, 2, 5, 15, 0, true, true⟩
  | 8 => some ⟨6, 2, 3, 3, 0, false, false⟩
  | 9 => some ⟨6, 3, 2, 1, 0, false, false⟩
  | 10 => some ⟨4, 1, 2, 1, 0, false, false⟩
  | _ => none

/-- The format FP32 (R31). -/
def fp32 : FFmt := ⟨32, 23, 8, 127, 0, true, true⟩
/-- The format FP64 (R31). -/
def fp64 : FFmt := ⟨64, 52, 11, 1023, 0, true, true⟩

/-- The integer formats by code: signed, width (R36). -/
def intFmt : Nat → Option (Bool × Nat)
  | 11 => some (true, 32)
  | 12 => some (true, 16)
  | 13 => some (true, 8)
  | 14 => some (false, 8)
  | 15 => some (true, 4)
  | 16 => some (false, 4)
  | 17 => some (true, 2)
  | 30 => some (false, 16)
  | _ => none

/-- The element format of a block-scaled format (R38); VQ8 has none. -/
def blockElem : Nat → Option Nat
  | 18 => some 6
  | 19 => some 7
  | 20 => some 8
  | 21 => some 9
  | 22 => some 10
  | 23 => some 13
  | 24 => some 15
  | 25 => some 16
  | 26 => some 17
  | 28 => some 14
  | 29 => some 12
  | _ => none

/-- The class of a format code (R27). -/
def fmtClass (f : Nat) : FClass :=
  if f = 0 then .raw else if f ≤ 10 then .float else if f ≤ 17 ∨ f = 30 then .integer else if f = 31 then .scale else .block

/-- The width of one stored element in bits (R27). -/
def fmtWidth (f : Nat) : Nat :=
  if f = 0 ∨ f = 31 then 8
  else if f = 27 then 16
  else match floatFmt ((blockElem f).getD f) with
    | some ff => ff.width
    | none => match intFmt ((blockElem f).getD f) with
      | some (_, w) => w
      | none => 8

/-- The bytes of a block of a block-scaled format with block-length log k (R40). -/
def blockBytes (f k : Nat) : Nat := 2 + 2 ^ k * fmtWidth f

/-- The least and the greatest integer of an integer format (R36). -/
def intRange (sw : Bool × Nat) : Int × Int :=
  if sw.1 then (-((2 ^ (sw.2 - 1) : Nat) : Int), ((2 ^ (sw.2 - 1) : Nat) : Int) - 1) else (0, ((2 ^ sw.2 : Nat) : Int) - 1)

/-- A number scaled by a power of two, dropping bits below the point. -/
def shiftNat (m : Nat) (s : Int) : Nat := if 0 ≤ s then m * 2 ^ s.toNat else m / 2 ^ (-s).toNat

/-- The value of a float encoding (R31, R32, R33, R34). -/
def decodeFloat (f : FFmt) (x : Nat) : FV :=
  let v := x / 2 ^ f.low
  let m := v % 2 ^ f.p
  let e := v / 2 ^ f.p % 2 ^ f.eb
  let s := natBit v (f.p + f.eb)
  if e = 2 ^ f.eb - 1 ∧ f.hasInf then (if m = 0 then .inf s else .nan (!natBit m (f.p - 1)))
  else if e = 2 ^ f.eb - 1 ∧ f.hasNan ∧ m = 2 ^ f.p - 1 then .nan false
  else if e = 0 then .fin s m (1 - (f.b : Int) - f.p)
  else .fin s (2 ^ f.p + m) ((e : Int) - f.b - f.p)

/-- The mantissa and exponent of the largest finite value (R35). -/
def FFmt.largest (f : FFmt) : Nat × Int :=
  if f.hasInf then (2 ^ (f.p + 1) - 1, (2 ^ f.eb - 2 : Nat) - (f.b : Int) - f.p)
  else if f.hasNan then (2 ^ (f.p + 1) - 2, (2 ^ f.eb - 1 : Nat) - (f.b : Int) - f.p)
  else (2 ^ (f.p + 1) - 1, (2 ^ f.eb - 1 : Nat) - (f.b : Int) - f.p)

/-- Comparison of two dyadic magnitudes: `m1 * 2^e1 < m2 * 2^e2`. -/
def magLt (m1 : Nat) (e1 : Int) (m2 : Nat) (e2 : Int) : Bool :=
  if e1 ≤ e2 then decide (m1 < m2 * 2 ^ (e2 - e1).toNat) else decide (m1 * 2 ^ (e1 - e2).toNat < m2)

/-- The encoding of the default NaN (R34, R35). -/
def FFmt.nanBits (f : FFmt) : Nat :=
  (if f.hasInf then (2 ^ f.eb - 1) * 2 ^ f.p + 2 ^ (f.p - 1) else 2 ^ (f.eb + f.p) - 1) * 2 ^ f.low

/-- The encoding of a value the format holds (R31, R32). -/
def encodeFloat (f : FFmt) : FV → Nat
  | .nan _ => f.nanBits
  | .inf s => ((if s then 2 ^ f.eb else 0) + (2 ^ f.eb - 1)) * 2 ^ (f.p + f.low)
  | .fin s m e =>
    let sb := if s then 2 ^ (f.p + f.eb) else 0
    if m = 0 then sb * 2 ^ f.low
    else
      let top : Int := (m.log2 : Int) + e
      if top < 1 - (f.b : Int) then (sb + shiftNat m (e - (1 - (f.b : Int) - f.p))) * 2 ^ f.low
      else (sb + (top + f.b).toNat * 2 ^ f.p + (shiftNat m ((f.p : Int) - m.log2)) % 2 ^ f.p) * 2 ^ f.low

/-- `OverOut` (R49): a value beyond the range, or an exact infinity. -/
def overOut (f : FFmt) (sat : Bool) (mode : Nat) (exact neg : Bool) : FV × Flags :=
  let big : FV := .fin neg f.largest.1 f.largest.2
  if sat then (big, flagSAT)
  else if f.hasInf then
    if exact then (.inf neg, 0)
    else if mode = 1 then (big, flagOF)
    else if mode = 2 then ((if neg then big else .inf false), flagOF)
    else if mode = 3 then ((if neg then .inf true else big), flagOF)
    else (.inf neg, flagOF)
  else if f.hasNan then (.nan false, flagOF)
  else (big, flagOF ||| flagSAT)

/-- `NaNOut` (R34, R49): the default NaN, or +0 with NV where the result cannot be one. -/
def nanOut (f : FFmt) (sat : Bool) : FV × Flags :=
  if sat || !f.hasNan then (.fin false 0 0, flagNV) else (.nan false, 0)

/-- Whether a magnitude between two neighbours goes to the upper one (R48): `q` is the lower neighbour's integer, `rem / 2^sh`
the fraction above it. -/
def goesUp (mode r : Nat) (neg : Bool) (q rem sh : Nat) : Bool :=
  match mode with
  | 0 => decide (2 ^ sh < 2 * rem) || (decide (2 * rem = 2 ^ sh) && decide (q % 2 = 1))
  | 1 => false
  | 2 => !neg
  | 3 => neg
  | 4 => decide (2 ^ sh ≤ 2 * rem)
  | _ => decide (r < rem * 2 ^ 32 / 2 ^ sh)

/-- `RoundTo` (R48): the exponent of the grid at a value is that of its own binade, and of the subnormals below the smallest
normal value (DEDUCED, log 21). -/
def roundTo (f : FFmt) (sat : Bool) (mode r : Nat) : FV → FV × Flags
  | .nan _ => nanOut f sat
  | .inf s => overOut f sat mode true s
  | .fin s m e =>
    if m = 0 then (.fin s 0 0, 0)
    else
      let u : Int := max ((m.log2 : Int) + e - f.p) (1 - (f.b : Int) - f.p)
      let sh : Nat := (u - e).toNat
      let q := m / 2 ^ sh
      let rem := m % 2 ^ sh
      if rem = 0 then
        if magLt f.largest.1 f.largest.2 m e then
          let o := overOut f sat mode false s
          (o.1, o.2 ||| flagNX)
        else (.fin s m e, 0)
      else
        let y := if goesUp mode r s q rem sh then q + 1 else q
        if magLt f.largest.1 f.largest.2 y u then
          let o := overOut f sat mode false s
          (o.1, o.2 ||| flagNX)
        else (.fin s y u, flagNX ||| flagIf (magLt y u 1 (1 - (f.b : Int))) flagUF)

/-- `RoundTo`, encoded. -/
def roundBits (f : FFmt) (sat : Bool) (mode r : Nat) (x : FV) : Nat × Flags :=
  let y := roundTo f sat mode r x
  (encodeFloat f y.1, y.2)

/-- An exact integer as a value. -/
def ofInt (i : Int) : FV := .fin (decide (i < 0)) i.natAbs 0

/-- The exact value of a signed dyadic integer; a zero takes the sign given. -/
def dyadic (zeroNeg : Bool) (i : Int) (e : Int) : FV := if i = 0 then .fin zeroNeg 0 0 else .fin (decide (i < 0)) i.natAbs e

/-- The signed integer of a finite value over a common exponent. -/
def scaled (neg : Bool) (m : Nat) (e lo : Int) : Int :=
  let v : Int := (m * 2 ^ (e - lo).toNat : Nat)
  if neg then -v else v

/-- `Sat` (R54): an exact integer clamped to a range, SAT when it was. -/
def satInt (rg : Int × Int) (i : Int) : Int × Flags :=
  if i < rg.1 then (rg.1, flagSAT) else if rg.2 < i then (rg.2, flagSAT) else (i, 0)

/-- `RoundInt` (R54): a finite value out of range is inexact as well (R48, R50). -/
def roundInt (rg : Int × Int) (sat : Bool) (mode r : Nat) : FV → Int × Flags
  | .nan _ => (0, flagNV)
  | .inf s => ((if s then rg.1 else rg.2), if sat then flagSAT else flagNV)
  | .fin s m e =>
    let sh : Nat := (-e).toNat
    let q := m * 2 ^ e.toNat / 2 ^ sh
    let rem := m * 2 ^ e.toNat % 2 ^ sh
    let y := if rem ≠ 0 ∧ goesUp mode r s q rem sh then q + 1 else q
    let i : Int := if s then -(y : Int) else y
    let nx := flagIf (decide (rem ≠ 0)) flagNX
    if i < rg.1 then (rg.1, flagNX ||| if sat then flagSAT else flagNV)
    else if rg.2 < i then (rg.2, flagNX ||| if sat then flagSAT else flagNV)
    else (i, nx)

/-- NV for a signalling NaN operand (R34). -/
def sigFlag : FV → Flags
  | .nan true => flagNV
  | _ => 0

/-- Whether a value is a NaN. -/
def FV.isNan : FV → Bool
  | .nan _ => true
  | _ => false

/-- The negation of a value. -/
def FV.negate : FV → FV
  | .nan s => .nan s
  | .inf n => .inf (!n)
  | .fin n m e => .fin (!n) m e

/-- The exact sum; an exact zero takes IEEE 754's sign in the mode (R57), infinities of opposite signs are NaN with NV (R50). -/
def FV.add (mode : Nat) : FV → FV → FV × Flags
  | .nan s, y => (.nan false, sigFlag (.nan s) ||| sigFlag y)
  | x, .nan s => (.nan false, sigFlag x ||| sigFlag (.nan s))
  | .inf a, .inf b => if a = b then (.inf a, 0) else (.nan false, flagNV)
  | .inf a, .fin _ _ _ => (.inf a, 0)
  | .fin _ _ _, .inf b => (.inf b, 0)
  | .fin a m e, .fin b n f =>
    let lo := min e f
    let i := scaled a m e lo + scaled b n f lo
    (dyadic (if m = 0 ∧ n = 0 ∧ a = b then a else mode = 3) i lo, 0)

/-- The exact product; 0 times infinity is NaN with NV (R50). -/
def FV.mul : FV → FV → FV × Flags
  | .nan s, y => (.nan false, sigFlag (.nan s) ||| sigFlag y)
  | x, .nan s => (.nan false, sigFlag x ||| sigFlag (.nan s))
  | .inf a, .inf b => (.inf (a != b), 0)
  | .inf a, .fin b n _ => if n = 0 then (.nan false, flagNV) else (.inf (a != b), 0)
  | .fin a m _, .inf b => if m = 0 then (.nan false, flagNV) else (.inf (a != b), 0)
  | .fin a m e, .fin b n f => (.fin (a != b) (m * n) (if m * n = 0 then 0 else e + f), 0)

/-- The exact order of two values, none where either is a NaN; the zeros are equal (R32). -/
def FV.cmp : FV → FV → Option Ordering
  | .nan _, _ => none
  | _, .nan _ => none
  | .inf a, .inf b => some (if a = b then .eq else if a then .lt else .gt)
  | .inf a, .fin _ _ _ => some (if a then .lt else .gt)
  | .fin _ _ _, .inf b => some (if b then .gt else .lt)
  | .fin a m e, .fin b n f =>
    let lo := min e f
    some (compare (scaled a m e lo) (scaled b n f lo))

/-- A value scaled by a power of two. -/
def FV.scale (s : Int) : FV → FV
  | .nan q => .nan q
  | .inf n => .inf n
  | .fin n m e => .fin n m (e + s)

/-- The value of an E8 byte (R37). -/
def e8 (s : Nat) : FV := if s % 256 = 255 then .nan false else .fin false 1 ((s % 256 : Nat) - (127 : Int))

/-- The exact value of an integer or float element (R32, R36). -/
def elemValue (f : Nat) (x : Nat) : FV :=
  match floatFmt f with
  | some ff => decodeFloat ff x
  | none => match intFmt f with
    | some (true, w) => ofInt (toS w x)
    | some (false, w) => ofInt ((x % 2 ^ w : Nat) : Int)
    | none => .fin false 0 0

/-- The i-th weight of a VQ8 index before scaling (R42). -/
def vq8Weight (x i : Nat) : FV :=
  let mag := if natBit x (8 + i) then 3 else 1
  let par := (List.range 7).foldl (fun b j => b != natBit x (1 + j)) (natBit x 0)
  .fin (if i = 7 then par else natBit x (1 + i)) mag (-1)

/-- One element of a block (R41, R42): `f` the block format, `q` its code (for VQ8 the index), `i` the weight within an index. -/
def blockValue (f s z q i : Nat) : FV × Flags :=
  if s = 255 then (.nan false, 0)
  else if f = 27 then ((vq8Weight q i).scale (s - 127), flagIf (z ≠ 0) flagFMT)
  else match blockElem f with
    | some ef => match intFmt ef with
      | some (true, w) => ((ofInt (toS w q - toS 8 z)).scale (s - 127), 0)
      | some (false, w) => ((ofInt (((q % 2 ^ w : Nat) : Int) - toS 8 z)).scale (s - 127), 0)
      | none => ((elemValue ef q).scale (s - 127), flagIf (z ≠ 0) flagFMT)
    | none => (.fin false 0 0, 0)

/-- The stored code of an exact value in an element of a non-block format (R53): float or block source. -/
def encodeElem (f : Nat) (sat : Bool) (mode r : Nat) (x : FV) : Nat × Flags :=
  match floatFmt f with
  | some ff => roundBits ff sat mode r x
  | none => match intFmt f with
    | some sw =>
      let y := roundInt (intRange sw) sat mode r x
      (ofS sw.2 y.1, y.2)
    | none => (0, 0)

/-- An integer narrowed or widened into an integer format (R53): the plain form wraps, the `.sat` form clamps. -/
def encodeInt (f : Nat) (sat : Bool) (i : Int) : Nat × Flags :=
  match intFmt f with
  | some sw =>
    let y := if sat then satInt (intRange sw) i else (i, 0)
    (ofS sw.2 y.1, y.2)
  | none => (0, 0)

/-- The code of a value in a block with the scale byte s and the zero point z (R53). The rounding of the integer rule is exact
of range, then narrowed. -/
def encodeBlock (f s z : Nat) (sat : Bool) (mode r : Nat) (x : FV) : Nat × Flags :=
  match blockElem f with
  | some ef => match intFmt ef with
    | some _ =>
      match x with
      | .nan _ => let y := encodeInt ef sat (toS 8 z); (y.1, y.2 ||| flagNV)
      | .inf n =>
        let rg := intRange ((intFmt ef).getD (true, 8))
        (ofS 64 (if n then rg.1 else rg.2) % 2 ^ fmtWidth f, if sat then flagSAT else flagNV)
      | .fin n m e =>
        let v := roundInt (-(2 ^ 4096 : Nat), (2 ^ 4096 : Nat)) false mode r (FV.scale (127 - s) (.fin n m e))
        let y := encodeInt ef sat (toS 8 z + v.1)
        (y.1, y.2 ||| v.2)
    | none => encodeElem ef sat mode r (x.scale (127 - s))
  | none => (0, 0)

/-- The draw generator (R55). -/
def draw (seed : Word) (lcn : BitVec 16) (pos : Nat) (e : Nat) : Nat :=
  let key : Word := seed ^^^ (lcn ++ (0 : BitVec 48))
  let z0 : Word := (BitVec.ofNat 52 pos ++ BitVec.ofNat 12 e) ^^^ key
  let z1 := (z0 ^^^ (z0 >>> 29)) * 0xA3B195F264C82D17
  let z2 := (z1 ^^^ (z1 >>> 32)) * 0x8E5D3A27F1C46B09
  let z3 := (z2 ^^^ (z2 >>> 29)) * 0xA3B195F264C82D17
  let z4 := z3 ^^^ (z3 >>> 32)
  z4.toNat / 2 ^ 32

/-- The draw bits of element e under a rounding as it stood at issue; `d` counts draws from its position (R55). -/
def Rnd.draw (r : Rnd) (d e : Nat) : Nat := Machine.draw r.seed r.lcn (r.pos.toNat + d) (e % 4096)

/-- The rounding mode as a number (R47). -/
def Rnd.m (r : Rnd) : Nat := r.mode.toNat

end Sys2Proof.Machine
end

