-- ==== Sys2Proof/Machine/Ops.lean ====
section
/-! DEFINITION. Named operations over contexts, cores, quads and dies; how an instruction ends (`Exit`, `run`, `retire`); taking
a trap, `eret`, the fatal end, abort and park (R104-R114), which every meaning shares. -/

namespace Sys2Proof.Machine

/-! ### Places (R121, R233, R272) -/

/-- The core of a service core's router (R272): q = 4 * die + quadrant. -/
def serviceCore (q : Nat) : Nat :=
  q / 4 * 160 + (match q % 4 with | 0 => 32 | 1 => 47 | 2 => 112 | _ => 127)

/-- The core a context runs on: 16 slots per core, the service cores after them. -/
def coreOf (t : Nat) : Nat := if t < 10240 then t / 16 else serviceCore (t - 10240)

/-- The die of a core. -/
def dieOf (c : Nat) : Nat := c / 160

/-- The row of a core on its die. -/
def rowOf (c : Nat) : Nat := c % 160 / 16

/-- The column of a core on its die. -/
def colOf (c : Nat) : Nat := c % 16

/-- The quad of a core, 40 * die + quad (R233). -/
def quadOf (c : Nat) : Nat := dieOf c * 40 + 8 * (rowOf c / 2) + colOf c / 2

/-- The index of a core within its quad (R233). -/
def quadIndex (c : Nat) : Nat := 2 * (rowOf c % 2) + colOf c % 2

/-- The core of an index in a quad (R233). -/
def quadCore (q k : Nat) : Nat := q / 40 * 160 + (2 * (q % 40 / 8) + k % 4 / 2) * 16 + 2 * (q % 8) + k % 2

/-- The coordinates of a core (R121). -/
def coordOf (c : Nat) : Nat := dieOf c * 256 + rowOf c * 16 + colOf c

/-- The core a coordinate register names, none for a ROW above 9 (R121). -/
def coreAt (v : Nat) : Option Nat :=
  if v / 16 % 16 < 10 then some (v / 256 % 4 * 160 + v / 16 % 16 * 16 + v % 16) else none

/-- Extension D stands on quad core index 0 (R233). -/
def hasD (c : Nat) : Bool := quadIndex c == 0

/-! ### Parts of the state -/

/-- A context by its slot. -/
def State.task (s : State) (t : Nat) : Task := tget s.tasks t Task.empty

/-- A context replaced. -/
def State.setTask (s : State) (t : Nat) (x : Task) : State := { s with tasks := tput s.tasks t x }

/-- A context changed by a function. -/
def State.modTask (s : State) (t : Nat) (f : Task → Task) : State := s.setTask t (f (s.task t))

/-- The issuing context. -/
def State.me (s : State) : Task := s.task s.focus

/-- The issuing context changed. -/
def State.onMe (s : State) (f : Task → Task) : State := s.modTask s.focus f

/-- The core of the issuing context. -/
def State.myCore (s : State) : Nat := coreOf s.focus

/-- A core. -/
def State.core (s : State) (c : Nat) : Core := tget s.cores c Core.reset

/-- A core changed. -/
def State.modCore (s : State) (c : Nat) (f : Core → Core) : State := { s with cores := tput s.cores c (f (s.core c)) }

/-- A quad. -/
def State.quad (s : State) (q : Nat) : Quad := tget s.quads q Quad.reset

/-- A quad changed. -/
def State.modQuad (s : State) (q : Nat) (f : Quad → Quad) : State := { s with quads := tput s.quads q (f (s.quad q)) }

/-- A die. -/
def State.die (s : State) (d : Nat) : Die := tget s.dies d Die.reset

/-- A die changed. -/
def State.modDie (s : State) (d : Nat) (f : Die → Die) : State := { s with dies := tput s.dies d (f (s.die d)) }

/-- A job descriptor with nothing in it: no trap entry, no BANKCTL, no quad. -/
def JobDesc.none : JobDesc :=
  ⟨0, 0, 0, 0, false, [], [], [], 320, 16, [], [], [], 0, 0, [], 4096⟩

/-- A job as Tardar holds it; an unknown number has the empty descriptor. -/
def State.job (s : State) (j : Nat) : Job := tget s.jobs j ⟨JobDesc.none, false, 0, []⟩

/-- The job of the issuing context. -/
def State.myJob (s : State) : Job := s.job s.me.job

/-- The address space of a job. -/
def State.asid (s : State) (j : Nat) : Nat := (s.job j).desc.asid.toNat

/-- DIECLK of the die of a core (R350). -/
def State.clock (s : State) (c : Nat) : Word := (s.die (dieOf c)).dieclk

/-- Cycles of the arithmetic clock and ticks of DIECLK pass (R5, R350). -/
def State.pass (s : State) (cycles ns : Nat) : State :=
  let tick (d : Die) : Die := { d with dieclk := d.dieclk + BitVec.ofNat 64 ns }
  if ns = 0 then { s with cycle := s.cycle + cycles }
  else ((((({ s with cycle := s.cycle + cycles } : State).modDie 0 tick).modDie 1 tick).modDie 2 tick).modDie 3 tick)

/-- A notification to Tardar. -/
def State.notify (s : State) (n : Notice) : State := { s with notices := s.notices ++ [n] }

/-- The next choice among n allowed outcomes; the newest or first when none is given (DESIGN CHOICE, log 2). -/
def State.choose (s : State) (n : Nat) : Nat × State :=
  match s.choices with
  | [] => (0, s)
  | c :: r => if n ≤ 1 then (0, s) else (c % n, { s with choices := r })

/-! ### Registers -/

/-- g0 reads as zero (R13). -/
def Task.getG (x : Task) (r : Gpr) : Word := if r = 0 then 0 else x.g[r.toNat]

/-- g0 ignores writes (R13). -/
def Task.setG (x : Task) (r : Gpr) (v : Word) : Task := if r = 0 then x else { x with g := x.g.set r.toNat v }

/-- k0 reads as all ones (R13). -/
def Task.getK (x : Task) (r : Kr) : BitVec 256 := if r = 0 then BitVec.allOnes 256 else x.k[r.toNat]

/-- k0 ignores writes (R13). -/
def Task.setK (x : Task) (r : Kr) (v : BitVec 256) : Task := if r = 0 then x else { x with k := x.k.set r.toNat v }

/-- A leased vector register. -/
def Task.getV (x : Task) (r : Vr) : BitVec 8192 := x.v[r.toNat]

/-- A leased vector register written. -/
def Task.setV (x : Task) (r : Vr) (v : BitVec 8192) : Task := { x with v := x.v.set r.toNat v }

/-- A scalar register of the issuing context. -/
def State.g (s : State) (r : Gpr) : Word := s.me.getG r

/-- A scalar register of the issuing context written. -/
def State.setG (s : State) (r : Gpr) (v : Word) : State := s.onMe (·.setG r v)

/-- The register that stands n after another (R90, R211, R223). -/
def gprPlus (r : Gpr) (n : Nat) : Gpr := r + BitVec.ofNat 6 n

/-- The registers of a lease class (R16). -/
def leaseSize (c : BitVec 2) : Nat := match c.toNat with | 0 => 0 | 1 => 8 | 2 => 16 | _ => 32

/-- A task whose stores and forks wait in its shadow buffer (R111). -/
def Task.buffers (x : Task) : Bool := x.restartable && !x.committed

/-- A surrogate or check task (R226). -/
def Task.guarded (x : Task) : Bool :=
  match x.guard with
  | some (_, _, _, .exact) => false
  | some _ => true
  | none => false

/-- The rounding of the task as it stands (R47, R55). -/
def Task.rnd (x : Task) : Rnd := ⟨x.round, x.seed, x.lcn, x.pos⟩

/-! ### How an instruction ends -/

/-- Why an instruction does not complete. `trap` is precise at the instruction: cause, sub-cause, TRAPVAL, and TRAPINFO where a
rule gives it (R104, R105). `stallFor` waits for a unit among those that wait for it (R198, R211); `routine` is the ARITH trap of a routine's word (R199). `refill` waits for the slot of a restored stream (R220);
`mismatch` is a carried check that fails at the home where a task reads, `badCopy` one in a cached copy (R333), with TRAPINFO where a rule gives it; `absent` holds the TRAPINFO a PAGE trap of the access would give; `dropped` is an access of a service core that its page refuses (R335). -/
inductive Exit where
  | trap (cause sub : Nat) (val : Word) (info : Option Word)
  | arith (raised : Flags) (lane : Nat)
  | routine (raised : Flags) (elem pc : Nat)
  | absent (asid va kind : Nat) (info : Option Word)
  | wait (w : WaitReason)
  | stall
  | stallFor (b : Busy)
  | refill
  | migrate
  | mismatch (loc : Loc) (info : Option Word)
  | badCopy (core : Nat) (loc : Loc) (info : Option Word)
  | dropped (asid va n : Nat)
  deriving DecidableEq, Repr

/-- The bytes of an instruction: 8 for a prefixed one (R59). -/
def instrLen (i : Instr) : Nat := 4 * (encode i).length

/-- The word of an instruction as TRAPVAL holds it, a prefix in bits [63:32] (R74). -/
def wordOf (i : Instr) : Word :=
  match encode i with
  | [w] => w.setWidth 64
  | [p, w] => p ++ w
  | _ => 0

/-- ILLEGAL with the word in TRAPVAL (R74). -/
def illegal (i : Instr) : Exit := .trap 1 0 (wordOf i) none

/-- ILLEGAL with the word in TRAPVAL and a value in TRAPINFO. -/
def illegalInfo (i : Instr) (v : Word) : Exit := .trap 1 0 (wordOf i) (some v)

/-- MISALIGN at an address (R122). -/
def misalign (v : Word) : Exit := .trap 2 0 v none

/-- BOUND for an unbound handle (R14). -/
def unbound (port : Bool) (n : Nat) : Exit := .trap 8 0 (BitVec.ofNat 64 (n + if port then 16 else 0)) none

/-- A check of an instruction: the exit is taken when the condition fails. -/
def need (c : Bool) (e : Exit) : Except Exit Unit := if c then .ok () else .error e

/-- TRAPCAUSE.NEST (R104). -/
def Task.nest (x : Task) : Bool := natBit x.trapCause.toNat 63

/-- The address of the instruction at hand: of the window instruction while a frame runs (R78). -/
def Task.here (x : Task) : Word :=
  match x.frame with
  | some f => (f.window[f.j]?).elim x.pc (·.2.1)
  | none => x.pc

/-- The 56-bit address n bytes on (R88). -/
def pcPlus (pc : Word) (n : Nat) : Word := BitVec.ofNat 64 ((pc.toNat + n) % 2 ^ 56)

/-- An instruction that completes leaves no barrier of its level behind (R286). -/
def Task.leaveBars (x : Task) : Task := { x with bars := x.bars.filter fun b => b.nest != x.nest }

/-- Completion of an instruction of n bytes: the PC moves on (R59), or the repeat frame moves to its next execution (R77). -/
def Task.next (n : Nat) (y : Task) : Task :=
  let x := { y.leaveBars with skipStop := 0, stalled := none, theft := none }
  match x.frame with
  | none => { x with pc := pcPlus x.pc n }
  | some f =>
    if f.j + 1 < f.window.length then
      { x with frame := some { f with j := f.j + 1 }, pc := (f.window[f.j + 1]?).elim x.pc (·.2.1) }
    else if f.i + 1 < f.n then
      { x with frame := some { f with i := f.i + 1, j := 0 }, pc := (f.window[0]?).elim x.pc (·.2.1) }
    else { x with frame := none, pc := pcPlus x.here n }

/-- The issuing instruction of n bytes retires. -/
def State.retire (n : Nat) (s : State) : State := s.onMe (Task.next n)

/-- The wait a task keeps when it is held or halted (R23). -/
def Life.kept : Life → Option WaitReason
  | .waiting w => some w
  | .held w => w
  | .swapped w => w
  | _ => none

/-! ### Trace records (R353, R354) -/

/-- The eight doublewords of a record at its event; LOST and LWRAP are set when the Curator writes it. -/
def State.record (s : State) (die coord slot kind : Nat) (tid : Word) (pay : List Word) : TraceRec :=
  let d := s.die die
  BitVec.ofNat 64 (kind * 2 ^ 56 + die * 2 ^ 54 + coord % 1024 * 2 ^ 44 + slot * 2 ^ 39 + d.lamport.toNat) :: d.dieclk :: tid ::
    (pay ++ List.replicate (5 - pay.length) 0)

/-- Whether the Curator of a die collects a kind. -/
def Die.collects (d : Die) (kind : Nat) : Bool := natBit d.tracectl.toNat 63 && natBit d.tracectl.toNat kind

/-- A dropped record adds 1 to LOST and marks the next record written (R354). -/
def Die.drop (d : Die) : Die := { d with traceLost := d.traceLost + 1, lostSince := true }

/-- The records that a source holds, oldest first (R354): a core by its number, the Transom of quad q as 1000 + q, the collective engine of die d
as 2000 + d, the service core of quadrant q as 3000 + q. -/
def State.traceOf (s : State) (src : Nat) : List TraceRec :=
  if src < 1000 then (s.core src).trace
  else if src < 2000 then (s.quad (src - 1000)).trace
  else if src < 3000 then (s.die (src - 2000)).trace
  else tget s.svcTrace (src - 3000) []

/-- The records of a source replaced. -/
def State.setTrace (s : State) (src : Nat) (l : List TraceRec) : State :=
  if src < 1000 then s.modCore src fun c => { c with trace := l }
  else if src < 2000 then s.modQuad (src - 1000) fun q => { q with trace := l }
  else if src < 3000 then s.modDie (src - 2000) fun d => { d with trace := l }
  else { s with svcTrace := tput s.svcTrace (src - 3000) l }

/-- A record from a source at a router, dropped when its eight places are full (R353, R354). -/
def State.emitFrom (s : State) (src at_ slot kind : Nat) (tid : Word) (pay : List Word) : State :=
  if !(s.die (dieOf at_)).collects kind then s
  else if (s.traceOf src).length < 8 then s.setTrace src (s.traceOf src ++ [s.record (dieOf at_) (coordOf at_) slot kind tid pay])
  else s.modDie (dieOf at_) Die.drop

/-- A record from a core. -/
def State.emit (s : State) (core slot kind : Nat) (tid : Word) (pay : List Word) : State := s.emitFrom core core slot kind tid pay

/-- The source of the records about a context: its core, or its service core. -/
def traceSource (t : Nat) : Nat := if t < 10240 then t / 16 else 3000 + (t - 10240)

/-- SLOT of a record about a context (R353). -/
def traceSlot (t : Nat) : Nat := if t < 10240 then t % 16 else 31

/-- A record about a context. -/
def State.emitTask (s : State) (t kind : Nat) (pay : List Word) : State :=
  s.emitFrom (traceSource t) (coreOf t) (traceSlot t) kind (s.task t).tid pay

/-! ### Port messages and ring handles of a task that leaves (R129, R249, R254) -/

/-- The quad of a port name (R236). -/
def nameQuad (n : Word) : Nat := bits n 22 2 * 40 + bits n 16 6

/-- A message from a core to a Transom (R240), with the phase of the task that sends it (R260). -/
def State.toTransom (s : State) (core quad : Nat) (ph : BitVec 2) (m : PMsg) : State :=
  s.modQuad quad fun q => { q with toT := q.toT ++ [(core, ph, m)] }

/-- A message from a Transom to a core. -/
def State.fromTransom (s : State) (quad core : Nat) (m : PMsg) : State :=
  s.modQuad quad fun q => { q with fromT := q.fromT ++ [(core, m)] }

/-- The offer of a handle is to be withdrawn: it is outstanding, and no WITHDRAW is under way (R254). -/
def PortRef.open_ (r : PortRef) : Bool := r.offered.isSome && !r.asked

/-- WITHDRAW for every outstanding offer of a task (R254). -/
def State.withdrawOffers (s : State) (t : Nat) : State :=
  let x := s.task t
  let s := x.p.toList.foldl (fun s p => match p with
    | some r => if r.open_ then s.toTransom (coreOf t) (nameQuad r.name) x.phase (.withdraw x.tid r.name) else s
    | none => s) s
  s.modTask t fun y => { y with p := y.p.map fun p => p.map fun r => if r.open_ then { r with asked := true } else r }

/-- The release of every port binding of a context on a core (R249); a delivery handle names no binding. -/
def State.freePorts (s : State) (core : Nat) (x : Task) : State :=
  x.p.toList.foldl (fun s p => match p with
    | some r => if r.dlv.isSome then s else s.toTransom core (nameQuad r.name) x.phase (.free x.tid r.name)
    | none => s) s

/-- FILLED of a ring (R128). -/
def Ring.filled (r : Ring) : Nat := (r.tail - r.head).toNat

/-- FREE of a ring (R128). -/
def Ring.free (r : Ring) : Nat := r.cap - r.filled

/-- A ring entry of a core. -/
def State.ring (s : State) (r : RingRef) : Option Ring := vget (s.core r.core).rings r.entry none

/-- A ring entry changed. -/
def State.modRing (s : State) (r : RingRef) (f : Option Ring → Option Ring) : State :=
  s.modCore r.core fun c => { c with rings := vput c.rings r.entry (f (vget c.rings r.entry none)) }

/-- A handle of a ring is released (R129): a task ring is freed with its last handle, a message ring only by an explicit release
that finds FILLED = 0 and no other handle. -/
def dropHandle (explicit : Bool) : Option Ring → Option Ring
  | none => none
  | some r =>
    let h := r.handles - 1
    if h = 0 && (!r.msg || (explicit && r.filled == 0)) then none else some { r with handles := h }

/-- The release of every ring handle of a context. -/
def State.freeRings (s : State) (x : Task) : State :=
  x.q.toList.foldl (fun s q => match q with
    | some r => s.modRing r (dropHandle false)
    | none => s) s

/-! ### Abort of a task's copies as if by `cabort` (R107, R211, R214) -/

/-- A slot's copy marked for abort: the engine issues no further unit. -/
def CopySlot.abort (c : CopySlot) : CopySlot := { c with copy := c.copy.map fun k => { k with aborting := true } }

/-- The active copies of a task are aborted on whatever core they run; they belong to no batch of its replay. -/
def State.abortCopies (s : State) (tid : Word) : State :=
  let stop (k : CopySlot) : CopySlot := { k.abort with copy := k.abort.copy.map fun y => { y with batch := 0 } }
  { s with cores := s.cores.map fun e =>
      (e.1, { e.2 with slots := e.2.slots.map fun k => if k.copy.any (·.tid == tid) then stop k else k }) }

/-! ### Traps (R104, R105, R108, R109) -/

/-- A value of a field that no rule gives (DESIGN CHOICE, log 22). -/
def State.fresh (s : State) : Word × State := (Config.freeWord s.tick, { s with tick := s.tick + 1 })

/-- SUB of a PROTECT trap that no access raises: no rule gives it among the codes of R105 (DESIGN CHOICE, log 22). -/
def State.openSub (s : State) : Nat := (Config.freeWord (2 ^ 64 + s.tick)).toNat % 4

/-- TRAPVAL of a PROTECT trap that names no address (DESIGN CHOICE, log 22). -/
def State.openVal (s : State) : Word := Config.freeWord (2 ^ 65 + s.tick)

/-- PROTECT for a coordinate register that names no core, where no offset goes with it (R121, DESIGN CHOICE, log 22). -/
def State.badCoord (s : State) (reg : Word) : Exit := .trap 4 s.openSub s.openVal (some reg)

/-- TRAPCAUSE with its NEST kept (R104). -/
def causeWord (nest : Bool) (cause sub info : Nat) : Word :=
  BitVec.ofNat 64 ((if nest then 2 ^ 63 else 0) + sub % 256 * 256 + info * 32 + cause)

/-- The four trap registers of a trap (R104); a cause number holds INFO in its bits [7:5]. INFO = 1 with the frame's position for
a window instruction, else the cause's own. An ENGINE interrupt is not raised by a window instruction. -/
def Task.record (x : Task) (pc : Word) (cause sub : Nat) (val info : Word) : Task :=
  match (if cause = 9 then none else x.frame) with
  | some f => { x with
      trapPc := BitVec.ofNat 64 (pc.toNat % 2 ^ 56), trapCause := causeWord x.nest cause sub 1, trapVal := val,
      trapInfo := BitVec.ofNat 64 (f.j % 16 * 2 ^ 48 + f.i % 2 ^ 32) }
  | none => { x with
      trapPc := BitVec.ofNat 64 (pc.toNat % 2 ^ 56), trapCause := causeWord x.nest cause sub 0, trapVal := val,
      trapInfo := info }

/-- A tile's task has ended (R227): 1 as the pass needs it, 2 otherwise; a decision once made stays. -/
def GTile.ended (y : GTile) (r : Role) (n : Nat) : GTile :=
  if y.decided then y
  else match r with
  | .surrogate => { y with sEnd := some n }
  | .check => { y with cEnd := some n }
  | .exact => y

/-- The end of a guarded task noted at its guard entry (R227). -/
def State.markTile (s : State) (x : Task) (n : Nat) (spilled : Bool) : State :=
  match x.guard with
  | some (q, e, tile, r) => s.modQuad q fun k => { k with guards := vput k.guards e ((vget k.guards e none).map fun g =>
      { g with tiles := g.tiles.map fun y => if y.t = tile then { y.ended r n with spilled := y.spilled || (spilled && !y.decided) } else y }) }
  | none => s

/-- Raised flags join FFLAGS at retirement and travel up the flag tree (R51, R52). -/
def State.raise (s : State) (t : Nat) (f : Flags) : State :=
  if f = 0 then s
  else { (s.modTask t fun x => { x with fflags := x.fflags ||| f }) with raises := s.raises ++ [(coreOf t, f)] }

/-- The copy of a task's stream: in its slot, or saved by a halt (R220). -/
def State.streamCopy (s : State) (t : Nat) : Option Copy :=
  (s.task t).stream.bind fun r => match r.saved with
    | some k => some k
    | none => ((vget (s.core (coreOf t)).slots r.slot CopySlot.reset).copy).filter fun y =>
        y.stream.isSome && y.tid == (s.task t).tid

/-- The slot of a stream without its copy: it keeps its last value (R206, R220). -/
def CopySlot.vacate (k : CopySlot) : CopySlot := { k with copy := none, wmk := { k.wmk with act := false, frz := false } }

/-- The slot that serves a task's stream is free. -/
def State.freeStreamSlot (s : State) (t : Nat) : State :=
  match (s.task t).stream, s.streamCopy t with
  | some r, some _ =>
    if r.saved.isSome then s
    else s.modCore (coreOf t) fun c => { c with slots := vput c.slots r.slot (vget c.slots r.slot CopySlot.reset).vacate }
  | _, _ => s

/-- The task's stream is turned off: its slot is free, its conversions' flags are raised (R183, R203, R220). -/
def State.dropStream (s : State) (t : Nat) : State :=
  match (s.task t).stream with
  | none => s
  | some _ =>
    let s := s.raise t ((s.streamCopy t).elim 0 (·.flags))
    (s.freeStreamSlot t).modTask t fun x => { x with stream := none }

/-- A halt or a migration saves a task's stream with its context; a frozen one tries its strip again on restore (R220). -/
def State.saveStream (s : State) (t : Nat) : State :=
  match s.streamCopy t with
  | none => s
  | some k => (s.freeStreamSlot t).modTask t fun x => { x with stream := x.stream.map fun r => { r with saved := some { k with frozen := none } } }

/-- The outputs of the routine command that holds a task have begun to land: nothing but its end stops it (R201). -/
def State.landing (s : State) (t : Nat) : Bool := (s.core (coreOf t)).rcmd.any fun q => q.slot == t && q.landing

/-- A routine command that holds its task is cancelled, without effect (R201). -/
def State.cancelRoutine (s : State) (t : Nat) : State :=
  if (s.task t).engaged then
    (s.modCore (coreOf t) fun c => { c with rcmd := c.rcmd.filter (·.slot != t) }).modTask t fun x => { x with engaged := false }
  else s

/-- A task that waits for one reason issues its instruction again, which tests the condition again (R24, DEDUCED, log 11). -/
def Task.wake (w : WaitReason) (x : Task) : Task := if x.life = .waiting w then { x with life := .running } else x

/-- The waiting tasks that a test picks are woken. -/
def State.wakeWhere (s : State) (w : WaitReason) (p : Nat → Task → Bool) : State :=
  { s with tasks := s.tasks.map fun e => if p e.1 e.2 then (e.1, e.2.wake w) else e }

/-- The task that entered `wait` earliest on each nonzero counter of a core tests it again (R98). -/
def State.wakeWaiters (s : State) (core : Nat) : State :=
  let x := (s.core core).xbar
  s.wakeWhere .event fun t _ => x.waiters.any fun w =>
    w.1 == t && vget x.counters w.2 0 != 0 && ((x.waiters.filter (·.2 == w.2)).head?).all (·.1 == t)

/-- A task leaves the tasks in `wait` (R98). -/
def State.leaveWaiters (s : State) (t : Nat) : State :=
  (s.modCore (coreOf t) fun c => { c with xbar := { c.xbar with waiters := c.xbar.waiters.filter (·.1 != t) } }).wakeWaiters (coreOf t)

/-- The place a D core, or another core, holds for a task that moves is given up (R258). -/
def State.dropMove (s : State) (t : Nat) : State :=
  match (s.task t).moving.bind (·.slot) with
  | some d => (s.setTask d Task.empty).modTask t fun x => { x with moving := none }
  | none => s.modTask t fun x => { x with moving := none }

/-- The task goes to Retired (R23, R102, R254): offers are withdrawn, the stream ends; `how` is 0 for an end of its own. -/
def State.endTask (s : State) (t how mark : Nat) : State :=
  let s := ((s.cancelRoutine t).leaveWaiters t).dropMove t
  (((s.withdrawOffers t).dropStream t).markTile (s.task t) mark false).modTask t fun x => { x with
    life := .retired, how := how, frame := none, portWait := none, halt := none, reply := none }

/-- The task goes to Retired with poison (R109): its uncommitted shadow buffer is discarded; `how` is 1 for KILL, 2 for a fatal
trap. -/
def State.poisonEnd (s : State) (t how : Nat) : State :=
  (s.endTask t how 2).modTask t fun x => { x with shadow := if x.buffers then [] else x.shadow }

/-- Delivery of a trap to a task at an address (R108): to the debugger, fatally (R109), or to the job trap entry. A release that waits is
left: its instruction makes it anew when it issues again, after what the entry issued (R278). -/
def State.deliver (s : State) (t : Nat) (pc : Word) (cause sub : Nat) (val : Word) (info : Option Word) : State :=
  let x := s.task t
  let j := s.job x.job
  let (iv, s) : Word × State := match info with
    | some v => (v, s)
    | none => s.fresh
  let y := x.record pc cause sub val iv
  let s := s.emitTask t 4 [y.trapCause, y.trapPc, y.trapVal, y.trapInfo]
  if j.debugger && (cause == 10 || cause == 12) then
    s.setTask t { y with
      life := .held x.life.kept, holdDbg := true, pc := if x.frame.isNone then y.trapPc else x.pc,
      skipStop := if cause = 12 then x.skipStop ||| 2 else if sub = 1 then x.skipStop ||| 1 else 0 }
  else if x.nest || j.desc.trapEntry == 0 then
    let s := (s.setTask t y).notify (.fatal y.tid.toNat y.trapCause.toNat y.trapPc.toNat y.trapVal.toNat y.trapInfo.toNat)
    if j.debugger then s.modTask t fun z => { z with life := .held z.life.kept, holdDbg := true, pendingTrap := none }
    else s.poisonEnd t 2
  else
    (s.setTask t { y with
      trapCause := y.trapCause ||| (1 : Word) <<< 63, frame := none, frameAside := y.frame, life := .running, portWait := none,
      skipStop := 0, stalled := none, theft := none, view := { y.view with relStarted := false }, pc := BitVec.ofNat 64 (j.desc.trapEntry.toNat % 2 ^ 56) }).leaveWaiters t

/-- A return from the trap entry (R110): PC := TRAPPC, NEST := 0, the frame set aside is restored; a stop at the instruction it returns to
is still to be reported (R114). -/
def Task.leaveTrap (x : Task) : Task :=
  { x.leaveBars with
    pc := BitVec.ofNat 64 (x.trapPc.toNat % 2 ^ 56), trapCause := x.trapCause &&& ~~~((1 : Word) <<< 63), skipStop := 0,
    frame := x.frameAside, frameAside := none }

/-! ### Missing pages (R106, R327) -/

/-- The page number of an address, by its class (R319). -/
def pageShift (va : Nat) : Nat := match va / 2 ^ 54 % 4 with | 1 => 21 | 2 => 30 | _ => 16

/-- The first byte of the page of an address. -/
def pageBase (va : Nat) : Nat := va / 2 ^ pageShift va * 2 ^ pageShift va

/-- The address space an address is looked up in: 0 for class 3 (R319). -/
def spaceOf (asid va : Nat) : Nat := if va / 2 ^ 54 % 4 = 3 then 0 else asid

/-- Requests for one page are merged into one entry of Tardar's fault queue, with the address, the address space and the kind of the first access
(R327). -/
def State.askPage (s : State) (asid va kind : Nat) : State :=
  let a := spaceOf asid va
  let mine (e : Nat × Nat × Nat) : Bool := e.1 == a && e.2.1 / 2 ^ 54 % 4 == va / 2 ^ 54 % 4 && pageBase (e.2.1 % 2 ^ 56) == pageBase (va % 2 ^ 56)
  if s.faultQ.any mine then s else { s with faultQ := s.faultQ ++ [(a, va % 2 ^ 56, kind)] }

/-- A write enters the network (R276 Drain). -/
def State.toPath (s : State) (w : Write) : State := { s with path := s.path ++ [{ w with sent := s.nextId }], nextId := s.nextId + 1 }

/-- The store-buffer entries of a context that leaves its slot are sent (R276 Drain). -/
def State.drainAll (s : State) (t : Nat) : State :=
  ((s.task t).sb.foldl State.toPath s).modTask t fun x => { x with sb := [] }

/-- The owner a task's matrix commands belong to: its team, else itself (R166). -/
def Task.owner (x : Task) : Bool × Nat := match x.team with | some e => (true, e.1) | none => (false, x.tid.toNat)

/-- The engines that an owner holds are released, each once its queue lets it (R166); an abort's replay holds none of them (R184). -/
def State.releaseOwned (s : State) (o : Bool × Nat) (aborted : Bool) : State :=
  { s with cores := s.cores.map fun e =>
      if e.2.mx.owner = some o then
        (e.1, { e.2 with mx := { e.2.mx with releasing := true, orphan := e.2.mx.orphan || aborted } }) else e }

/-- A task leaves its slot without an end (R106, R107): handles and bindings are released, nothing is undone. For a task of a team the engines that
the team owns are released on every core (R166, DESIGN CHOICE, log 117). -/
def State.vacate (s : State) (t : Nat) : State :=
  let x := s.task t
  let s := (((((((s.cancelRoutine t).leaveWaiters t).withdrawOffers t).freePorts (coreOf t) x).freeRings x).drainAll t).releaseOwned x.owner true)
  (s.abortCopies x.tid).setTask t Task.empty

/-- The input snapshot of a task, marked as requeued, waiting for a page or kept from a failed core (R106, R107). -/
def Task.requeue (x : Task) (page : Option (Nat × Nat)) (avoid : Option Nat) : Option Trigger :=
  x.snapshot.map fun g => { g with
    src := .requeue, tid := x.tid, lcn := some x.lcn, page := page, avoid := avoid, brk := x.brk, watch := x.watch }

/-- The guard entry of a tile puts the tile back ahead of the others (R226). -/
def Guard.redoTile (g : Guard) (r : Redo) : Guard :=
  { g with redo := g.redo ++ [r], tiles := g.tiles.filter (·.t != r.tile) }

/-- A task of the pair of a tile, in one of two roles (R224). -/
def Task.ofPair (x : Task) (q e tile : Nat) (r : Role) : Bool := x.guard == some (q, e, tile, r) && x.life != .free

/-- The contexts in slots of the pair of a tile. -/
def State.pairSlots (s : State) (q e tile : Nat) : List Nat :=
  (s.tasks.filter fun c => c.2.ofPair q e tile .surrogate || c.2.ofPair q e tile .check).map (·.1)

/-- The task of a pair in a role, in a slot or swapped. -/
def State.pairTask (s : State) (q e tile : Nat) (r : Role) : Option Task :=
  (s.tasks.map (·.2) ++ s.swaps.map (·.task)).find? fun x => x.ofPair q e tile r

/-- Some swapped tasks leave memory: their handles and bindings are released. -/
def State.dropSwapped (s : State) (p : Task → Bool) : State :=
  (s.swaps.filter fun w => p w.task).foldl (fun s w => (s.freePorts w.core w.task).freeRings w.task)
    { s with swaps := s.swaps.filter fun w => !p w.task }

/-- Some swapped tasks are aborted where they are (R107): the copies they submitted end as if by `cabort`. -/
def State.abortSwapped (s : State) (p : Task → Bool) : State :=
  ((s.swaps.filter fun w => p w.task).foldl (fun s w => s.abortCopies w.task.tid) s).dropSwapped p

/-- Both tasks of a tile's pair are gone from their slots and from memory (R226). -/
def State.dropPair (s : State) (q e tile : Nat) : State :=
  ((s.pairSlots q e tile).foldl (fun s u => s.vacate u) s).abortSwapped fun x =>
    x.ofPair q e tile .surrogate || x.ofPair q e tile .check

/-- The pair of a tile runs again (R226): both tasks leave, and their snapshots wait at the guard entry. -/
def State.redoPair (s : State) (q e tile : Nat) (page : Option (Nat × Nat)) (avoid : Option Nat) : State :=
  let sur := (s.pairTask q e tile .surrogate).bind (·.requeue page avoid)
  let chk := (s.pairTask q e tile .check).bind (·.requeue page avoid)
  match sur, chk with
  | some a, some b => (s.dropPair q e tile).modQuad q fun k => { k with
      guards := vput k.guards e ((vget k.guards e none).map (·.redoTile ⟨tile, page, a, b⟩)) }
  | _, _ => s.dropPair q e tile

/-- The ABORT records of both tasks of a pair, wherever they are (R353). -/
def State.emitPair (s : State) (q e tile : Nat) (pay : List Word) : State :=
  let s := (s.pairSlots q e tile).foldl (fun s u => s.emitTask u 3 pay) s
  (s.swaps.filter fun w => w.task.ofPair q e tile .surrogate || w.task.ofPair q e tile .check).foldl
    (fun s w => s.emit w.core 31 3 w.task.tid pay) s

/-- A restartable task that has not committed is aborted (R106), or re-executed (R107): its buffer is discarded and its snapshot
requeued; both tasks of a guarded pair go together (R226). `at_` is the faulting address. -/
def State.abort (s : State) (t : Nat) (page : Option (Nat × Nat)) (avoid : Option Nat) (at_ : Nat) : State :=
  let x := s.task t
  let pay : List Word := [if avoid.isNone then 0 else 1, BitVec.ofNat 64 at_]
  match (if x.guarded then x.guard else none) with
  | some (q, e, tile, _) => (s.emitPair q e tile pay).redoPair q e tile page avoid
  | none =>
    let back := x.requeue page avoid
    ((s.emitTask t 3 pay).vacate t).modCore (coreOf t) fun c => { c with mailbox := c.mailbox ++ back.toList }

/-- An absent page (R106): the request goes to Tardar; the task is aborted or parked. -/
def State.absentPage (s : State) (t asid va kind : Nat) (info : Option Word) : State :=
  let s := s.askPage asid va kind
  if (s.task t).buffers then s.abort t (some (spaceOf asid va, pageBase va)) none va
  else s.modTask t fun x => { x with life := .parked (spaceOf asid va) va kind info }

/-! ### Migration (R75, R258, R302) -/

/-- The task stops before the instruction and asks the core for admission; its offers are withdrawn (R258, steps 1 and 2). -/
def State.startMigration (s : State) (t dest : Nat) (byD : Bool) : State :=
  let s := (s.emitTask t 7 [BitVec.ofNat 64 (coordOf (coreOf t)), BitVec.ofNat 64 (coordOf dest), if byD then 0 else 1]).withdrawOffers t
  { s.modTask t fun x => { x with moving := some ⟨dest, none, s.nextId⟩ } with nextId := s.nextId + 1 }

/-! ### Carried checks (R331, R333) -/

/-- A set of sectors with one more. -/
def addSector (l : List Nat) (n : Nat) : List Nat := if l.contains n then l else n :: l

/-- The key of an L2 line: address space and line number (R265). -/
def lineKey (asid va : Nat) : Nat := spaceOf asid va * 2 ^ 48 + va % 2 ^ 56 / 256

/-- The sector of a location is poisoned where it was read from (R333). -/
def State.poisonAt (s : State) : Loc → State
  | .bank c off => s.modCore c fun k => { k with mem := { k.mem with
      poison := addSector k.mem.poison (off / 64), badCheck := k.mem.badCheck.filter (·.1 != off / 64) } }
  | .glob a va =>
    match tfind s.l2 (lineKey a va) with
    | some l => { s with l2 := tput s.l2 (lineKey a va) { l with
        poison := l.poison ||| (1 : BitVec 4) <<< (va / 64 % 4), syn := l.syn &&& ~~~((0xFFFF : BitVec 64) <<< (16 * (va / 64 % 4))) } }
    | none => s

/-- The address of a location within its space. -/
def Loc.addr : Loc → Nat
  | .glob _ va => va
  | .bank _ off => off

/-! ### Acceptance of a copy (R205, R206, R211) -/

/-- The identifier of a copy (R211). -/
def copyIdent (core gen slot : Nat) : Word := BitVec.ofNat 64 (coordOf core * 2 ^ 17 + 2 ^ 16 + gen * 8 + slot)

/-- The lowest free copy slot of a core. -/
def Core.freeSlot (c : Core) : Option Nat := (List.range 8).find? fun n => ((vget c.slots n CopySlot.reset).copy).isNone

/-- A copy joins the open batch of its task (R215). -/
def Task.joinBatch (x : Task) : Task := { x with batchOpen := x.batchOpen + 1 }

/-- The receivers of a copy that take an inbound entry, numbered (R207, R217). -/
def Copy.targets (k : Copy) : List (Nat × Nat) :=
  match k.multi with
  | some m => m.cores.zipIdx
  | none => if k.dsp = 2 then [(k.dcoord, 0)] else []

/-- A copy claims a slot and is active from then on; its engine learns what its task knows (R211): its identifier, or none when every slot is
taken. A ring destination and a stream count what they have landed (R206). -/
def State.claimCopy (s : State) (t : Nat) (k : Copy) : Option (Word × State) :=
  let core := coreOf t
  (s.core core).freeSlot.map fun n =>
    let c := s.core core
    let gen := (vget c.slots n CopySlot.reset).gen + 1
    let ident := copyIdent core gen.toNat n
    let k := { k with ident := ident, requested := k.multi.isNone, order := s.nextId }
    let counts := k.dsp == 3 || k.stream.isSome
    let reg : WmkReg := ⟨true, false, !k.ordered, false, k.stream.isSome, if counts then BitVec.ofNat 56 k.landed else BitVec.ofNat 56 k.dlo⟩
    let s := { s with nextId := s.nextId + 1 }.modCore core fun c => { c with
      slots := vput c.slots n ⟨reg, gen, some k⟩, copyKnown := union (s.task t).view.known c.copyKnown }
    (ident, k.targets.foldl (fun s r => s.modCore r.1 fun c => { c with inboundWait := c.inboundWait ++ [(core, n, r.2)] }) s)

/-- A restored stream claims a slot of its core where one is free; it needs no second token (R220, R230). -/
def State.refillStream (s : State) (t : Nat) : State :=
  match (s.task t).stream.bind (·.saved) with
  | none => s
  | some k => match s.claimCopy t k with
    | none => s
    | some (ident, s) => s.modTask t fun x => { x with stream := x.stream.map fun r =>
        { r with slot := ident.toNat % 8, saved := none } }

/-- The streams that wait for a slot on a core go on, in the order of its contexts, while one is free (R220). -/
def State.refillStreams (s : State) (core : Nat) : State :=
  (s.tasks.map (·.1)).foldl (fun s t => if coreOf t = core then s.refillStream t else s) s

/-! ### Contexts by identifier (R26) -/

/-- A context by TASKID, in a slot. -/
def State.findTid (s : State) (tid : Word) : Option Nat :=
  if tid = 0 then none else (s.tasks.find? fun e => e.2.tid == tid && e.2.life != .free).map (·.1)

/-- A task changed wherever its context is: in a slot or saved (R26). -/
def State.modByTid (s : State) (tid : Word) (f : Task → Task) : State :=
  { s with
    tasks := s.tasks.map fun e => if e.2.tid = tid ∧ e.2.life ≠ .free then (e.1, f e.2) else e,
    swaps := s.swaps.map fun w => if w.task.tid = tid then { w with task := f w.task } else w }

end Sys2Proof.Machine
end

