-- ==== Sys2Proof/Machine/Memory.lean ====
section
/-! DEFINITION. Memory as the machine holds it: bank roles, page walk and attribute check, L2 lines over HBM, carried checks,
watched ranges, and the moves of the ordering machine on one location: issue, read, arrive, atomic (R115-R127, R207, R265-R267,
R275-R281, R318-R333). -/

namespace Sys2Proof.Machine

/-! ### Bank roles (R115-R117) -/

/-- The bytes of a core's banks. -/
def bankBytes : Nat := 0x180000

/-- The role of a bank (R116): 0 Scratch, 1 Cache, 2 FIFO, 3 Shadow. -/
def Core.role (c : Core) (bank : Nat) : Nat := c.bankmap.toNat / 4 ^ bank % 4

/-- Whether a byte of the banks may be read (R117). -/
def Core.readable (c : Core) (off : Nat) : Bool :=
  decide (off < bankBytes) && (c.role (off / 4096) == 0 || c.role (off / 4096) == 2)

/-- Whether a byte of the banks may be written (R117). -/
def Core.writable (c : Core) (off : Nat) : Bool := decide (off < bankBytes) && c.role (off / 4096) == 0

/-- The lowest byte of an access that its bank refuses (R117). -/
def Core.refused (c : Core) (store : Bool) (off n : Nat) : Option Nat :=
  firstBad (if store then c.writable else c.readable) off n

/-! ### Pages (R318-R324) -/

/-- The home stack of a page (R320). -/
def homeStack (va : Nat) : Nat :=
  let v := va % 2 ^ 56 / 2 ^ pageShift va
  (v % 4096 ^^^ v / 4096 % 4096 ^^^ v / 2 ^ 24 % 4096 ^^^ v / 2 ^ 36 % 16) % 12

/-- The index groups of a class, top first: low bit and width (R321). -/
def pageGroups : Nat → List (Nat × Nat)
  | 1 => [(48, 6), (39, 9), (30, 9), (21, 9)]
  | 2 => [(48, 6), (39, 9), (30, 9)]
  | _ => [(52, 2), (43, 9), (34, 9), (25, 9), (16, 9)]

/-- What a walk finds (R321, R322): KIND 0 invalid, 1 absent, 2 present, the leaf, and the address of a malformed entry. -/
structure Walk where
  kind : Nat
  pte : Word
  bad : Option Nat
  deriving DecidableEq, Repr

/-- FRAME as a physical address (R322). -/
def frameOf (e : Word) : Nat := bits e 12 28 * 4096

/-- A malformed entry (R322): reserved bits, a frame on another stack, a directory with permissions, a misaligned leaf frame. -/
def malformed (stack : Nat) (leafShift : Option Nat) (e : Word) : Bool :=
  bits e 40 20 != 0 || bits e 4 8 != 0 || bits e 0 1 != 0 || frameOf e / 2 ^ 36 != stack ||
    (match leafShift with
     | some p => frameOf e % 2 ^ p != 0
     | none => bits e 1 3 != 0)

/-- An entry read by the walker, from the stack that holds it. -/
def entryAt (m : Memory) (pa : Nat) : Word := leWord (m.bytes pa 8)

/-- The walk from an entry at a physical address down the remaining index groups (R321). -/
def walkFrom (m : Memory) (stack va : Nat) : List (Nat × Nat) → Nat → Walk
  | [], pa =>
    let e := entryAt m pa
    if bits e 62 2 = 1 then ⟨1, e, none⟩
    else if bits e 62 2 ≠ 2 then ⟨0, e, none⟩
    else if malformed stack (some (pageShift va)) e then ⟨0, e, some pa⟩
    else ⟨2, e, none⟩
  | (lo, n) :: r, pa =>
    let e := entryAt m pa
    if bits e 62 2 = 1 then ⟨1, e, none⟩
    else if bits e 62 2 ≠ 2 then ⟨0, e, none⟩
    else if malformed stack none e then ⟨0, e, some pa⟩
    else walkFrom m stack va r (frameOf e + 8 * (va / 2 ^ lo % 2 ^ n))

/-- The page class of an address (R319). -/
def pageClass (va : Nat) : Nat := va / 2 ^ 54 % 4

/-- The walk of an address in an address space (R321). -/
def State.walk (s : State) (asid va : Nat) : Walk :=
  walkFrom s.hbm (homeStack va) va (pageGroups (pageClass va))
    (homeStack va * 2 ^ 36 + 32 * spaceOf asid va + 8 * pageClass va)

/-- The leaf of an address: from the stack port's TLB when it holds one, else by a walk (R324). -/
def State.translate (s : State) (asid va : Nat) : Walk :=
  match (tget s.tlbs (homeStack va) []).find? fun e =>
      e.asid == spaceOf asid va && e.cls == pageClass va && e.vpn == va % 2 ^ 56 / 2 ^ pageShift va with
  | some e => ⟨2, e.pte, none⟩
  | none => s.walk asid va

/-- The physical address of a byte of a present page. -/
def physical (pte : Word) (va : Nat) : Nat := frameOf pte + va % 2 ^ pageShift va

/-- A malformed entry on the walk is reported (R322). -/
def State.noteMalformed (s : State) (w : Walk) : State :=
  match w.bad with
  | some pa => s.notify (.malformedEntry pa)
  | none => s

/-- A present leaf joins the TLB of its home stack's port: 4,096 entries, the oldest replaced (R324, DESIGN CHOICE, log 12). -/
def State.fillTlb (s : State) (asid va : Nat) (pte : Word) : State :=
  let e : TlbEntry := ⟨spaceOf asid va, pageClass va, va % 2 ^ 56 / 2 ^ pageShift va, pte⟩
  let l := tget s.tlbs (homeStack va) []
  if l.contains e then s else { s with tlbs := tput s.tlbs (homeStack va) ((e :: l).take 4096) }

/-- An L2 slice translates for a line that it allocates, fills or writes back: the leaf joins its port's TLB; where the page is not there, Tardar
is told (R324). -/
def State.sliceAsk (s : State) (asid va : Nat) : State :=
  let w := s.translate asid va
  if w.kind = 2 then s.fillTlb asid va w.pte else (s.noteMalformed w).notify (.staleTranslation (spaceOf asid va) va)

/-- The place of the access-counter record of a frame: the stacks' reserved areas hold them in the order of the frames (R318, R328, DEDUCED,
log 96). -/
def recordPa (frame : Nat) : Nat := frame / 2 ^ 20 * 2 ^ 36 + 0x200000 + 8 * (frame % 2 ^ 20)

/-- The access-counter record of a frame (R328). -/
def State.counterOf (s : State) (frame : Nat) : Word := leWord (s.hbm.bytes (recordPa frame) 8)

/-- An access-counter record replaced. -/
def State.putRecord (s : State) (frame : Nat) (r : Word) : State := { s with hbm := s.hbm.putBytes (recordPa frame) (natBytes r.toNat 8) }

/-- An attribute entry of an address as the home stack's port answers it (R323). -/
def State.attrOf (s : State) (asid va : Nat) : Attr :=
  let w := s.translate asid va
  ⟨spaceOf asid va, pageClass va, va % 2 ^ 56 / 2 ^ pageShift va, w.kind, natBit w.pte.toNat 1, natBit w.pte.toNat 2, natBit w.pte.toNat 3⟩

/-- The same page. -/
def Attr.same (a b : Attr) : Bool := a.asid == b.asid && a.cls == b.cls && a.vpn == b.vpn

/-- The attributes of an address at a unit: cached, else asked for (R323). -/
def State.attr (s : State) (unit asid va : Nat) : Attr :=
  let q := s.attrOf asid va
  ((tget s.attrs unit []).find? q.same).getD q

/-- The unit's attribute cache after it holds the entry of an address: 256 entries, the oldest replaced (R323, DESIGN CHOICE, log 12). -/
def State.fillAttr (s : State) (unit asid va : Nat) : State :=
  let q := s.attrOf asid va
  let l := tget s.attrs unit []
  if l.any q.same then s else { s with attrs := tput s.attrs unit ((q :: l).take 256) }

/-- The unit that checks a task's accesses: its core, or its service core (R323). -/
def unitOf (t : Nat) : Nat := if t < 10240 then t / 16 else 644 + (t - 10240)

/-- The check of R323 for one address: which of R, W, X it needs, and the SUB of R105. -/
def checkAttr (a : Attr) (r w x : Bool) (asid va kind : Nat) : Except Exit Unit :=
  if a.kind = 2 then need ((!r || a.r) && (!w || a.w) && (!x || a.x)) (.trap 4 kind (BitVec.ofNat 64 (va % 2 ^ 56)) none)
  else if a.kind = 1 then .error (.absent asid va kind none)
  else .error (.trap 3 kind (BitVec.ofNat 64 (va % 2 ^ 56)) none)

/-- The addresses at which a range meets its pages: its first byte, and the first byte of each later 64 KiB boundary. -/
def pageStarts (va n : Nat) : List Nat :=
  va :: (List.range ((va % 65536 + n - 1) / 65536)).map fun i => (va / 65536 + i + 1) * 65536

/-- The check of R323 over a range. -/
def State.checkPages (s : State) (unit asid : Nat) (r w x : Bool) (kind va n : Nat) : Except Exit Unit :=
  if n = 0 then .ok ()
  else (pageStarts va n).foldlM (fun _ a => checkAttr (s.attr unit asid a) r w x asid a kind) ()

/-- The malformed entries that the walks for a range meet are reported (R322). -/
def State.notePages (s : State) (asid va n : Nat) : State :=
  if n = 0 then s else (pageStarts va n).foldl (fun s a => s.noteMalformed (s.translate asid a)) s

/-- The attribute cache after an access to a range. -/
def State.fillPages (s : State) (unit asid va n : Nat) : State :=
  if n = 0 then s else (pageStarts va n).foldl (fun s a => s.fillAttr unit asid a) s

/-! ### Home slices (R267) -/

/-- The partition of an address space in partitioned mode (R267), from the job that owns it. -/
def State.partitionOf (s : State) (asid : Nat) : Nat :=
  ((s.jobs.find? fun e => e.2.desc.asid.toNat == asid).map (·.2.desc.partition)).getD 0

/-- The home slice of an address (R267). -/
def State.homeSlice (s : State) (asid va : Nat) : Nat :=
  let a := spaceOf asid va
  let ln := va % 2 ^ 56 / 256
  let x := ln ^^^ a
  let h := x % 128 ^^^ x / 2 ^ 7 % 128 ^^^ x / 2 ^ 14 % 128 ^^^ x / 2 ^ 21 % 128 ^^^ x / 2 ^ 28 % 128 ^^^ x / 2 ^ 35 % 128 ^^^ x / 2 ^ 42 % 64
  let n := 128 * ((ln + a) % 3) + h
  if s.l2Partitioned && va / 2 ^ 54 % 4 ≠ 3 then 24 * s.partitionOf asid + n % 24 else n

/-! ### Carried checks (R331) -/

/-- One bit shifted into a CRC-16 of polynomial 0x1021. -/
def crcBit (c : BitVec 16) (b : Bool) : BitVec 16 := if c.getLsbD 15 != b then (c <<< 1) ^^^ 0x1021 else c <<< 1

/-- A byte shifted in, its most significant bit first. -/
def crcByte (c : BitVec 16) (b : Byte) : BitVec 16 := [7, 6, 5, 4, 3, 2, 1, 0].foldl (fun c i => crcBit c (b.getLsbD i)) c

/-- The carried check of bytes in ascending address order (R331). -/
def crc16 (bs : List Byte) : BitVec 16 := bs.foldl crcByte 0xFFFF

/-! ### L2 lines over HBM (R265, R266, R324, R331-R333) -/

/-- A byte of a line. -/
def Line.byte (l : Line) (i : Nat) : Byte := l.data.extractLsb' (8 * i) 8

/-- Whether the word of a byte holds data. -/
def Line.has (l : Line) (i : Nat) : Bool := l.mask.getLsbD (i / 4)

/-- A byte of a line written. -/
def Line.put (l : Line) (i : Nat) (b : Byte) : Line :=
  { l with data := l.data &&& ~~~((0xFF : BitVec 2048) <<< (8 * i)) ||| b.setWidth 2048 <<< (8 * i) }

/-- A sector's bytes as its check counts them: a word that holds no data counts as zeros (R331). -/
def Line.sector (l : Line) (sec : Nat) : List Byte :=
  (List.range 64).map fun i => if l.has (64 * sec + i) then l.byte (64 * sec + i) else 0

/-- The carried check of a sector (R265, R331). -/
def Line.check (l : Line) (sec : Nat) : BitVec 16 := crc16 (l.sector sec) ^^^ l.syn.extractLsb' (16 * sec) 16

/-- The carried check of a sector does not match its bytes. -/
def Line.bad (l : Line) (sec : Nat) : Bool := bits l.syn (16 * sec) 16 != 0

/-- A sector with a new check, made from its bytes. -/
def Line.recheck (l : Line) (sec : Nat) : Line := { l with syn := l.syn &&& ~~~((0xFFFF : BitVec 64) <<< (16 * sec)) }

/-- The line of an address. -/
def State.line (s : State) (asid va : Nat) : Line := tget s.l2 (lineKey asid va) Line.invalid

/-- The HBM byte of an address; 0 where its page is not present (the fill is then poisoned, R324). -/
def State.backByte (s : State) (asid va : Nat) : Byte :=
  let w := s.translate asid va
  if w.kind = 2 then s.hbm.byte (physical w.pte va) else 0

/-- A sector read from HBM is poisoned: the stack's marker, or a page that is not present (R324, R333). -/
def State.backPoison (s : State) (asid va : Nat) : Bool :=
  let w := s.translate asid va
  if w.kind = 2 then s.hbm.poison.contains (physical w.pte va / 64) else true

/-- The replicas and redirects of a line go with it (R269, R270). -/
def State.dropReplicas (s : State) (key : Nat) : State :=
  { s with
    dies := s.dies.map fun e => (e.1, { e.2 with replicas := e.2.replicas.filter (·.1 != key) }),
    cores := s.cores.map fun e => (e.1, { e.2 with redirects := e.2.redirects.filter (· != key) }) }

/-- The units that hold a replica or a redirect of a line (R270). -/
def State.replicaUnits (s : State) (key : Nat) : List Nat :=
  (s.cores.filter fun e => e.2.redirects.contains key).map (·.1) ++
    (s.dies.flatMap fun e => (e.2.replicas.filter (·.1 == key)).flatMap fun r => r.2.map fun h => 1000 + 4 * e.1 + h)

/-- A withdrawal of a line begins at its home die; with nothing to withdraw it is over at once (R270). -/
def State.startWithdraw (s : State) (asid va : Nat) : State :=
  let key := lineKey asid va
  let us := s.replicaUnits key
  if us = [] then s.dropReplicas key
  else s.modDie (s.homeSlice asid va / 96) fun d => if d.withdrawing.any (·.1 == key) then d else { d with withdrawing := d.withdrawing ++ [(key, us)] }

/-- The withdrawal of a location's line begins (R270). -/
def State.withdrawLoc (s : State) (l : Loc) : State :=
  match l with
  | .glob a va => s.startWithdraw a va
  | .bank _ _ => s

/-- The line of a location is replicated, so that a write waits at its home (R270). -/
def State.replicated (s : State) : Loc → Bool
  | .glob a va => s.dies.any fun e => e.2.replicas.any (·.1 == lineKey a va)
  | .bank _ _ => false

/-! ### Peer pages (R344, R345, R349) -/

/-- The entry of a peer page in the peer table of its home stack's port (R344). -/
def State.peerOf (s : State) (asid va : Nat) : Option Peer :=
  (tget s.peers (homeStack va) []).find? fun e =>
    e.asid == spaceOf asid va && e.cls == pageClass va && e.vpn == va % 2 ^ 56 / 2 ^ pageShift va

/-- The members of a peer page that this package reaches. -/
def State.reached (s : State) (p : Peer) : List Nat := p.members.filter fun m => !s.unreachable.contains m

/-- The member with the fewest switch hops, ties going to the lowest number (R345). -/
def nearest (pkg : Nat) : List Nat → Option Nat
  | [] => none
  | m :: r => match nearest pkg r with
    | none => some m
    | some n =>
      let a := Config.hops pkg m
      let b := Config.hops pkg n
      if a < b ∨ (a = b ∧ m ≤ n) then some m else some n

/-- A location of a peer page of which no member can be reached (R349). -/
def State.unserved (s : State) : Loc → Bool
  | .glob a va => (s.peerOf a va).any fun p => (s.reached p).isEmpty
  | .bank _ _ => false

/-- Tardar learns of a request that no member can take (R349): the page's first member is named. -/
def State.notifyLost (s : State) : Loc → State
  | .glob a va => ((s.peerOf a va).bind fun p => p.members.head?).elim s fun m => s.notify (.unreachable m)
  | .bank _ _ => s

/-- A byte's place in another package's memory. -/
def peerKey (asid va : Nat) : Nat := spaceOf asid va * 2 ^ 56 + va % 2 ^ 56

/-- The package that serves a load of a peer page when this one is no member: the nearest it reaches (R345, R349). -/
def State.farMember (s : State) (asid va : Nat) : Option (Option Nat) :=
  (s.peerOf asid va).bind fun p => if p.members.contains s.pkg then none else some (nearest s.pkg (s.reached p))

/-- The byte of a location at its home: the L2 word, else HBM; the bank; or the member that serves a peer page (R275, R345). -/
def State.homeByte (s : State) : Loc → Byte
  | .bank c off => (s.core c).mem.byte off
  | .glob a va => match s.farMember a va with
    | some m => m.elim 0 fun m => (tget s.peerMem m Memory.empty).byte (peerKey a va)
    | none => let l := s.line a va; if l.has (va % 256) then l.byte (va % 256) else s.backByte a va

/-- A location some bytes on; a global one stays in its 56-bit space. -/
def Loc.plus (l : Loc) (n : Nat) : Loc :=
  match l with
  | .glob a va => .glob a ((va + n) % 2 ^ 56)
  | .bank c off => .bank c (off + n)

/-- The bytes at the home from a location on. -/
def State.homeBytes (s : State) (l : Loc) (n : Nat) : List Byte := (List.range n).map fun i => s.homeByte (l.plus i)

/-- The state of a location's sector (R333): 0 sound, 1 poisoned, 2 its carried check does not match. -/
def State.sectorState (s : State) : Loc → Nat
  | .bank c off => if (s.core c).mem.poison.contains (off / 64) then 1 else if (s.core c).mem.badCheck.any (·.1 == off / 64) then 2 else 0
  | .glob a va =>
    let l := s.line a va
    if let some m := s.farMember a va then m.elim 1 fun m =>
      let f := tget s.peerMem m Memory.empty
      if f.poison.contains (peerKey a va / 64) then 1 else if f.badCheck.any (·.1 == peerKey a va / 64) then 2 else 0
    else if l.poison.getLsbD (va / 64 % 4) then 1
    else if l.bad (va / 64 % 4) then 2
    else if !l.has (va % 256) && s.backPoison a va then 1
    else 0

/-- The bytes at which a range enters its sectors. -/
def sectorStarts (a n : Nat) : List Nat :=
  if n = 0 then [] else 0 :: (List.range ((a % 64 + n - 1) / 64)).map fun i => (a / 64 + i + 1) * 64 - a

/-- The sector of a peer page's location poisoned at the other members that are reached. -/
def State.poisonPeers (s : State) : Loc → State
  | .bank _ _ => s
  | .glob a va => match s.peerOf a va with
    | none => s
    | some p => (s.reached p).foldl (fun s m => if m = s.pkg then s else
        let f := tget s.peerMem m Memory.empty
        { s with peerMem := tput s.peerMem m { f with poison := addSector f.poison (peerKey a va / 64) } }) s

/-- The sectors of a range that bad data has reached are poisoned there (R333). -/
def State.poisonRange (s : State) (l : Loc) (n : Nat) : State :=
  (sectorStarts l.addr n).foldl (fun s i => (s.poisonAt (l.plus i)).poisonPeers (l.plus i)) s

/-- A task's read consumes its sectors: INTEGRITY where one is poisoned or does not match (R333). -/
def State.checkSectors (s : State) (l : Loc) (n : Nat) : Except Exit Unit :=
  (sectorStarts l.addr n).foldlM (fun _ i =>
    match s.sectorState (l.plus i) with
    | 0 => .ok ()
    | 1 => .error (.trap 6 0 (BitVec.ofNat 64 ((l.plus i).addr / 64 * 64)) none)
    | _ => .error (.mismatch (l.plus i) none)) ()

/-- A range holds a sector that is poisoned or fails its check; a mismatch poisons the sector there (R333). -/
def State.takeUnsound (s : State) (l : Loc) (n : Nat) : Bool × State :=
  (sectorStarts l.addr n).foldl (fun (b, s) i =>
    match s.sectorState (l.plus i) with
    | 0 => (b, s)
    | 1 => (true, s)
    | _ => (true, s.poisonAt (l.plus i))) (false, s)

/-- The address space of a line by its key. -/
def keyAsid (k : Nat) : Nat := k / 2 ^ 48
/-- The first byte of a line by its key. -/
def keyVa (k : Nat) : Nat := k % 2 ^ 48 * 256

/-- The masked words of a dirty sector are written to HBM, with the stack's poison marker where the sector is poisoned or where a write of some of
its words leaves the marker; a page that is not present drops the write-back and tells Tardar (R266, R324, R332, R333). -/
def State.writeBackSector (s : State) (asid va : Nat) : State :=
  let l := s.line asid va
  let sec := va / 64 % 4
  if !l.dirty.getLsbD sec then s
  else
    let w := s.translate asid va
    let clean := { l with dirty := l.dirty &&& ~~~((1 : BitVec 4) <<< sec) }
    let s1 := ({ s with l2 := tput s.l2 (lineKey asid va) clean } : State).sliceAsk asid va
    if w.kind ≠ 2 then s1
    else
      let base := physical w.pte (va / 64 * 64)
      let m := (List.range 64).foldl (fun (m : Memory) i =>
        if l.has (64 * sec + i) then m.put (base + i) (l.byte (64 * sec + i)) else m) s1.hbm
      let whole := bits l.mask (16 * sec) 16 == 65535
      let bad := l.poison.getLsbD sec || l.bad sec || !whole && s1.hbm.poison.contains (base / 64)
      { s1 with hbm := { m with poison := if bad then addSector m.poison (base / 64) else m.poison.filter (· != base / 64) } }

/-- The dirty sectors of a line are written back (R266). -/
def State.writeBack (s : State) (asid va : Nat) : State :=
  [0, 64, 128, 192].foldl (fun s o => s.writeBackSector asid (va / 256 * 256 + o)) s

/-- A line leaves its home slice after its write-back (R137, R266). -/
def State.dropLine (s : State) (asid va : Nat) : State :=
  let s := (s.writeBack asid va).dropReplicas (lineKey asid va)
  { s with l2 := tdel s.l2 (lineKey asid va) }

/-- The lines of a slice's set, by key: 256 sets of 16 ways, selected by VA[15:8] (R265, DESIGN CHOICE, log 93). -/
def State.setMates (s : State) (asid va : Nat) : List Nat :=
  (s.l2.map (·.1)).filter fun k =>
    k % 256 == lineKey asid va % 256 && s.homeSlice (keyAsid k) (keyVa k) == s.homeSlice asid va

/-- A line is allocated in its slice: a full set first evicts one of its lines, which one by choice (R265, R266). -/
def State.makeRoom (s : State) (asid va : Nat) : State :=
  if (tfind s.l2 (lineKey asid va)).isSome then s
  else
    let ks := s.setMates asid va
    if ks.length < 16 then s
    else
      let (c, s) := s.choose ks.length
      let k := (ks[c]?).getD 0
      s.dropLine (keyAsid k) (keyVa k)

/-- A line that a slice does not hold is allocated without a fetch, with its translation (R266, R324). -/
def State.allocate (s : State) (asid va : Nat) : State :=
  if (tfind s.l2 (lineKey asid va)).isSome then s else (s.makeRoom asid va).sliceAsk asid va

/-- The words of a sector that hold no data are filled from HBM; the words it holds are verified before the merge, and a failed translation gives
poison and a notification (R266, R324, R332). -/
def State.fillSector (s : State) (asid va : Nat) : State :=
  let s := s.makeRoom asid va
  let l := s.line asid va
  let sec := va / 64 % 4
  let base := va / 64 * 64
  if bits l.mask (16 * sec) 16 = 65535 then s
  else
    let l' := (List.range 64).foldl (fun (k : Line) i =>
      if l.has (64 * sec + i) then k else k.put (64 * sec + i) (s.backByte asid (base + i))) l
    let l' := { l' with mask := l'.mask ||| (0xFFFF : BitVec 64) <<< (16 * sec) }
    let l' := if s.backPoison asid va || l.bad sec then { l' with poison := l'.poison ||| (1 : BitVec 4) <<< sec }.recheck sec else l'
    ({ s with l2 := tput s.l2 (lineKey asid va) l' } : State).sliceAsk asid va

/-- Whether a byte string writes every byte of an aligned word or sector of `k` bytes that holds a byte of it. -/
def coversAll (k a n i : Nat) : Bool := decide (a ≤ (a + i) / k * k) && decide ((a + i) / k * k + k ≤ a + n)

/-- One byte stored at its home slice: the word's MASK bit and the sector's DIRTY are set; a mismatch poisons the sector (R266,
R332, R333). -/
def State.putGlobByte (s : State) (asid va : Nat) (b : Byte) : State :=
  let s := s.allocate asid va
  let l := s.line asid va
  let sec := va / 64 % 4
  let l := { l.put (va % 256) b with
    mask := l.mask ||| (1 : BitVec 64) <<< (va % 256 / 4), dirty := l.dirty ||| (1 : BitVec 4) <<< sec,
    poison := if l.bad sec then l.poison ||| (1 : BitVec 4) <<< sec else l.poison }.recheck sec
  { s with l2 := tput s.l2 (lineKey asid va) l }

/-- A sector that a write covers whole has no poison and a new check (R333); of a page of which this package is no member it holds none. -/
def State.cleanSector (s : State) : Loc → State
  | .bank c off => s.modCore c fun k => { k with mem := { k.mem with
      poison := k.mem.poison.filter (· != off / 64), badCheck := k.mem.badCheck.filter (·.1 != off / 64) } }
  | .glob a va => match tfind s.l2 (lineKey a va) with
    | none => s
    | some l =>
      let one := (1 : BitVec 4) <<< (va / 64 % 4)
      { s with l2 := tput s.l2 (lineKey a va) ({ l with poison := l.poison &&& ~~~one }.recheck (va / 64 % 4)) }

/-- One byte written at its home; a word that the write covers in part and that holds no data is filled first (R266); a peer page's
byte is written at every member (R345). -/
def State.putHomeByte (s : State) (l : Loc) (whole : Bool) (b : Byte) : State :=
  match l with
  | .bank c off => s.modCore c fun k => { k with mem := { k.mem.put off b with
      poison := if k.mem.badCheck.any (·.1 == off / 64) then addSector k.mem.poison (off / 64) else k.mem.poison,
      badCheck := k.mem.badCheck.filter (·.1 != off / 64) } }
  | .glob a va => match s.peerOf a va with
    | none =>
      let s := if whole || (s.line a va).has (va % 256) then s else s.fillSector a va
      s.putGlobByte a va b
    | some p =>
      let put (s : State) (m : Nat) : State :=
        if m = s.pkg then
          let s := if whole || (s.line a va).has (va % 256) then s else s.fillSector a va
          s.putGlobByte a va b
        else { s with peerMem := tput s.peerMem m ((tget s.peerMem m Memory.empty).put (peerKey a va) b) }
      (s.reached p).foldl put s

/-- The bytes under a mask of bits; an empty mask writes every bit (R159). -/
def maskByte (mask : List Byte) (i : Nat) (old new : Byte) : Byte :=
  match mask with
  | [] => new
  | _ => let m := (mask[i]?).getD 0; old &&& ~~~m ||| new &&& m

/-- The words of some bytes that hold no data are filled first: those a load reads, or an atomic's (R266). -/
def State.fillWords (s : State) (l : Loc) (n : Nat) : State :=
  match l with
  | .bank _ _ => s
  | .glob a va => if (s.farMember a va).isSome then s else
    (List.range n).foldl (fun s i => let v := (va + i) % 2 ^ 56
      if (s.line a v).has (v % 256) then s else s.fillSector a v) s

/-- Bytes written at their home from a location on. -/
def State.putHome (s : State) (l : Loc) (bs mask : List Byte) : State :=
  let n := bs.length
  let s := bs.zipIdx.foldl (fun s (b, i) =>
    if mask ≠ [] ∧ (mask[i]?).getD 0 = 0 then s
    else s.putHomeByte (l.plus i) (mask.isEmpty && coversAll 4 l.addr n i) (maskByte mask i (s.homeByte (l.plus i)) b)) s
  if mask ≠ [] then s
  else (sectorStarts l.addr n).foldl (fun s i => if coversAll 64 l.addr n i then s.cleanSector (l.plus i) else s) s

/-! ### Cached copies (R124, R256, R281, R331) -/

/-- The Annex is enabled (R256). -/
def Quad.pooled (q : Quad) : Bool := q.qpool.getLsbD 31

/-- A copy is dropped no later than 4,096 cycles after its fill (R281). -/
def Copied.live (e : Copied) (now : Nat) : Bool := decide (now ≤ e.at_ + 4096)

/-- The copy of a line that a cache holds. -/
def copyIn (l : List Copied) (key now : Nat) : Option Copied := l.find? fun e => e.key == key && e.live now

/-- A cache holds a line. -/
def holdsLine (l : List Copied) (key now : Nat) : Bool := (copyIn l key now).isSome

/-- The copy that serves a core's load of a line: its local cache's, else the Annex's of a pooled quad (R124). -/
def State.heldCopy (s : State) (core key : Nat) : Option Copied :=
  (copyIn (s.core core).cacheLines key s.cycle).orElse fun _ =>
    if (s.quad (quadOf core)).pooled then copyIn (s.quad (quadOf core)).annex key s.cycle else none

/-- The state of a sector as a core's load finds it: in the cached copy that serves it, else at its home (R331, R333). -/
def State.loadState (s : State) (core : Nat) (l : Loc) : Nat :=
  match l with
  | .bank _ _ => s.sectorState l
  | .glob a va => match s.heldCopy core (lineKey a va) with
    | none => s.sectorState l
    | some e => if e.poison.getLsbD (va / 64 % 4) then 1 else if e.bad.getLsbD (va / 64 % 4) then 2 else 0

/-- A task's load consumes its sectors: INTEGRITY where one is poisoned or does not match (R333). -/
def State.checkLoad (s : State) (core : Nat) (l : Loc) (n : Nat) : Except Exit Unit :=
  (sectorStarts l.addr n).foldlM (fun _ i =>
    match s.loadState core (l.plus i) with
    | 0 => .ok ()
    | 1 => .error (.trap 6 0 (BitVec.ofNat 64 ((l.plus i).addr / 64 * 64)) none)
    | _ => .error (.badCopy core (l.plus i) none)) ()

/-- A sector that a core's load found not to match is poisoned where it was read from (R333). -/
def State.poisonCopy (s : State) (core : Nat) (l : Loc) : State :=
  let mark (e : Copied) : Copied := match l with
    | .glob a va => if e.key = lineKey a va then { e with
        poison := e.poison ||| (1 : BitVec 4) <<< (va / 64 % 4), bad := e.bad &&& ~~~((1 : BitVec 4) <<< (va / 64 % 4)) } else e
    | .bank _ _ => e
  match l with
  | .bank _ _ => s.poisonAt l
  | .glob a va =>
    if holdsLine (s.core core).cacheLines (lineKey a va) s.cycle then s.modCore core fun c => { c with cacheLines := c.cacheLines.map mark }
    else if (s.heldCopy core (lineKey a va)).isSome then s.modQuad (quadOf core) fun q => { q with annex := q.annex.map mark }
    else s.poisonAt l

/-! ### Watched ranges (R207) -/

/-- Whether a byte of a core's banks lies in [WMK, DHI) of a watched range of an active local copy or of an inbound entry. -/
def Core.watched (c : Core) (off : Nat) : Bool :=
  (c.slots.toList.any fun k => match k.copy with
    | some y => k.wmk.act && y.dsp == 1 && y.stream.isNone && decide (k.wmk.addr.toNat ≤ off) && decide (y.dlo ≤ off) && decide (off < y.dhi)
    | none => false) ||
  c.inbound.any fun e => decide (e.wmk ≤ off) && decide (e.dlo ≤ off) && decide (off < e.dhi)

/-- Whether a range of a core's banks meets a watched range above its watermark. -/
def State.watchedRange (s : State) (c off n : Nat) : Bool := (List.range n).any fun i => (s.core c).watched (off + i)

/-! ### The ordering machine on one location (R275, R276) -/

/-- Where a location lies in a write, if it does. -/
def Write.at? (w : Write) (l : Loc) : Option Nat :=
  match w.loc, l with
  | .glob a v, .glob b u => if a = b ∧ v ≤ u ∧ u < v + w.bytes.length then some (u - v) else none
  | .bank c o, .bank d u => if c = d ∧ o ≤ u ∧ u < o + w.bytes.length then some (u - o) else none
  | _, _ => none

/-- Whether a write covers some byte of a range. -/
def Write.meets (w : Write) (l : Loc) (n : Nat) : Bool := (List.range n).any fun i => (w.at? (l.plus i)).isSome

/-- Whether the write changes the byte: its mask has a bit there. -/
def Write.writes (w : Write) (l : Loc) : Bool :=
  match w.at? l with
  | some i => w.op.isSome || w.mask.isEmpty || (w.mask[i]?).getD 0 != 0
  | none => false

/-- The result of an atomic operation on `old` (R126, R127): `w` the width in bits. -/
def amoResult (op : BitVec 4) (w old b b1 : Nat) : Nat :=
  let fnan (x : Nat) : Bool := decide (x / 2 ^ 23 % 256 = 255) && decide (x % 2 ^ 23 ≠ 0)
  let key (x : Nat) : Int := if x / 2 ^ 31 % 2 = 1 then -((x % 2 ^ 31 : Nat) : Int) - 1 else (x : Int)
  match op.toNat with
  | 0 => (old + b) % 2 ^ w
  | 1 => if toS w old ≤ toS w b then old else b
  | 2 => if old ≤ b then old else b
  | 3 => if toS w b ≤ toS w old then old else b
  | 4 => if b ≤ old then old else b
  | 5 => old &&& b
  | 6 => old ||| b
  | 7 => old ^^^ b
  | 8 => b
  | 9 => if old = b then b1 else old
  | 10 => if fnan old || fnan b then old else if key b < key old then b else old
  | _ => if fnan old || fnan b then old else if key old < key b then b else old

/-- COUNT of a counter goes up by n; POISON stays (R95, R289). -/
def addCount (n : Nat) (c : Word) : Word :=
  (c &&& (1 : Word) <<< 63) ||| (c + BitVec.ofNat 64 n) &&& ~~~((1 : Word) <<< 63)

/-- COUNT of a counter goes down by 1, POISON is set where the end poisons it or COUNT was 0 already (R95, R291). -/
def countDown (poison : Bool) (c : Word) : Word :=
  if bits c 0 63 = 0 then (1 : Word) <<< 63
  else (if poison then (1 : Word) <<< 63 else c &&& (1 : Word) <<< 63) ||| ((c &&& ~~~((1 : Word) <<< 63)) - 1)

/-- What the hardware does to a counter of a program, numbered behind the operations of R126 (R92, R95, R225, R289, R291): 12 adds to COUNT, 13 takes
it down, 14 takes it down and poisons it, 15 is a plain sum. -/
def counterResult (op : BitVec 4) (n c : Word) : Word :=
  match op.toNat with
  | 12 => addCount n.toNat c
  | 13 => countDown false c
  | 14 => countDown true c
  | _ => c + n

/-- The write is an update of a counter by the hardware. -/
def Write.update (w : Write) : Bool := w.op.any fun o => decide (12 ≤ o.toNat)

/-- The operands a pending `red.*` holds: B, and B + 1 of `cas`, in its bytes and mask. -/
def Write.newBytes (w : Write) (old : List Byte) : List Byte :=
  match w.op with
  | none => w.bytes.zipIdx.map fun (b, i) => maskByte w.mask i ((old[i]?).getD 0) b
  | some op =>
    if w.update then natBytes (counterResult op (leWord w.bytes) (leWord old)).toNat w.bytes.length
    else natBytes (amoResult op (8 * w.bytes.length) (leNat old) (leNat w.bytes) (leNat w.mask)) w.bytes.length

/-- A reader's bytes with one more write over them. -/
def Write.onto (w : Write) (f : Loc → Byte) : Loc → Byte :=
  let old := (List.range w.bytes.length).map fun i => f (w.loc.plus i)
  let new := w.newBytes old
  fun l => match w.at? l with
    | some i => (new[i]?).getD 0
    | none => f l

/-- The writes of a list in the order they were issued. -/
def inOrder (l : List Write) : List Write := l.mergeSort fun a b => decide (a.id ≤ b.id)

/-- The stores a context has not yet seen arrive: shadow buffer, store buffer, path (R276). -/
def State.ownPending (s : State) (t : Nat) : List Write :=
  let x := s.task t
  let sh := x.shadow.filterMap fun h => match h with | .write w => some w | _ => none
  inOrder (sh ++ x.sb ++ (s.path ++ s.atSwitch).filter fun w => match w.party with
    | .task tid _ => tid == x.tid
    | _ => false)

/-- The newest arrived write that provides a byte, among arrivals newest first. -/
def provider (h : List Write) (l : Loc) : Option Write := h.find? (·.writes l)

/-- The writes of a byte that a write known to the reader follows, among arrivals newest first (R276): ≺ is the transitive order
that the carried views, the atomics and the settled writes make. -/
def behind (h : List Write) (known : List Nat) (l : Loc) : List Nat :=
  h.foldl (fun acc w => if w.writes l && (w.settled || known.contains w.id || acc.contains w.id) then union w.preds acc else acc) []

/-- Whether a byte's provider is a candidate for a reader who knows some writes (R276): no known write follows it; the initial write
is one while the reader knows no write of the byte. -/
def candidate (h : List Write) (known : List Nat) (from_ : List Write) (l : Loc) : Bool :=
  match provider from_ l with
  | none => !h.any fun k => k.writes l && (k.settled || known.contains k.id)
  | some p => !(behind h known l).contains p.id

/-- The newest arrived write of a byte that no known write follows (R276). -/
def newestCandidate (h : List Write) (known : List Nat) (l : Loc) : Option Write :=
  let b := behind h known l
  (h.find? fun w => w.writes l && !b.contains w.id).orElse fun _ => provider h l

/-- The arrivals without those that a number marks bit by bit, the newest first. -/
def leaveOut (m : Nat) (h : List Write) : List Write := (h.zipIdx.filter fun e => !natBit m e.2).map (·.1)

/-- The write each byte of a read comes from: a choice of arrivals is left out whole, so that no write is seen in part, where every byte
then has a candidate; else each byte's newest candidate (R122, R276, DEDUCED, log 6). -/
def State.pickRead (s : State) (known : List Nat) (l : Loc) (n : Nat) : (Loc → Option Write) × State :=
  let h := s.hist.filter (·.meets l n)
  let (c, s) := s.choose (2 ^ h.length)
  let left := leaveOut c h
  if (List.range n).all fun i => candidate h known left (l.plus i) then (provider left, s) else (newestCandidate h known, s)

/-- The byte a write left at its home when it arrived. -/
def Write.result (w : Write) (l : Loc) : Byte := (w.at? l).elim 0 fun i => ((w.newBytes w.old)[i]?).getD 0

/-- The byte that a reader finds who reads some write, or the initial one: the newest is what the home holds (R276). -/
def State.byteFrom (s : State) (w : Option Write) (l : Loc) : Byte :=
  let h := s.hist.filter (·.writes l)
  if w.map (·.id) = h.head?.map (·.id) then s.homeByte l
  else match w with
    | some w => w.result l
    | none => (h.getLast?.bind fun o => (o.at? l).bind fun i => o.old[i]?).getD (s.homeByte l)

/-- A read of n bytes by a reader who knows some writes and has some pending ones: the bytes, and the writes it read (R276). -/
def State.readAs (s : State) (known : List Nat) (own : List Write) (l : Loc) (n : Nat) : List Byte × List Nat × State :=
  let (pick, s) := s.pickRead known l n
  let f := (own.filter (·.meets l n)).foldl (fun f w => w.onto f) fun x => s.byteFrom (pick x) x
  let ls := (List.range n).map l.plus
  let ids := ls.foldl (fun acc x => match (own.reverse.find? (·.writes x)).orElse fun _ => pick x with
    | some w => insertNat acc w.id
    | none => acc) []
  (ls.map f, ids, s)

/-- A read of a task: its view gains what it read, and it records it as read since its last acquire (R276). -/
def State.taskRead (s : State) (t : Nat) (l : Loc) (n : Nat) : List Byte × State :=
  let x := s.task t
  let (bs, ids, s) := s.readAs x.view.known (s.ownPending t) l n
  if ids = [] then (bs, s)
  else (bs, s.modTask t fun x => { x with view := { x.view with
    known := union ids x.view.known, readSince := union ids x.view.readSince } })

/-- The landed units of copies that a read of a core's banks meets (R208). -/
def State.landedUnits (s : State) (l : Loc) (n : Nat) : List Nat :=
  match l with
  | .glob _ _ => []
  | .bank _ _ => (s.hist.filter fun w => w.meets l n && (match w.party with | .copy _ => true | _ => false)).map (·.id)

/-- Where `State.views` holds what a party knows. -/
def Party.viewKey : Party → Option Nat
  | .service q => some q
  | .curator d => some (16 + d)
  | .collective d _ => some (20 + d)
  | _ => none

/-- What an engine or another hardware party knows (R276, R282). -/
def State.knownOf (s : State) (p : Party) : List Nat :=
  match p with
  | .matrix c => (s.core c).mx.known
  | .copy c => (s.core c).copyKnown
  | _ => p.viewKey.elim [] fun k => tget s.views k []

/-- Writes join what a hardware party knows (R276). -/
def State.learn (s : State) (p : Party) (ids : List Nat) : State :=
  match p with
  | .matrix c => s.modCore c fun k => { k with mx := { k.mx with known := union ids k.mx.known } }
  | .copy c => s.modCore c fun k => { k with copyKnown := union ids k.copyKnown }
  | _ => p.viewKey.elim s fun k => { s with views := tput s.views k (union ids (tget s.views k [])) }

/-- A read of an engine or a service core: it acquires the landed units of its bytes, and its view gains the writes it read (R208, R276,
R282). -/
def State.engineRead (s : State) (p : Party) (l : Loc) (n : Nat) : List Byte × State :=
  let s := s.fillWords l n
  let (bs, ids, s) := s.readAs (union (s.landedUnits l n) (s.knownOf p)) [] l n
  (bs, s.learn p (union ids (s.landedUnits l n)))

/-- An arrival is counted for the task's phase (R275, R278). -/
def View.count (v : View) (phase : BitVec 2) : View :=
  { v with arrived := lset v.arrived phase.toNat ((v.arrived[phase.toNat]?).getD 0 + 1) }

/-- The acknowledgement of a write at its writer. -/
def State.countArrival (s : State) (w : Write) : State :=
  match w.party with
  | .task tid _ => s.modByTid tid fun x => { x with view := x.view.count w.phase }
  | _ => s

/-- The union of two carried releases (R276 Atomic). -/
def joinRel (a b : List Release) : List Release := a ++ b.filter fun r => !a.contains r

/-- The arrived writes that meet some bytes, the last first. -/
def State.meeting (s : State) (l : Loc) (n : Nat) : List Write := s.hist.filter (·.meets l n)

/-- The writes that an atomic reads: of each of its bytes the one that arrived last (R276). -/
def State.lastWrites (s : State) (l : Loc) (n : Nat) : List Write :=
  let h := s.meeting l n
  h.filter fun w => (List.range n).any fun i => (provider h (l.plus i)).any (·.id == w.id)

/-- A write of an atomic (R276): it follows every arrived write of its bytes and carries the releases of those it read. -/
def State.asAtomic (s : State) (w : Write) : Write :=
  let n := w.bytes.length
  { w with
    view := union ((s.meeting w.loc n).map (·.id)) w.view
    rel := (s.lastWrites w.loc n).foldl (fun r x => joinRel r x.rel) w.rel }

/-- The replicas of the lines a write meets are withdrawn (R270). -/
def State.withdrawFor (s : State) (l : Loc) : State :=
  match l with
  | .bank _ _ => s
  | .glob a va => if s.dies.any fun e => e.2.replicas.any (·.1 == lineKey a va) then s.dropReplicas (lineKey a va) else s

/-- The doubleword at a global address, at its home. -/
def State.homeWord (s : State) (asid va : Nat) : Word := leWord (s.homeBytes (.glob (spaceOf asid va) va) 8)

/-- The record of a guard has COUNT = 0: its entry is free (R223). -/
def State.guardDone (s : State) (g : Guard) : Bool := bits (s.homeWord (s.asid g.job) (g.record.toNat % 2 ^ 56)) 0 63 == 0

/-- The guard entries whose records' COUNT is 0 are free (R223). -/
def State.freeGuards (s : State) : State :=
  if s.quads.all fun e => e.2.guards.all (·.isNone) then s
  else { s with quads := s.quads.map fun e => (e.1, { e.2 with guards := e.2.guards.map fun g => g.filter (!s.guardDone ·) }) }

/-- A write joins the history of its location and its bytes reach the home (R276 Arrive, R125 for a `red.*`), poisoned where they are bad (R333); a
guard whose COUNT it takes to 0 is over (R223). -/
def State.joinHome (s : State) (w : Write) : State :=
  let s := if w.op.isSome then s.fillWords w.loc w.bytes.length else s
  let old := s.homeBytes w.loc w.bytes.length
  let a := if w.op.isSome then s.asAtomic w else w
  let w' : Write := { a with old := old, preds := a.view, arrivedAt := s.cycle }
  let s := (s.withdrawFor w.loc).putHome w.loc (w.newBytes old) (match w.op with | some _ => [] | none => w.mask)
  let s := if w.cover then s.cleanSector w.loc else s
  let s := if w.bad then s.poisonRange w.loc w.bytes.length else s
  State.freeGuards { s with hist := w' :: s.hist }

/-- A write arrives and is counted for its phase (R276 Arrive). -/
def State.arriveAt (s : State) (w : Write) : State := (s.joinHome w).countArrival w

/-- The job number of a task identifier (R17). -/
def jobOfTid (tid : Word) : Nat := bits tid 48 16

/-- NEARDROP counts up, saturating; Tardar is told once per target core and job (R123). -/
def State.nearDrop (s : State) (core : Nat) (tid : Word) : State :=
  let s := s.modCore core fun c => { c with neardrop := min (c.neardrop + 1) (2 ^ 32 - 1) }
  let j := jobOfTid tid
  if (s.job j).nearNotified.contains core then s
  else ({ s with jobs := tput s.jobs j { s.job j with nearNotified := core :: (s.job j).nearNotified } } : State).notify
    (.neardrop core j)

/-- The drain at the head of a core's matrix queue names a misaligned place, which its target refuses (R179). -/
def Core.headAskew (c : Core) : Bool := (c.mx.queue.head?).any (·.askew)

/-- The drain at the head of a core's matrix queue has a byte refused (R181). -/
def Core.markDropped (c : Core) : Core :=
  match c.mx.queue with
  | m :: r => { c with mx := { c.mx with queue := { m with dropped := true } :: r } }
  | [] => c

/-- The submitter of the drain at the head of a core's matrix queue. -/
def Core.headTid (c : Core) : Word := (c.mx.queue.head?).elim 0 (·.tid)

/-- A write reaches its home (class 8 stands for a ring slot, which only the ring logic writes, R117): a bank that refuses it, or the target
of a misaligned drain, drops it and counts it (R123, R179), else it arrives. -/
def State.arriveOrDrop (s : State) (w : Write) : State :=
  match w.loc, w.party with
  | .bank c off, .task tid _ =>
    if w.cls ≠ 8 ∧ ((s.core c).refused true off w.bytes.length).isSome then (s.nearDrop c tid).countArrival w else s.arriveAt w
  | .bank c off, .matrix m =>
    if (s.core m).headAskew || ((s.core c).refused true off w.bytes.length).isSome then (s.nearDrop c (s.core m).headTid).modCore m Core.markDropped
    else s.arriveAt w
  | _, _ => s.arriveAt w

/-- The settled writes of some bytes, which every party knows (R276 Settle). -/
def State.settledAt (s : State) (l : Loc) (n : Nat) : List Nat := ((s.meeting l n).filter (·.settled)).map (·.id)

/-- A new write of a party at its issue (R276): its number, its phase and the view it carries. -/
def State.newWrite (s : State) (t : Nat) (l : Loc) (bs mask : List Byte) (op : Option (BitVec 4)) (cls : Nat) : Write :=
  let x := s.task t
  { id := s.nextId, party := .task x.tid (coreOf t), loc := l, bytes := bs, mask := mask, op := op, phase := x.phase,
    view := union (s.settledAt l bs.length) x.view.known, rel := x.view.rel.toList, cls := cls, xy := x.ord.getLsbD cls, old := [], preds := [], sent := 0, arrivedAt := 0,
    settled := false, cover := false, bad := false }

/-- A write joins the store buffer (R276 Issue). -/
def State.toStoreBuffer (s : State) (t : Nat) (w : Write) : State :=
  s.modTask t fun x => { x with
    sb := x.sb ++ [{ w with phase := x.phase, rel := x.view.rel.toList, view := union (s.settledAt w.loc w.bytes.length) x.view.known }],
    view := { x.view with
      known := insertNat x.view.known w.id,
      issued := lset x.view.issued x.phase.toNat ((x.view.issued[x.phase.toNat]?).getD 0 + 1) } }

/-- A write of an atomic with a result, which takes its place at its home at once (R276): the task reads the writes that arrived last and
knows both. -/
def State.performNow (s : State) (t : Nat) (w : Write) : State :=
  let last := (s.lastWrites w.loc w.bytes.length).map (·.id)
  let a := s.asAtomic w
  let s := s.modTask t fun x => { x with view := { x.view with
    known := insertNat (union last x.view.known) w.id, readSince := union last x.view.readSince,
    issued := lset x.view.issued x.phase.toNat ((x.view.issued[x.phase.toNat]?).getD 0 + 1) } }
  (({ s with nextId := s.nextId + 1 } : State).fillWords w.loc w.bytes.length).arriveAt a

/-- The route class of a hardware party's accesses (R262). -/
def Party.cls (p : Party) (l : Loc) : Nat :=
  match p, l with
  | .service _, _ => 7
  | .curator _, _ => 7
  | .transom _, _ => 3
  | .copy _, .glob _ _ => 6
  | _, .glob _ _ => 0
  | _, .bank _ _ => 4

/-- A write of a hardware party with the releases it carries. -/
def State.hardWrite (s : State) (p : Party) (view : List Nat) (rel : List Release) (l : Loc) (bs mask : List Byte) : Write :=
  { id := s.nextId, party := p, loc := l, bytes := bs, mask := mask, op := none, phase := 0,
    view := union (s.settledAt l bs.length) (union (s.knownOf p) view), rel := rel,
    cls := p.cls l, xy := false, old := [], preds := [], sent := 0, arrivedAt := 0, settled := false, cover := false, bad := false }

/-- A write of an engine or other hardware party performed at its home; the party knows it. -/
def State.hwWrite (s : State) (p : Party) (view : List Nat) (rel : Option Release) (l : Loc) (bs mask : List Byte) : State :=
  (({ s with nextId := s.nextId + 1 } : State).joinHome (s.hardWrite p view rel.toList l bs mask)).learn p [s.nextId]

/-! ### Accesses that the hardware makes of its own (R95, R225, R270, R289, R291, R323, R327, R335) -/

/-- The unit whose attribute cache checks a party's accesses (R323); the curator of a die and its Transoms use those of a service core and of
a core of the quad (DESIGN CHOICE, log 108). -/
def Party.unit : Party → Nat
  | .task _ c => c
  | .matrix c => c
  | .copy c => c
  | .collective d _ => 640 + d
  | .service q => 644 + q
  | .transom q => quadCore q 0
  | .curator d => 644 + 4 * d
  | .remote _ => 0

/-- The bytes at which a range enters its lines. -/
def lineStarts (a n : Nat) : List Nat :=
  if n = 0 then [] else 0 :: (List.range ((a % 256 + n - 1) / 256)).map fun i => (a / 256 + i + 1) * 256 - a

/-- A line of a range is replicated (R270). -/
def State.replicatedFrom (s : State) (l : Loc) (n : Nat) : Bool := (lineStarts l.addr n).any fun i => s.replicated (l.plus i)

/-- The replicated lines of a range are withdrawn (R270). -/
def State.withdrawFrom (s : State) (l : Loc) (n : Nat) : State :=
  (lineStarts l.addr n).foldl (fun s i => if s.replicated (l.plus i) then s.withdrawLoc (l.plus i) else s) s

/-- A write of this package that was sent before stands at the root switch of a location's page (R342, R345). -/
def State.behindSwitch (s : State) : Loc → Bool
  | .glob a va => (s.peerOf a va).any fun p => s.atSwitch.any fun w => match w.party, w.loc with
    | .remote _, _ => false
    | _, .glob b u => (s.peerOf b u).any (·.root == p.root)
    | _, .bank _ _ => false
  | .bank _ _ => false

/-- What becomes of an access that the hardware makes. -/
inductive Leave where
  /-- It goes on. -/
  | now
  /-- It waits: for a page, for a withdrawal, for the switch. -/
  | later
  /-- Its page is invalid or forbids it: it is given up, and Tardar knows. -/
  | never
  deriving DecidableEq, Repr

/-- A hardware party asks to access a range of global memory: its page is checked as any party's (R323); an absent one is asked for
and awaited, a refused access is given up and Tardar is told (R327, R335; DESIGN CHOICE for the others, log 108); a write waits until a replicated line
is withdrawn (R270). -/
def State.askLeave (s : State) (p : Party) (write : Bool) (l : Loc) (n : Nat) : Leave × State :=
  match l with
  | .bank _ _ => (.now, s)
  | .glob a va => match s.checkPages p.unit a (!write) write false (if write then 1 else 0) va n with
    | .ok _ =>
      if write && s.replicatedFrom l n then (.later, s.withdrawFrom l n)
      else if write && s.behindSwitch l then (.later, s)
      else (.now, s.fillPages p.unit a va n)
    | .error (.absent b v k _) => (.later, s.askPage b v k)
    | .error _ => (.never, (s.notePages a va n).notify (.hostRefused a va))

/-- A task's phase, by its identifier. -/
def State.phaseOf (s : State) : Party → BitVec 2
  | .task tid _ => (s.findTid tid).elim 0 fun t => (s.task t).phase
  | _ => 0

/-- A hardware write that has to wait stands on the path; a task's is counted for its phase (R275, R278). -/
def State.keepUpdate (s : State) (w : Write) : State :=
  let s : State := { s with path := s.path ++ [{ w with sent := s.nextId }], nextId := s.nextId + 1 }
  match w.party with
  | .task tid _ => s.modByTid tid fun x => { x with view := { x.view with
      issued := lset x.view.issued w.phase.toNat ((x.view.issued[w.phase.toNat]?).getD 0 + 1) } }
  | _ => s

/-- An earlier update of the same word stands on the path. -/
def State.behindUpdate (s : State) (w : Write) : Bool := s.path.any fun x => x.update && x.loc == w.loc && decide (x.id < w.id)

/-- An atomic update of a counter by the hardware on a party's behalf, with a release at `.pkg` (R92, R95, R225, R289, R291): at once, or
by its arrival where it has to wait. -/
def State.hwUpdate (s : State) (p : Party) (rel : Option Release) (asid va : Nat) (op : BitVec 4) (n : Nat) : State :=
  let w : Write := { s.hardWrite p [] rel.toList (.glob (spaceOf asid va) (va % 2 ^ 56)) (natBytes n 8) [] with op := some op, phase := s.phaseOf p }
  let s : State := { s with nextId := s.nextId + 1 }
  if s.behindUpdate w then s.keepUpdate w
  else match s.askLeave p true w.loc 8 with
    | (.now, s) => s.joinHome w
    | (.later, s) => s.keepUpdate w
    | (.never, s) => s

/-- An update on the path is tried again. -/
def State.arriveUpdate (s : State) (w : Write) : State :=
  let off (s : State) : State := { s with path := s.path.filter (·.id != w.id) }
  if s.behindUpdate w then s
  else match s.askLeave w.party true w.loc 8 with
    | (.now, s) => ((off s).joinHome w).countArrival w
    | (.later, s) => s
    | (.never, s) => (off s).countArrival w

end Sys2Proof.Machine
end

