-- ==== Sys2Proof/Machine/Fetch.lean ====
section
/-! DEFINITION. Fetching and decoding at the program counter (R59, R60, R74, R75, DEDUCED, log 8), the window of a repeat frame and the
register numbers each replay advances (R76, R77). -/

namespace Sys2Proof.Machine

/-- A word that asks for extension D by its major or by a format field that holds FP64 (R29, R74 step 3). -/
def wantsD (w : Half32) : Bool :=
  let fmt := fld w 3 5 == 1
  let min := (fld w 0 3).toNat
  match (fld w 26 6).toNat with
  | 0x30 => true
  | 0x31 => true
  | 0x32 => true
  | 0x33 => true
  | 0x20 => fmt
  | 0x21 => fmt
  | 0x22 => fmt && (min == 3 || min == 4 || min == 5 || min == 7)
  | 0x23 => fmt
  | 0x24 => fmt || (decide (min < 3) && fld w 11 5 == 1)
  | 0x25 => fmt && (decide (min < 3) || min == 4)
  | 0x28 => fld w 5 5 == 1
  | 0x29 => fld w 5 5 == 1
  | 0x2A => fld w 5 5 == 1
  | 0x2B => fld w 5 5 == 1
  | 0x2C => fld w 19 5 == 1 || fld w 14 5 == 1
  | _ => false

/-- A pair asks for extension D where its second word does, whether its form accepts the prefix or not: step 3 of R74 stands before
step 4. -/
def pairWantsD (w : Half32) : Bool := wantsD w

/-- What stands at an address: an instruction with its length, or the word or pair that is none, with whether it asks for
extension D. -/
inductive Fetched where
  | instr (i : Instr) (len : Nat) (wantD : Bool)
  | bad (val : Word) (wantD : Bool)
  deriving DecidableEq, Repr

/-- The four bytes of an instruction word, fetched with execute permission (R22, R59, R323); a fetch fault has SUB 2. -/
def State.fetchWord (s : State) (t : Nat) (pc : Nat) : Except Exit (List Byte) := do
  let x := s.task t
  let a := s.asid x.job
  let va := pc % 2 ^ 56
  s.checkPages (unitOf t) a false false true 2 va 4
  s.checkSectors (.glob (spaceOf a va) va) 4
  .ok (s.homeBytes (.glob (spaceOf a va) va) 4)

/-- The word of its four bytes. -/
def asWord (bs : List Byte) : Half32 := BitVec.ofNat 32 (leNat bs)

/-- The instruction at an address for a context (R59, R60, R74). -/
def State.fetch (s : State) (t : Nat) (pc : Nat) : Except Exit Fetched := do
  let b1 ← s.fetchWord t pc
  let w1 := asWord b1
  if isPrefix w1 then
    let b2 ← s.fetchWord t (pc + 4)
    let w2 := asWord b2
    match decodeBytes (b1 ++ b2) with
    | .ok (i, n) => .ok (.instr i n (pairWantsD w2))
    | .error _ => .ok (.bad (w1 ++ w2) (pairWantsD w2))
  else
    match decodeBytes b1 with
    | .ok (i, n) => .ok (.instr i n (wantsD w1))
    | .error _ => .ok (.bad (w1.setWidth 64) (wantsD w1))

/-- A context sees that a task of its core has issued: one fewer stands before it, and its own `yield` is over (R100). -/
def Task.sawIssue (me : Bool) (t : Nat) (x : Task) : Task :=
  { x with yielded := if me then none else x.yielded.map fun e => (e.1, e.2.filter (· != t)) }

/-- The context in focus issues an instruction (R100). -/
def State.noteIssue (s : State) : State :=
  if s.tasks.any fun e => e.2.yielded.isSome then
    { s with tasks := s.tasks.map fun e => if unitOf e.1 = unitOf s.focus then (e.1, e.2.sawIssue (e.1 == s.focus) s.focus) else e }
  else s

/-- The attribute cache after a fetch for an instruction that issues. -/
def State.fetched (s : State) : State :=
  s.noteIssue.fillPages (unitOf s.focus) (s.asid s.me.job) (s.me.pc.toNat % 2 ^ 56) 4

/-- What a word that is no instruction does: it migrates (R75), or traps ILLEGAL (R74). -/
def badExit (s : State) (val : Word) (wantD : Bool) : Exit :=
  if wantD && !hasD s.myCore then .migrate else .trap 1 0 val none

/-- The instructions a window may hold (R76): majors 0x01-0x0B, 0x20-0x26 and 0x31, `mma`, `mma.f64`, `mzero`, `mload.a`,
`msum`, `mscale`. -/
def windowMajor (w : Half32) : Bool :=
  let m := (fld w 26 6).toNat
  (decide (1 ≤ m) && decide (m ≤ 0x0B)) || (decide (0x20 ≤ m) && decide (m ≤ 0x26)) || m == 0x31 || m == 0x2C || m == 0x30 ||
    (m == 0x2D && (fld w 0 8 == 1 || fld w 0 8 == 2 || fld w 0 8 == 6 || fld w 0 8 == 7))

/-- Whether an instruction may stand in a window: the major of its word, the second one of a pair (R76). -/
def inWindow (i : Instr) : Bool :=
  match encode i with
  | [w] => windowMajor w
  | [_, w] => windowMajor w
  | _ => false

/-- A vector register number advanced modulo 32 (R77). -/
def stepReg (r : Vr) (n : Nat) : Vr := r + BitVec.ofNat 5 n

/-- A window instruction with its vector register numbers advanced; mask, scalar, format and Mat fields never are (R77). -/
def advanceRegs (x y z : Nat) : Instr → Instr
  | .vadd d a b k f => .vadd (stepReg d x) (stepReg a y) (stepReg b z) k f
  | .vsub d a b k f => .vsub (stepReg d x) (stepReg a y) (stepReg b z) k f
  | .vmul d a b k f => .vmul (stepReg d x) (stepReg a y) (stepReg b z) k f
  | .vfma d a b k f => .vfma (stepReg d x) (stepReg a y) (stepReg b z) k f
  | .vfms d a b k f => .vfms (stepReg d x) (stepReg a y) (stepReg b z) k f
  | .vfnma d a b k f => .vfnma (stepReg d x) (stepReg a y) (stepReg b z) k f
  | .vmin d a b k f => .vmin (stepReg d x) (stepReg a y) (stepReg b z) k f
  | .vmax d a b k f => .vmax (stepReg d x) (stepReg a y) (stepReg b z) k f
  | .vabs d a k f => .vabs (stepReg d x) (stepReg a y) k f
  | .vneg d a k f => .vneg (stepReg d x) (stepReg a y) k f
  | .vrcp d a k f => .vrcp (stepReg d x) (stepReg a y) k f
  | .vrsqrt d a k f => .vrsqrt (stepReg d x) (stepReg a y) k f
  | .vexp2 d a k f => .vexp2 (stepReg d x) (stepReg a y) k f
  | .vlog2 d a k f => .vlog2 (stepReg d x) (stepReg a y) k f
  | .vmov d a k f => .vmov (stepReg d x) (stepReg a y) k f
  | .vnot d a k f => .vnot (stepReg d x) (stepReg a y) k f
  | .vand d a b k => .vand (stepReg d x) (stepReg a y) (stepReg b z) k
  | .vor d a b k => .vor (stepReg d x) (stepReg a y) (stepReg b z) k
  | .vxor d a b k => .vxor (stepReg d x) (stepReg a y) (stepReg b z) k
  | .vshl d a b k f => .vshl (stepReg d x) (stepReg a y) (stepReg b z) k f
  | .vshr d a b k f => .vshr (stepReg d x) (stepReg a y) (stepReg b z) k f
  | .vsar d a b k f => .vsar (stepReg d x) (stepReg a y) (stepReg b z) k f
  | .vsel d a b k => .vsel (stepReg d x) (stepReg a y) (stepReg b z) k
  | .vbscale d a b k f => .vbscale (stepReg d x) (stepReg a y) (stepReg b z) k f
  | .vcmp kd a b k f cc => .vcmp kd (stepReg a y) (stepReg b z) k f cc
  | .vcvt d a src k f => .vcvt (stepReg d x) (stepReg a y) src k f
  | .vcvtSat d a src k f => .vcvtSat (stepReg d x) (stepReg a y) src k f
  | .vcvtSr d a src k f => .vcvtSr (stepReg d x) (stepReg a y) src k f
  | .vpack d a j k f => .vpack (stepReg d x) (stepReg a y) j k f
  | .vunpack d a j k f => .vunpack (stepReg d x) (stepReg a y) j k f
  | .vdecode d a j k f => .vdecode (stepReg d x) (stepReg a y) j k f
  | .vins d a b f => .vins (stepReg d x) a b f
  | .vext d a b f => .vext d (stepReg a y) b f
  | .vredAdd d a k f => .vredAdd (stepReg d x) (stepReg a y) k f
  | .vredMax d a k f => .vredMax (stepReg d x) (stepReg a y) k f
  | .vredMin d a k f => .vredMin (stepReg d x) (stepReg a y) k f
  | .vperm d a b k => .vperm (stepReg d x) (stepReg a y) (stepReg b z) k
  | .vbcast d a k f => .vbcast (stepReg d x) a k f
  | .vslide d a b k => .vslide (stepReg d x) (stepReg a y) b k
  | .vcompact d a k => .vcompact (stepReg d x) (stepReg a y) k
  | .vexpand d a k => .vexpand (stepReg d x) (stepReg a y) k
  | .vdiv d a b k f => .vdiv (stepReg d x) (stepReg a y) (stepReg b z) k f
  | .vsqrt d a k f => .vsqrt (stepReg d x) (stepReg a y) k f
  | .vexp d a k f => .vexp (stepReg d x) (stepReg a y) k f
  | .vlog d a k f => .vlog (stepReg d x) (stepReg a y) k f
  | i => i

/-- The instruction a frame executes next (R77). -/
def Frame.instr (f : Frame) : Option Instr :=
  (f.window[f.j]?).map fun e => advanceRegs (f.i * f.sd) (f.i * f.sa) (f.i * f.sb) e.1

/-- A row of the opcode table without words: a move that is no instruction. -/
def isEvent (i : Instr) : Bool := (encode i).isEmpty

/-- Whether the context may issue: Running, not halted, not migrating, not held at a unit (R23, R258). -/
def Task.issues (x : Task) : Bool :=
  x.life == .running && x.moving.isNone && !x.halt.any (·.halted) && !x.engaged

end Sys2Proof.Machine
end

