-- ==== Sys2Proof/Machine/Exits.lean ====
section
/-! DEFINITION. What becomes of an instruction that does not complete, and the outcome of a meaning (R74, R106, R113, R198, R211, R333). -/

namespace Sys2Proof.Machine

/-- No other task of the core has waited longer for a unit (R198, R211). -/
def State.mayClaim (s : State) (b : Busy) : Bool :=
  let mine := (s.me.stalled.filter (·.1 == b)).map (·.2)
  !s.tasks.any fun e => e.1 != s.focus && unitOf e.1 == unitOf s.focus && e.2.life == .running && e.2.stalled.any fun w =>
    w.1 == b && mine.all (decide <| w.2 < ·)

/-- A stop that an attached debugger takes: BKPT or WATCH (R108, R114). -/
def Job.stopsFor (j : Job) (cause : Nat) : Bool := j.debugger && (cause == 10 || cause == 12)

/-- A trap of the context in focus, named at an address (R113): with a halt at the same boundary it is recorded in the context and
delivered before its next instruction; else it is delivered now. A debugger's stop is taken now in any case: the task is Held, and a context
saved then restores into Held. -/
def State.trapAt (s : State) (pc : Word) (cause sub : Nat) (val : Word) (info : Option Word) : State :=
  if s.me.halt.isNone || s.myJob.stopsFor cause then s.deliver s.focus pc cause sub val info
  else
    let (iv, s) : Word × State := match info with
      | some v => (v, s)
      | none => s.fresh
    s.onMe fun x => { x with pendingTrap := some (pc, cause, sub, val, iv) }

/-- A task begins to wait for a unit: its place among the tasks that wait for it (R198, R211). -/
def State.stallFor (s : State) (b : Busy) : State :=
  if s.me.stalled.any (·.1 == b) then s
  else { s with nextId := s.nextId + 1 }.onMe fun x => { x with stalled := some (b, s.nextId) }

/-- The register that a load, or an atomic, fills from memory: a scalar or a vector one. -/
def loadDest : Instr → Option (Gpr ⊕ Vr)
  | .ld d _ _ _ _ _ => some (.inl d)
  | .ldPrefixed d _ _ _ _ _ _ => some (.inl d)
  | .amoAdd d _ _ _ _ => some (.inl d)
  | .amoMin d _ _ _ _ => some (.inl d)
  | .amoMinn d _ _ _ _ => some (.inl d)
  | .amoMax d _ _ _ _ => some (.inl d)
  | .amoMaxn d _ _ _ _ => some (.inl d)
  | .amoAnd d _ _ _ _ => some (.inl d)
  | .amoOr d _ _ _ _ => some (.inl d)
  | .amoXor d _ _ _ _ => some (.inl d)
  | .amoSwap d _ _ _ _ => some (.inl d)
  | .amoCas d _ _ _ _ => some (.inl d)
  | .amoFmin d _ _ _ => some (.inl d)
  | .amoFmax d _ _ _ => some (.inl d)
  | .amoPrefixed _ d _ _ _ _ _ _ _ _ => some (.inl d)
  | .vldl d _ _ _ _ => some (.inr d)
  | .vldlPrefixed d _ _ _ _ _ _ => some (.inr d)
  | .vld d _ _ _ _ _ => some (.inr d)
  | .vldPrefixed d _ _ _ _ _ _ _ => some (.inr d)
  | .vgather d _ _ _ _ _ => some (.inr d)
  | .vgatherPrefixed d _ _ _ _ _ _ => some (.inr d)
  | _ => none

/-- The register that an access without an answer would have filled holds a free value (R335, DESIGN CHOICE, log 109). -/
def State.unanswered (s : State) (i : Instr) : State :=
  match loadDest i with
  | some (.inl d) => let (v, s) := s.fresh; s.setG d v
  | some (.inr d) =>
    { s.onMe fun x => { x with v := vput x.v d.toNat (BitVec.ofNat 8192 (pieces 64 ((List.range 128).map fun i => (Config.freeWord (s.tick + i)).toNat))) } with
      tick := s.tick + 128 }
  | none => s

/-- A service core's access that its page refuses (R327, R335): a write is dropped, a read gets no data, Tardar is told, and the instruction is
over. -/
def State.giveUp (s : State) (asid va n : Nat) : State :=
  let s := (s.notePages asid va n).notify (.hostRefused asid va)
  match s.fetch s.focus s.me.pc.toNat with
  | .ok (.instr i len _) => (s.unanswered i).retire len
  | _ => s.retire 4

/-- What becomes of an instruction that does not complete; a walk that meets a malformed entry tells Tardar (R322). -/
def State.takeExit (s : State) : Exit → State
  | .trap c sub v i => (if c = 3 then s.noteMalformed (s.translate (s.asid s.me.job) v.toNat) else s).trapAt s.me.here c sub v i
  | .arith raised lane =>
    let s := s.raise s.focus raised
    s.trapAt s.me.here 7 0 (BitVec.ofNat 64 (raised.toNat + lane % 65536 * 65536)) none
  | .routine raised e p =>
    let s := s.raise s.focus raised
    s.trapAt s.me.here (7 + 2 * 32) 0 (BitVec.ofNat 64 (raised.toNat + e % 65536 * 65536))
      (some (BitVec.ofNat 64 (p % 32 * 2 ^ 32 + e % 2 ^ 32)))
  | .absent a va k i => s.absentPage s.focus a va k i
  | .wait w => s.onMe fun x => { x with life := .waiting w }
  | .stall => s.pass 1 0
  | .stallFor b => (s.stallFor b).pass 1 0
  | .refill => (s.refillStream s.focus).pass 1 0
  | .mismatch l i => (s.poisonAt l).trapAt s.me.here 6 1 (BitVec.ofNat 64 (l.addr / 64 * 64)) i
  | .badCopy c l i => (s.poisonCopy c l).trapAt s.me.here 6 1 (BitVec.ofNat 64 (l.addr / 64 * 64)) i
  | .dropped a v n => s.giveUp a v n
  | .migrate => s.startMigration s.focus (quadCore (quadOf s.myCore) 0) true

/-- The outcome of a meaning: its next state, or what its exit makes of the state it started in. -/
def run (s : State) (body : Except Exit State) : Host.Outcome State Fault Refusal :=
  match body with
  | .ok t => .next t
  | .error e => .next (s.takeExit e)

/-- A trap of the trap instructions themselves, which name the instruction after them (R110). -/
def State.deliverNext (s : State) (cause sub : Nat) (val : Word) : State :=
  s.trapAt (pcPlus s.me.pc 4) cause sub val none

/-- An extension-D instruction on a core without D migrates its task (R74 step 3). -/
def needD (s : State) : Except Exit Unit := need (hasD s.myCore) .migrate

end Sys2Proof.Machine
end

