-- ==== Sys2Proof/Machine/Triggers.lean ====
section
/-! DEFINITION. Identifiers, records, triggers, the deque at its bank, the global queues and messages on their way (R17, R91,
R136, R267, R287, R293, R296, R299, R351). -/

namespace Sys2Proof.Machine

/-- The next TASKID of a die for a job (R17): SERIAL counts from 1 and wraps to 1; Tardar is told of the wrap. -/
def State.newTid (s : State) (die job : Nat) : Word × State :=
  let n := tget (s.die die).serial job 0 + 1
  let (n, s) := if n < 2 ^ 46 then (n, s) else (1, s.notify (.counterWrap job die))
  (BitVec.ofNat 64 (job % 65536 * 2 ^ 48 + n * 4 + die % 4), s.modDie die fun d => { d with serial := tput d.serial job n })

/-- The k-th SERIAL from one on; the counter wraps to 1 (R17). -/
def serialAt (first k : Nat) : Nat := (first - 1 + k) % (2 ^ 46 - 1) + 1

/-- n TASKIDs taken at once (R17): the first SERIAL. -/
def State.newTids (s : State) (die job n : Nat) : Nat × State :=
  let c := tget (s.die die).serial job 0
  let s := if c + n < 2 ^ 46 then s else s.notify (.counterWrap job die)
  (serialAt (c + 1) 0, s.modDie die fun d => { d with serial := tput d.serial job (if n = 0 then c else serialAt (c + 1) (n - 1)) })

/-- A trigger of eight doublewords before it is accepted. -/
def Trigger.of (dwords : List Word) (src : Source) (job : Nat) : Trigger :=
  { dwords := dwords, src := src, job := job, tid := 0, lcn := none, stamp := 0, port := none, cls := none, team := none,
    guard := none, gtol := 0, counter := none, rel := none, parked := none, page := none,
    avoid := none, brk := [], watch := [] }

/-- A trigger accepted on a die: its TASKID and its enqueue stamp (R17, R300). -/
def State.accept (s : State) (die : Nat) (g : Trigger) : Trigger × State :=
  let (tid, s) := s.newTid die g.job
  ({ g with tid := tid, stamp := (s.die die).dieclk }, s)

/-- The doublewords of 64 bytes. -/
def dwordsOf : Nat → List Byte → List Word
  | 0, _ => []
  | n + 1, bs => leWord (bs.take 8) :: dwordsOf n (bs.drop 8)

/-- The bytes of doublewords. -/
def bytesOfDwords (l : List Word) : List Byte := l.flatMap fun w => natBytes w.toNat 8

/-! ### Handler headers (R19) -/

/-- A handler header. -/
structure Header where
  lease : BitVec 2
  rst : Bool
  cls : BitVec 2
  shadow : Nat
  deriving DecidableEq, Repr

/-- The header of two words, none where it is invalid (R19). -/
def Header.of (w0 w1 : Half32) : Option Header :=
  let sh := bits w0 0 16
  let r := w0.getLsbD 23
  if bits w0 26 6 = 0 ∧ bits w0 16 5 = 0 ∧ w1 = 0xA5C30000 ∧ (!r || (decide (1 ≤ sh) && decide (sh ≤ 1536))) then
    some ⟨w0.extractLsb' 24 2, r, w0.extractLsb' 21 2, if r then sh else 0⟩
  else none

/-! ### The deque (R136, R293) -/

/-- The local offset of the deque's first byte. -/
def Core.dequeAt (c : Core) : Nat := c.dequeBase * 4096

/-- CAP (R136). -/
def Core.dequeCap (c : Core) : Nat := 64 * c.dequeBanks - 1

/-- HEAD, at offset 0 (R136). -/
def Core.dequeHead (c : Core) : Word := leWord (c.mem.bytes c.dequeAt 8)

/-- TAIL, at offset 8 (R136). -/
def Core.dequeTail (c : Core) : Word := leWord (c.mem.bytes (c.dequeAt + 8) 8)

/-- The offset of record j (R136). -/
def Core.recordAt (c : Core) (j : Word) : Nat := c.dequeAt + 64 + 64 * (j.toNat % c.dequeCap)

/-- A doubleword of the deque's header written at its bank. -/
def Core.putHeader (c : Core) (off : Nat) (v : Word) : Core := { c with mem := c.mem.putBytes (c.dequeAt + off) (natBytes v.toNat 8) }

/-- Record j written. -/
def Core.putRecord (c : Core) (j : Word) (g : Trigger) : Core :=
  { c with mem := c.mem.putBytes (c.recordAt j) (bytesOfDwords g.dwords), dequeMeta := tput c.dequeMeta j.toNat g }

/-- Push at the tail (R293): none when the deque is full. -/
def Core.push (c : Core) (g : Trigger) : Option Core :=
  let h := c.dequeHead
  let t := c.dequeTail
  if c.dequeCap ≤ (t - h).toNat then none else some ((c.putRecord t g).putHeader 8 (t + 1))

/-- Record j as a trigger: what went beside it, with the doublewords its bytes hold. -/
def Core.recordTrigger (c : Core) (j : Word) : Trigger :=
  { tget c.dequeMeta j.toNat (Trigger.of [] .record (c.job.getD 0)) with dwords := dwordsOf 8 (c.mem.bytes (c.recordAt j) 64) }

/-- Pop at the tail by the owner (R293), in one move. -/
def Core.pop (c : Core) : Option (Trigger × Core) :=
  let t := c.dequeTail - 1
  let h := c.dequeHead
  if 0 < (t - h).toInt then some (c.recordTrigger t, (c.putHeader 8 t))
  else if h = t then some (c.recordTrigger t, ((c.putHeader 0 (h + 1)).putHeader 8 (h + 1)))
  else none

/-- The records of a deque from its tail to its head, with their numbers (R288). -/
def Core.dequeRecords (c : Core) : List (Word × Trigger) :=
  let h := c.dequeHead
  let n := (c.dequeTail - h).toInt.toNat
  ((List.range (min n c.dequeCap)).map fun i => h + BitVec.ofNat 64 (n - 1 - i)).map fun j => (j, c.recordTrigger j)

/-- The owner takes record j: by Pop at the tail; at the head HEAD moves on, so that no thief takes it; between them the records above it
move down (R22, R293, DEDUCED, log 99). -/
def Core.takeRecord (c : Core) (j : Word) : Core :=
  let t := c.dequeTail - 1
  if j = t then (c.pop.map (·.2)).getD c
  else if j = c.dequeHead then c.putHeader 0 (j + 1)
  else
    let c := (List.range (t - j).toNat).foldl (fun (c : Core) i =>
      let k := j + BitVec.ofNat 64 i
      c.putRecord k (c.recordTrigger (k + 1))) c
    c.putHeader 8 t

/-! ### Home slices and global queues (R267, R296) -/

/-- The key of a job's queue at a slice. -/
def queueKey (slice job : Nat) : Nat := slice * 65536 + job % 65536

/-- The core whose router a slice is attached to (R267). -/
def sliceCore (n : Nat) : Nat :=
  let m := n % 96
  let q := m / 24
  let l := m % 24
  n / 96 * 160 + ((if q < 2 then 0 else 5) + 2 * (l / 8)) * 16 + 8 * (q % 2) + l % 8

/-! ### Messages in flight and the Lamport counters (R263, R351) -/

/-- A send adds 1 to the die's LAMPORT, which may wrap (R351). -/
def State.lamportSend (s : State) (die : Nat) : BitVec 32 × State :=
  let v := (s.die die).lamport + 1
  (v, s.modDie die fun d => { d with lamport := v, lwrap := d.lwrap || v == 0 })

/-- A delivery sets the die's LAMPORT to the greater of its own and the carried value, plus 1 (R351). -/
def State.lamportRecv (s : State) (die : Nat) (carried : BitVec 32) : State :=
  let m := if (s.die die).lamport.ult carried then carried else (s.die die).lamport
  s.modDie die fun d => { d with lamport := m + 1, lwrap := d.lwrap || m + 1 == 0 }

/-- The core a party sends from. -/
def Party.source : Party → Nat
  | .task _ c => c
  | .matrix c => c
  | .copy c => c
  | .collective d _ => 160 * d + Config.collRouter d % 160
  | .service n => serviceCore n
  | .transom q => quadCore q 0
  | .curator d => 160 * d
  | .remote _ => 0

/-- The place a packet goes to: a slice, a core, or the root switch of a peer page (R345). -/
def State.destination (s : State) : Loc → Nat
  | .glob a va => match s.peerOf a va with
    | some p => 2000 + p.root
    | none => s.homeSlice a va
  | .bank c _ => 1000 + c

/-- A packet on a route that keeps order: its class is XY or YX on the sender's die, or the sender's mask forces XY (R263, R264). -/
def State.inOrderRoute (s : State) (w : Write) : Bool := w.xy || vget (s.die (dieOf w.party.source)).routes w.cls 0 != 2

/-- The route class of a message (R262). -/
def MsgKind.cls : MsgKind → Nat
  | .lines _ => 4
  | _ => 2

/-- A message on a route that keeps order (R263, R264). -/
def State.orderedMsg (s : State) (m : Msg) : Bool := m.xy || vget (s.die (dieOf m.fromCore)).routes m.cls 0 != 2

/-- The task whose mask and phase a message carries: its sender, while it is in a slot; a refusal and a handler trigger have none (R260, R264). -/
def State.msgSender (s : State) (kind : MsgKind) (tid : Word) : Task :=
  match kind with
  | .nack _ => Task.empty
  | .trigger _ _ => Task.empty
  | _ => (s.findTid tid).elim Task.empty s.task

/-- A message enters the network with the ORD and the phase it was issued with (R260, R264, R287, R299). -/
def State.sendMsgAs (s : State) (ord : BitVec 8) (phase : BitVec 2) (kind : MsgKind) (dest from_ : Nat) (tid : Word) (job : Nat)
    (dwords : List Word) (rel : Option Release) (stamped : Bool) : State :=
  let (v, s) := if stamped then s.lamportSend (dieOf from_) else ((s.die (dieOf from_)).lamport, s)
  { s with
    nextId := s.nextId + 1,
    msgs := s.msgs ++ [⟨s.nextId, kind, dest, from_, tid, job, dwords, rel, v, stamped, false, kind.cls, ord.getLsbD kind.cls, phase,
      max 1 ((dwords.length + 31) / 32)⟩] }

/-- A message enters the network as its sender issues it now (R260, R287, R299). -/
def State.sendMsg (s : State) (kind : MsgKind) (dest from_ : Nat) (tid : Word) (job : Nat) (dwords : List Word)
    (rel : Option Release) (stamped : Bool) : State :=
  let x := s.msgSender kind tid
  s.sendMsgAs x.ord x.phase kind dest from_ tid job dwords rel stamped

/-- A message of route class 2 or 4 may arrive: on an ordered route, no packet sent earlier from its sender to its place on its class is
still on its way, a message or a near store (R263, R264). -/
def State.msgReady (s : State) (m : Msg) : Bool :=
  !s.orderedMsg m ||
    (!((s.msgs.takeWhile (·.id != m.id)).any fun p =>
      p.core == m.core && p.fromCore == m.fromCore && p.cls == m.cls && s.orderedMsg p && !p.landed) &&
    !s.path.any fun w => decide (w.sent < m.id) && w.party.source == m.fromCore && w.cls == m.cls &&
      s.destination w.loc == 1000 + m.core && s.inOrderRoute w)

/-- A message is delivered: it leaves the network and moves the receiver's LAMPORT where its sender stamped it (R351). -/
def State.deliverMsg (s : State) (m : Msg) : State :=
  let s := { s with msgs := s.msgs.filter (·.id != m.id) }
  if m.stamped then s.lamportRecv (dieOf m.core) m.lamport else s

/-- The release a task's records and messages carry (R92, R289, R299). -/
def State.snapshot (s : State) (t scope : Nat) : Option Release :=
  some ⟨scope, (s.task t).view.known, .task (s.task t).tid (coreOf t)⟩

/-- A record of a task on its way to the queue that doubleword 1 selects, with ORD as it was at its issue (R92, R264, R296). -/
def State.toQueue (s : State) (t : Nat) (ord : BitVec 8) (dwords : List Word) (rel : Option Release) (stamped : Bool) : State :=
  let x := s.task t
  let sl := s.homeSlice (s.asid x.job) (va56 ((dwords[1]?).getD 0))
  s.sendMsgAs ord x.phase (.queue sl) (sliceCore sl) (coreOf t) x.tid x.job dwords rel stamped
where va56 (v : Word) : Nat := v.toNat % 2 ^ 56

/-- A `fork` or `spawn` record takes its place (R92): the counter's COUNT first, then the deque's tail or the core's dispatch
queue; a full deque sends it to its global queue. LAMPORT does not move for it, and a spawned record pulses no input of the crossbar (R228,
R351, DESIGN CHOICE, log 100). -/
def State.placeChild (s : State) (t : Nat) (dwords : List Word) (counter : Option Word) (spawn : Bool) (ord : BitVec 8) : State :=
  let x := s.task t
  let core := coreOf t
  let rel := s.snapshot t 4
  let s := match counter with
    | some a => s.hwUpdate (.task x.tid core) rel (s.asid x.job) (a.toNat % 2 ^ 56) 12 1
    | none => s
  let (g, s') := s.accept (dieOf core) { Trigger.of dwords (if spawn then .spawned else .record) x.job with counter := counter, rel := rel }
  if spawn then s'.modCore core fun c => { c with mailbox := c.mailbox ++ [g] }
  else
    match (s'.core core).push g with
    | some c => s'.modCore core fun _ => c
    | none => s.toQueue t ord dwords rel false

end Sys2Proof.Machine
end

