-- ==== Sys2Proof/Machine/Sync.lean ====
section
/-! DEFINITION. Scopes, releases, acquires and phases (R277-R281, R284, R285), and acceptance of a copy by its engine with the
commit of a shadow buffer (R101, R111, R112, R211). -/

namespace Sys2Proof.Machine

/-! ### Scopes (R277) -/

/-- The core, quad and die a party lies in, where it lies in one. -/
def Party.place : Party → Option Nat × Option Nat × Option Nat
  | .task _ c => (some c, some (quadOf c), some (dieOf c))
  | .matrix c => (some c, some (quadOf c), some (dieOf c))
  | .copy c => (some c, some (quadOf c), some (dieOf c))
  | .collective d _ => (none, none, some d)
  | .service n => (none, none, some (n / 4))
  | .transom q => (none, some q, some (q / 40))
  | .curator d => (none, none, some d)
  | .remote _ => (none, none, none)

/-- Whether a party is of this package. -/
def Party.here : Party → Bool
  | .remote _ => false
  | _ => true

/-- Whether two parties lie in one instance of a scope (R277). -/
def sameInstance (scope : Nat) (a b : Party) : Bool :=
  match scope with
  | 0 => a == b
  | 1 => a.place.1.isSome && a.place.1 == b.place.1
  | 2 => a.place.2.1.isSome && a.place.2.1 == b.place.2.1
  | 3 => a.place.2.2.isSome && a.place.2.2 == b.place.2.2
  | 4 => a.here && b.here
  | _ => true

/-! ### Releases and phases (R278, R285) -/

/-- The counts of a phase agree: every write issued in it has arrived. -/
def View.agrees (v : View) (q : Nat) : Bool := (v.issued[q]?).getD 0 == (v.arrived[q]?).getD 0

/-- The counts of every phase but one agree. -/
def View.othersAgree (v : View) (p : Nat) : Bool := (List.range 4).all fun q => q == p || v.agrees q

/-- The counts of the other phases reset to 0. -/
def View.clearOthers (v : View) (p : Nat) : View :=
  { v with issued := v.issued.zipIdx.map fun (n, q) => if q = p then n else 0,
           arrived := v.arrived.zipIdx.map fun (n, q) => if q = p then n else 0 }

/-- PHASE moves on when the next phase is free (R278 step 1, R285). -/
def Task.advancePhase (x : Task) : Option Task :=
  let p : BitVec 2 := x.phase + 1
  if x.view.agrees p.toNat then some { x with phase := p } else none

/-- The party is a task with this identifier. -/
def Party.isTask (p : Party) (tid : Word) : Bool := match p with | .task u _ => u == tid | _ => false

/-- Writes of a task to peer pages whose members have not all acknowledged (R278 step 3, R343). -/
def State.peerPending (s : State) (tid : Word) : Bool := s.atSwitch.any fun w => w.party.isTask tid

/-- A release by a task (R278), as far as it goes now: whether it is complete, and the state. -/
def State.releaseNow (s : State) (t scope : Nat) : Bool × State :=
  if scope = 0 then (true, s)
  else
    let x := s.task t
    match (if x.view.relStarted then some x else (x.advancePhase).map fun y => { y with view := { y.view with relStarted := true } }) with
    | none => (false, s)
    | some y =>
      if y.view.othersAgree y.phase.toNat && !(scope == 5 && s.peerPending y.tid) then
        let v := y.view.clearOthers y.phase.toNat
        (true, s.setTask t { y with view := { v with rel := some ⟨scope, y.view.known, .task y.tid (coreOf t)⟩, relStarted := false } })
      else (false, s.setTask t y)

/-! ### Acquires (R279, R281) -/

/-- A write's party where it stood at a release the write carries (R279): the release's own place where the party made it. -/
def Party.atRelease (p : Party) (r : Release) : Party :=
  match p, r.writer with
  | .task a _, .task b c => if a = b then .task b c else p
  | _, _ => p

/-- The writes an acquire brings into a view: the snapshots it synchronises with, and what had arrived from its instance. -/
def State.acquired (s : State) (me : Party) (readSince : List Nat) (scope : Nat) : List Nat :=
  s.hist.foldl (fun acc w =>
    let acc := if sameInstance scope me w.party then insertNat acc w.id else acc
    if !readSince.contains w.id || !sameInstance scope me w.party then acc
    else w.rel.foldl (fun acc r => if sameInstance r.scope (w.party.atRelease r) me then union r.snap acc else acc) acc) []

/-- The cached copies an acquire discards (R281): the core's own from `.quad` on, the Annex's from `.die` on. -/
def State.dropCopies (s : State) (core scope : Nat) : State :=
  if scope < 2 then s
  else
    let s := s.modCore core fun c => { c with cacheLines := [] }
    if scope < 3 then s else s.modQuad (quadOf core) fun q => { q with annex := [] }

/-- An acquire by a task (R279). -/
def State.acquire (s : State) (t scope : Nat) : State :=
  if scope = 0 then s
  else
    let x := s.task t
    let got := s.acquired (.task x.tid (coreOf t)) x.view.readSince scope
    (s.dropCopies (coreOf t) scope).modTask t fun y => { y with view := { y.view with known := union got y.view.known, readSince := [] } }

/-- An acquire that synchronises with one named release, where there is one (R280, R282). -/
def State.acquireFrom (s : State) (t : Nat) (r : Option Release) : State :=
  match r with
  | some r => s.modTask t fun y => { y with view := { y.view with known := union r.snap y.view.known } }
  | none => s

/-- The acquire at `.quad` of a ring load, which has read TAIL: it synchronises with the releases TAIL carries (R130, R279, R280). -/
def State.acquireRing (s : State) (q : Nat) : State :=
  let me := Party.task s.me.tid s.myCore
  let rels := (s.me.q.toList[q]?.join.bind s.ring).elim [] (·.rel)
  (rels.foldl (fun s r => if sameInstance 2 me r.writer && sameInstance r.scope r.writer me then s.acquireFrom s.focus (some r) else s) s).acquire
    s.focus 2

/-! ### The gates of the engines (R229, R230) -/

/-- The matrix gate of a core waits for a token of a counter. -/
def Core.matrixWants (c : Core) (n : Nat) : Bool := c.xbar.men && c.xbar.mctr.toNat == n && (c.mx.queue.head?).any (!·.token)

/-- The gates of a core's engines wait for a token of a counter: they go before the tasks in `wait` (R229). -/
def Core.gatesWant (c : Core) (n : Nat) : Bool :=
  c.matrixWants n || (c.xbar.cctr.toNat == n && c.slots.toList.any fun k => k.copy.any (·.gated))

/-! ### Acceptance of a copy (R211) -/

/-- The scope of a copy's ordering (R211). -/
def copyScope (ssp dsp : Nat) : Nat := if ssp = 1 ∧ (dsp = 1 ∨ dsp = 3) then 1 else 4

/-- A copy is accepted: its engine takes it with an acquire at the copy's scope that synchronises with its task's release, and where CEN = 1 it
waits at the copy gate (R211, R230, R279, R280, R282). -/
def State.acceptCopy (s : State) (t : Nat) (k : Copy) : Option (Word × State) :=
  (s.claimCopy t { k with gated := (s.core (coreOf t)).xbar.cen }).map fun (w, s) =>
    (w, s.learn (.copy (coreOf t)) (s.acquired (.copy (coreOf t)) [] (copyScope k.ssp (if k.stream.isSome then 1 else k.dsp))))

/-! ### Shadow buffer and commit (R93, R101, R111, R112, R284) -/

/-- The context has no write on its way. -/
def State.allArrived (s : State) (t : Nat) : Bool :=
  let x := s.task t
  x.sb.isEmpty && !(s.path ++ s.atSwitch).any fun w => w.party.isTask x.tid

/-- The first operations of a shadow buffer take effect, as many as may now; whether all have (R93, R101). A release marker is a
release of its task among them (R284). -/
def State.commitSome (t : Nat) : Nat → State → Bool × State
  | 0, s => ((s.task t).shadow.isEmpty, s)
  | n + 1, s =>
    match (s.task t).shadow with
    | [] => (true, s)
    | h :: r =>
      let pop (s : State) : State := s.modTask t fun x => { x with shadow := r }
      match h with
      | .write w => State.commitSome t n ((pop s).toStoreBuffer t w)
      | .release sc => match s.releaseNow t sc with
        | (true, s) => State.commitSome t n (pop s)
        | (false, s) => (false, s)
      | .fork g counter spawn ord =>
        if s.allArrived t then State.commitSome t n ((pop s).placeChild t g.dwords counter spawn ord) else (false, s)
      | .copy k =>
        if s.allArrived t then
          match s.acceptCopy t k with
          | some (_, s) => State.commitSome t n (pop s)
          | none => (false, s)
        else (false, s)

/-- The commit of a restartable task (R101), as far as it goes now. The task is committed from its first step on, so that nothing that
has left the buffer is replayed; a task whose buffer is empty has nothing to commit. -/
def State.commitNow (s : State) (t : Nat) : Bool × State :=
  let s := if (s.task t).buffers then s.modTask t fun x => { x with committed := true, shadowUsed := 0 } else s
  State.commitSome t (s.task t).shadow.length s

/-- An operation that is irrevocable (R111): ILLEGAL in a guarded task (R226), else the task commits first; while the commit is
under way the instruction has not retired. -/
def State.irrevocable (s : State) (i : Instr) (k : State → Except Exit State) : Except Exit State := do
  need (!s.me.guarded) (illegal i)
  match s.commitNow s.focus with
  | (true, s) => k s
  | (false, s) => .ok (s.pass 1 0)

/-- A release completes before what follows it (R280); while it waits the instruction has not retired. -/
def State.released (s : State) (scope : Nat) (k : State → Except Exit State) : Except Exit State :=
  match s.releaseNow s.focus scope with
  | (true, s) => k s
  | (false, s) => .ok (s.pass 1 0)

/-- The task of a guarded tile ends with its buffer marked overflowed (R112). -/
def State.overflowTile (s : State) (t : Nat) : State :=
  (s.endTask t 0 2).markTile (s.task t) 2 true

/-- An operation of a task that may buffer (R111, R112): held when it fits, the tile's end or a commit and the direct effect
when it does not, the direct effect otherwise. -/
def State.hold (s : State) (bytes : Nat) (h : Held) (direct : State → Except Exit State) (held : State → Except Exit State) :
    Except Exit State :=
  let x := s.me
  if !x.buffers then direct s
  else if x.shadowUsed + bytes ≤ x.shadowKiB * 1024 then
    held (s.onMe fun y => { y with shadow := y.shadow ++ [h], shadowUsed := y.shadowUsed + bytes })
  else if x.guarded then .ok (s.overflowTile s.focus)
  else
    match s.commitNow s.focus with
    | (true, s) => direct s
    | (false, s) => .ok (s.pass 1 0)

/-- Whether an access to a location waits in the shadow buffer: global and near, not the core's own banks (R111). -/
def State.shadowed (s : State) : Loc → Bool
  | .glob _ _ => true
  | .bank c _ => c != s.myCore

/-- Whether a word is the last of a sector that the writes of one store cover whole (R333). -/
def coversSector (ws : List (Loc × List Byte × List Byte)) (l : Loc) : Bool :=
  decide (l.addr % 64 = 60) && (List.range 16).all fun i => ws.any fun w =>
    decide (w.1.addr + 60 = l.addr + 4 * i) && w.2.1.length == 4 && w.2.2.isEmpty

/-- A store or `red.*` of the issuing task at a place, after a release at a scope (0: none) (R111, R276, R280): to the shadow buffer, the
release as a marker among its operations, or to the store buffer; a vector store whose lanes are all disabled writes nothing and still takes
its 64 bytes. -/
def State.issueAfter (s : State) (scope : Nat) (place : Loc) (ws : List (Loc × List Byte × List Byte)) (op : Option (BitVec 4)) (cls bytes : Nat)
    (k : State → Except Exit State) : Except Exit State :=
  let mk (s : State) (w : Loc × List Byte × List Byte) : Write :=
    { s.newWrite s.focus w.1 w.2.1 w.2.2 op cls with cover := coversSector ws w.1 }
  let direct (s : State) : Except Exit State := s.released scope fun s =>
    k (ws.foldl (fun s w => ({ s with nextId := s.nextId + 1 } : State).toStoreBuffer s.focus (mk s w)) s)
  if s.me.buffers && s.shadowed place && cls != 8 then
    let x := s.me
    let mark : List Held := if scope = 0 then [] else [.release scope]
    if x.shadowUsed + bytes ≤ x.shadowKiB * 1024 then
      k (ws.foldl (fun s w => ({ s with nextId := s.nextId + 1 } : State).onMe fun y =>
          { y with shadow := y.shadow ++ [.write (mk s w)] })
        (s.onMe fun y => { y with shadow := y.shadow ++ mark, shadowUsed := y.shadowUsed + bytes }))
    else if x.guarded then .ok (s.overflowTile s.focus)
    else
      match s.commitNow s.focus with
      | (true, s) => direct s
      | (false, s) => .ok (s.pass 1 0)
  else direct s

/-- A store of the issuing task at a place (R111, R276). -/
def State.issueWrites (s : State) (place : Loc) (ws : List (Loc × List Byte × List Byte)) (op : Option (BitVec 4)) (cls bytes : Nat)
    (k : State → Except Exit State) : Except Exit State := s.issueAfter 0 place ws op cls bytes k

/-- The route class of a location (R262); a service core's accesses go on class 7 (R272). An access to the own banks is no packet of the network:
9 stands for it. -/
def State.routeOf (s : State) : Loc → Nat
  | .glob _ _ => if 10240 ≤ s.focus then 7 else 0
  | .bank c _ => if 10240 ≤ s.focus then 7 else if c = s.myCore then 9 else 4

end Sys2Proof.Machine
end

