-- ==== Sys2Proof/Machine/Cache.lean ====
section
/-! DEFINITION. Write-back, invalidation and prefetch of lines in L2 and in the caches above it (R137, R138, R265, R266, R268,
R270, R324, R326). -/

namespace Sys2Proof.Machine

/-- Whether a line key lies in a range of lines of an address space. -/
def keyIn (asid va n key : Nat) : Bool :=
  decide (n ≠ 0) && keyAsid key == spaceOf asid va && decide (va / 256 ≤ key % 2 ^ 48) && decide (key % 2 ^ 48 ≤ (va + n - 1) / 256)

/-- The lines of a range present in L2. -/
def State.linesIn (s : State) (asid va n : Nat) : List Nat := (s.l2.map (·.1)).filter (keyIn asid va n)

/-! ### The local cache and the Annex (R124, R256, R281) -/

/-- The Cache banks of a core, the highest first. -/
def Core.cacheBanks (c : Core) : List Nat := ((List.range 384).filter fun b => c.role b == 1).reverse

/-- The number of Cache banks a core gives to the Annex (R256). -/
def State.given (s : State) (core : Nat) : Nat :=
  let q := s.quad (quadOf core)
  if q.pooled then bits q.qpool (7 * quadIndex core) 7 else 0

/-- The ways of a core's local cache: its Cache banks without those it gives (R124, R256). -/
def State.localWays (s : State) (core : Nat) : List Nat := ((s.core core).cacheBanks.drop (s.given core)).reverse

/-- The ways of a quad's Annex: the given banks, the highest-numbered of each core (R256). -/
def State.annexWays (s : State) (quad : Nat) : List Nat :=
  [0, 1, 2, 3].flatMap fun k =>
    ((s.core (quadCore quad k)).cacheBanks.take (s.given (quadCore quad k))).reverse.map fun b => 512 * k + b

/-- The line used last comes first. -/
def usedNow (l : List Copied) (key : Nat) : List Copied := l.filter (·.key == key) ++ l.filter (·.key != key)

/-- A line filled into a cache of some ways, 16 sets by VA[11:8]: a free way of its set, else that of the line used longest ago, which is
evicted (R124, R256, DESIGN CHOICE, log 12). -/
def fillCache (ways : List Nat) (c : Copied) (now : Nat) (l : List Copied) : List Copied × Option Copied :=
  let l := l.filter fun e => e.key != c.key && e.live now
  let mates := l.filter fun e => e.key % 16 == c.key % 16
  let fresh (w : Nat) : Copied := { c with at_ := now, bank := w }
  match ways.find? fun w => !mates.any (·.bank == w) with
  | some w => (fresh w :: l, none)
  | none => match (if ways = [] then none else mates.getLast?) with
    | some e => (fresh e.bank :: l.filter (·.key != e.key), some e)
    | none => (l, none)

/-- The copy of a line as its home gives it, with what its sectors' checks say (R331). -/
def State.homeCopy (s : State) (key : Nat) : Copied :=
  let at_ (n : Nat) : BitVec 4 := BitVec.ofNat 4 (bitsNat ((List.range 4).map fun i =>
    s.sectorState (.glob (keyAsid key) (keyVa key + 64 * i)) == n))
  ⟨key, s.cycle, 0, at_ 1, at_ 2⟩

/-- The copy of a line that a core may take: the Annex's of a pooled quad, else the home's (R124). -/
def State.copyFor (s : State) (core key : Nat) : Copied := (s.heldCopy core key).getD (s.homeCopy key)

/-- A copy of a line filled into the Annex of a quad. -/
def State.fillAnnex (s : State) (quad : Nat) (c : Copied) : State :=
  s.modQuad quad fun q => { q with annex := (fillCache (s.annexWays quad) c s.cycle q.annex).1 }

/-- A copy of a line filled into a core's local cache; the line it evicts goes to the Annex of a pooled quad (R256). -/
def State.fillLocal (s : State) (core : Nat) (c : Copied) : State :=
  let r := fillCache (s.localWays core) c s.cycle (s.core core).cacheLines
  let s := s.modCore core fun c => { c with cacheLines := r.1 }
  match r.2 with
  | some k => if (s.quad (quadOf core)).pooled then s.fillAnnex (quadOf core) k else s
  | none => s

/-- A load reaches a line's home slice: it is counted for replication (R269). -/
def State.noteLoad (s : State) (core key : Nat) : State :=
  { s with hot := tput s.hot key ((core, s.cycle) :: (tget s.hot key []).filter fun e => decide (s.cycle < e.2 + 4096)) }

/-- The quadrant of a core on its die. -/
def quadrantOf (c : Nat) : Nat := 2 * (rowOf c / 5) + colOf c / 8

/-- The quadrant of a core holds a helper of a line, to which its redirect sends its loads; without one they go to the home (R269, R270, DEDUCED,
log 27). -/
def State.helped (s : State) (core key : Nat) : Bool :=
  (s.die (dieOf core)).replicas.any fun r => r.1 == key && r.2.contains (quadrantOf core)

/-- A load of a global line by a core looks up its local cache, then the Annex, then goes to the line's home, or where a redirect sends it;
a line it did not find is filled into the local cache (R124, R256, R266, R269). -/
def State.lookUp (s : State) (core asid va n : Nat) : State :=
  let key := lineKey asid va
  let c := s.core core
  let q := quadOf core
  if holdsLine c.cacheLines key s.cycle then s.modCore core fun c => { c with cacheLines := usedNow c.cacheLines key }
  else if (s.quad q).pooled && holdsLine (s.quad q).annex key s.cycle then
    (s.modQuad q fun k => { k with annex := usedNow k.annex key }).fillLocal core (s.copyFor core key)
  else
    let s := if c.redirects.contains key && s.helped core key then s else s.noteLoad core key
    let s := s.fillWords (.glob asid va) n
    s.fillLocal core (s.homeCopy key)

/-- The lines that a load of a location looks up. -/
def State.lookUpLoc (s : State) (core : Nat) (l : Loc) (n : Nat) : State :=
  match l with
  | .bank _ _ => s
  | .glob a va =>
    let s := s.lookUp core a va (min n (256 - va % 256))
    if va % 256 + n ≤ 256 then s else s.lookUp core a ((va / 256 + 1) * 256 % 2 ^ 56) (va % 256 + n - 256)

/-- The core's cached copies of a range dropped (R137). -/
def State.dropCoreLines (s : State) (core asid va n : Nat) : State :=
  s.modCore core fun c => { c with cacheLines := c.cacheLines.filter fun e => !keyIn asid va n e.key }

/-- The Annex's copies of a range dropped (R137). -/
def State.dropAnnexLines (s : State) (quad asid va n : Nat) : State :=
  s.modQuad quad fun q => { q with annex := q.annex.filter fun e => !keyIn asid va n e.key }

/-- The operands of a cache maintenance instruction: address and byte count (R137). -/
def State.maintRange (s : State) (a b : Gpr) : Nat × Nat := (va56 (s.g a), bits (s.g b) 0 32)
where va56 (v : Word) : Nat := v.toNat % 2 ^ 56

/-- Whether the store buffer of the issuing task holds a store to the covered lines (R138). -/
def State.storesIn (s : State) (va n : Nat) : Bool :=
  s.me.sb.any fun w => match w.loc with
    | .glob a v => keyIn (s.asid s.me.job) va n (a * 2 ^ 48 + v / 256)
    | .bank _ _ => false

/-- A later load of the task sees the lines refetched (R138): it knows what had arrived at their homes, but for a line that the Annex still
holds. -/
def State.refetched (s : State) (asid va n : Nat) : State :=
  let fresh (w : Write) : Bool := match w.loc with
    | .glob a v => keyIn asid va n (lineKey a v) && !(s.quad (quadOf s.myCore)).annex.any (·.key == lineKey a v)
    | .bank _ _ => false
  let ids := (s.hist.filter fresh).map (·.id)
  s.onMe fun x => { x with view := { x.view with known := union ids x.view.known } }

/-- The withdrawal of the replicated lines of a range begins (R270). -/
def State.withdrawIn (s : State) (asid va n : Nat) : State :=
  ((s.linesIn asid va n).filter fun k => s.replicated (.glob (keyAsid k) (keyVa k))).foldl
    (fun s k => s.startWithdraw (keyAsid k) (keyVa k)) s

/-- A line of a range is replicated. -/
def State.replicatedIn (s : State) (asid va n : Nat) : Bool :=
  (s.linesIn asid va n).any fun k => s.replicated (.glob (keyAsid k) (keyVa k))

/-- A line leaves L2 by a `cinv`, which R269 counts. -/
def State.invalidate (s : State) (k : Nat) : State :=
  let s := s.dropLine (keyAsid k) (keyVa k)
  { s with invalidated := tput s.invalidated k s.cycle }

/-- `cinv`: lines dropped from the Cache banks, from `.quad` on from the Annex, from `.die` on written back and dropped from the
home slice once no replica of them is left (R137, R270); it acts after the task's stores to the lines have left its store buffer (R138). -/
def execCinv (scope : BitVec 3) (a b : Gpr) (s : State) : Host.Outcome State Fault Refusal :=
  run s do
    let (va, n) := s.maintRange a b
    let asid := s.asid s.me.job
    need (!s.storesIn va n) .stall
    if 3 ≤ scope.toNat && s.replicatedIn asid va n then .ok ((s.withdrawIn asid va n).pass 1 0) else
    let s1 := s.dropCoreLines s.myCore asid va n
    let s2 := if 2 ≤ scope.toNat then s1.dropAnnexLines (quadOf s.myCore) asid va n else s1
    let s3 := if 3 ≤ scope.toNat then (s2.linesIn asid va n).foldl (fun s k => s.invalidate k) s2 else s2
    .ok ((s3.refetched asid va n).retire 4)

/-- `cwb`: from `.die` on dirty L2 sectors are written back and stay valid and clean; below that no effect on data (R137). -/
def execCwb (scope : BitVec 3) (a b : Gpr) (s : State) : Host.Outcome State Fault Refusal :=
  run s do
    let (va, n) := s.maintRange a b
    let asid := s.asid s.me.job
    need (!s.storesIn va n) .stall
    let s3 := if 3 ≤ scope.toNat then (s.linesIn asid va n).foldl (fun s k => s.writeBack (keyAsid k) (keyVa k)) s else s
    .ok (s3.retire 4)

/-- The lines a range covers, as their first bytes. -/
def linesOf (va n : Nat) : List Nat :=
  if n = 0 then [] else (List.range ((va + n - 1) / 256 - va / 256 + 1)).map fun i => (va / 256 + i) * 256

/-- A prefetch of a line goes on (R137): its page may be read, and where L2 misses the translation finds the page; else it is dropped
silently. -/
def State.mayPrefetch (s : State) (asid va : Nat) : Bool :=
  let at_ := s.attr s.myCore asid va
  let w := s.translate asid va
  at_.kind == 2 && at_.r && ((s.line asid va).mask == BitVec.allOnes 64 || (w.kind == 2 && natBit w.pte.toNat 1))

/-- A line fetched into L2 (R266). -/
def State.prefetchL2 (s : State) (asid va : Nat) : State :=
  [0, 64, 128, 192].foldl (fun s o => s.fillSector asid (va + o)) s

/-- `cpref`: into the Cache banks, the Annex (or L2 when the quad is not pooled), or L2 (R137). -/
def execCpref (scope : BitVec 3) (a b : Gpr) (s : State) : Host.Outcome State Fault Refusal :=
  let (va, n) := s.maintRange a b
  let asid := s.asid s.me.job
  let core := s.myCore
  let into (s : State) (v : Nat) : State :=
    if !s.mayPrefetch asid v then s
    else
      let s := s.prefetchL2 asid v
      match scope.toNat with
      | 1 => s.fillLocal core (s.homeCopy (lineKey asid v))
      | 2 => if (s.quad (quadOf core)).pooled then s.fillAnnex (quadOf core) (s.homeCopy (lineKey asid v)) else s
      | _ => s
  .next (((linesOf va n).foldl into s).retire 4)

end Sys2Proof.Machine
end

