-- ==== Sys2Proof/Machine/Flags.lean ====
section
/-! DEFINITION. How raised flags end an instruction (R50, R51). The flags a value raises are computed with it in Numbers. -/

namespace Sys2Proof.Machine

/-- The OR of the flags of the lanes or elements. -/
def orFlags : List Flags → Flags
  | [] => 0
  | f :: r => f ||| orFlags r

/-- The lowest lane or element whose own flags meet FTRAPEN, counted from a first index. -/
def firstRaised (en : Flags) : List Flags → Nat → Nat
  | [], i => i
  | f :: r, i => if f &&& en ≠ 0 then i else firstRaised en r (i + 1)

/-- The check of R51: ARITH when the raised set meets FTRAPEN, before any destination is written. -/
def checkArith (x : Task) (l : List Flags) : Except Exit Unit :=
  need (orFlags l &&& x.ftrapen == 0) (.arith (orFlags l) (firstRaised x.ftrapen l 0))

/-- The raised set of an instruction that retires joins FFLAGS. -/
def State.raiseMine (s : State) (l : List Flags) : State := s.raise s.focus (orFlags l)

/-- NV set by an atomic, which never traps ARITH (R127). -/
def State.raiseNV (s : State) (c : Bool) : State := if c then s.raise s.focus flagNV else s

/-- The carry-free overflow checks of address arithmetic (R87): a sum outside 0 to 2^56 - 1. -/
def outside56 (t : Int) : Bool := decide (t < 0) || decide ((2 ^ 56 : Nat) ≤ t.toNat)

end Sys2Proof.Machine
end

