-- ==== Sys2Proof/Machine/Operands.lean ====
section
/-! DEFINITION. Every operand form: condition codes, shift counts and bitfields, the address of a memory operand in each space
with its checks, ring operands, decoding accesses and their tags (R44, R45, R64-R69, R72, R121-R123, R130). -/

namespace Sys2Proof.Machine

/-! ### Scalar forms (R69, R72, R81) -/

/-- The scalar condition codes (R72); codes 10-15 name none. -/
def ccHolds (cc : BitVec 4) (a b : Word) : Bool :=
  match cc.toNat with
  | 0 => a == b
  | 1 => a != b
  | 2 => a.slt b
  | 3 => !a.slt b
  | 4 => a.ult b
  | 5 => !a.ult b
  | 6 => a.sle b
  | 7 => !a.sle b
  | 8 => a.ule b
  | 9 => !a.ule b
  | _ => false

/-- A shift count of a register: B[5:0] (R81). -/
def shiftOf (b : Word) : Nat := bits b 0 6

/-- Bits [pos + len - 1 : pos] of a register, bits at or above 64 reading as zero (R69). -/
def bitField (a : Word) (pos len : Nat) : Word := BitVec.ofNat 64 (a.toNat / 2 ^ pos % 2 ^ len)

/-- The field sign-extended from its highest extracted bit (R69, R85). -/
def bitFieldS (a : Word) (pos len : Nat) : Word := BitVec.ofInt 64 (toS len (a.toNat / 2 ^ pos % 2 ^ len))

/-- The low len bits of A in place of the field of D; bits at or above 64 are dropped (R69, R85). -/
def bitInsert (d a : Word) (pos len : Nat) : Word :=
  let m : Word := BitVec.ofNat 64 ((2 ^ len - 1) * 2 ^ pos)
  d &&& ~~~m ||| (a <<< pos) &&& m

/-! ### Spaces and addresses (R64, R121) -/

/-- The 56-bit part of an address register (R43). -/
def va56 (v : Word) : Nat := v.toNat % 2 ^ 56

/-- The location an address names: global through the job's address space, local, or near through a coordinate register; a ROW of
10-15 traps PROTECT (R121). -/
def State.place (s : State) (sp : BitVec 2) (addr coord : Word) (kind : Nat) : Except Exit Loc :=
  match sp.toNat with
  | 0 => .ok (.glob (spaceOf (s.asid s.me.job) (va56 addr)) (va56 addr))
  | 1 => .ok (.bank s.myCore (va56 addr))
  | _ => match coreAt coord.toNat with
    | some c => .ok (.bank c (va56 addr))
    | none => .error (.trap 4 kind (BitVec.ofNat 64 (va56 addr)) (some coord))

/-- What an access does (R105 SUB, R117, R207, R322). -/
structure Access where
  kind : Nat
  reads : Bool
  writes : Bool
  deriving DecidableEq, Repr

/-- A load. -/
def accLoad : Access := ⟨0, true, false⟩
/-- A store. -/
def accStore : Access := ⟨1, false, true⟩
/-- An atomic with a result: it reads, so it needs R as well (R322). -/
def accAtomic : Access := ⟨3, true, true⟩
/-- A `red.*`. -/
def accRed : Access := ⟨3, false, true⟩

/-- A watchpoint of the context that an access meets (R114): ranges with a base, a size, and bit 0 for loads, bit 1 for stores.
It covers global addresses. -/
def Task.watchHit (x : Task) (l : Loc) (n : Nat) (a : Access) : Bool :=
  match l with
  | .bank _ _ => false
  | .glob _ va => !x.skipStop.getLsbD 1 && x.watch.any fun w =>
      (a.reads && natBit w.2.2 0 || a.writes && natBit w.2.2 1) && decide (w.1 < va + n) && decide (va < w.1 + w.2.1)

/-- The bank roles that an access of n bytes meets (R117). A near access without a result that its target refuses is not refused here
(R123). -/
def State.checkRole (s : State) (l : Loc) (n : Nat) (a : Access) : Except Exit Unit :=
  match l with
  | .glob _ _ => .ok ()
  | .bank c off =>
    if c = s.myCore || a.reads then
      match (s.core c).refused a.writes off n with
      | some o => .error (.trap 4 a.kind (BitVec.ofNat 64 o) none)
      | none => .ok ()
    else .ok ()

/-- The faults of an access of n bytes at a location (R114, R117, R123, R323): role, translation, watchpoint; a service core's
access that its page refuses is dropped (R327, R335). -/
def State.checkPlace (s : State) (l : Loc) (n : Nat) (a : Access) : Except Exit Unit := do
  match l with
  | .glob asid va => match s.checkPages (unitOf s.focus) asid a.reads a.writes false a.kind va n with
    | .error (.trap c k v i) => .error (if 10240 ≤ s.focus then .dropped asid va n else .trap c k v i)
    | r => r
  | .bank _ _ => s.checkRole l n a
  need (!s.me.watchHit l n a) (.trap 12 a.kind (BitVec.ofNat 64 l.addr) none)

/-- An access waits for the watermark of a copy that covers its bytes (R207); a near store does not. -/
def State.checkWater (s : State) (l : Loc) (n : Nat) (a : Access) : Except Exit Unit :=
  match l with
  | .bank c off => need (!((a.reads || c == s.myCore) && s.watchedRange c off n)) (.wait .watermark)
  | .glob _ _ => .ok ()

/-- The checks of an access of n bytes at a location before it takes effect, with the carried checks of a read: of a load where the core finds it, of
an atomic at its home (R333). -/
def State.checkAccess (s : State) (l : Loc) (n : Nat) (a : Access) : Except Exit Unit := do
  s.checkPlace l n a
  s.checkWater l n a
  if a.reads then (if a.writes then s.checkSectors l n else s.checkLoad s.myCore l n)

/-- The attribute cache after an access. -/
def State.fillLoc (s : State) (l : Loc) (n : Nat) : State :=
  match l with
  | .glob a va => s.fillPages (unitOf s.focus) a va n
  | .bank _ _ => s

/-- The location of a Mem operand (R64) with its role and alignment checks, in the order of R123: `off` in units of the size, the coordinate register's
number in OFF9[8:3] for the near space. TRAPVAL of its MISALIGN is the whole sum, its tag byte included (DESIGN CHOICE, log 104). -/
def State.memOperand (s : State) (a : Gpr) (sp sz : BitVec 2) (off : BitVec 9) (ext : Option (BitVec 20)) (acc : Access) :
    Except Exit Loc := do
  let size := 2 ^ sz.toNat
  let o : Word := if sp = 2 then
      match ext with
      | some e => sx (e ++ off.extractLsb' 0 3)
      | none => zx (off.extractLsb' 0 3)
    else
      match ext with
      | some e => sx (e ++ off)
      | none => sx off
  let addr := s.g a + o * BitVec.ofNat 64 size
  let l ← s.place sp addr (s.g (off.extractLsb' 3 6)) acc.kind
  s.checkRole l size acc
  need (addr.toNat % size == 0) (misalign addr)
  .ok l

/-! ### Ring operands (R130, R133, R135) -/

/-- The handle of a ring operand, bound or BOUND (R14). -/
def State.ringHandle (s : State) (q : Nat) : Except Exit RingRef :=
  match vget s.me.q q none with
  | some r => .ok r
  | none => .error (unbound false q)

/-- The ring of a handle; a handle holds its entry configured while it is bound. -/
def State.ringOf (s : State) (r : RingRef) : Ring := (s.ring r).getD ⟨0, 1, 3, false, 0, 0, 0, 0, [], [], []⟩

/-- The offset of a slot (R128). -/
def Ring.slot (r : Ring) (j : Nat) : Nat := r.base + j % r.cap * 2 ^ r.slog

/-- The records of a message ring from HEAD on that are no pads (R131, R133). -/
def Ring.records (r : Ring) : List (BitVec 32 × Nat × Bool) := r.marks.filter fun m => !m.2.2

/-- The slot a consumer load reads: HEAD, or on a message ring the first record that is no pad (R130). -/
def Ring.readSlot (r : Ring) : Nat :=
  if r.msg then (r.records.head?).elim r.head.toNat (·.1.toNat) else r.head.toNat

/-- The location of a ring load (R130): it waits until a slot is filled. -/
def State.ringLoad (s : State) (i : Instr) (q size : Nat) : Except Exit Loc := do
  let h ← s.ringHandle q
  let r := s.ringOf h
  need (decide (size ≤ 2 ^ r.slog)) (illegal i)
  need (if r.msg then !r.records.isEmpty else decide (1 ≤ r.filled)) (.wait .ring)
  .ok (.bank h.core (r.slot r.readSlot))

/-- A copy that is filling a ring holds back its other producers (R216). -/
def State.ringBusy (s : State) (r : RingRef) : Bool :=
  s.cores.any fun e => e.2.slots.toList.any fun k => k.copy.any fun c => c.ring == some r

/-- The location of a ring store (R130): only a task ring, and it waits until a slot is free. -/
def State.ringStore (s : State) (i : Instr) (q size : Nat) : Except Exit Loc := do
  let h ← s.ringHandle q
  let r := s.ringOf h
  need (decide (size ≤ 2 ^ r.slog)) (illegal i)
  need (!r.msg) (illegal i)
  need (decide (1 ≤ r.free)) (.wait .ring)
  .ok (.bank h.core (r.slot r.tail.toNat))

/-! ### Tags of decoding accesses (R43-R45) -/

/-- The format of a pointer's tag (R43). -/
def tagFmt (v : Word) : Nat := bits v 59 5

/-- The block-length log of a pointer's tag (R43). -/
def tagBlog (v : Word) : Nat := bits v 56 3

/-- The format checks of a decoding access (R45); `scale` when the instruction takes a scale operand from the pointer. -/
def checkTag (v : Word) (scale : Bool) : Except Exit Unit := do
  need (fmtClass (tagFmt v) == .block || tagBlog v == 0) (.trap 5 0 v none)
  need (tagFmt v != 31 || scale) (.trap 5 0 v none)

/-- A pointer tagged FP64 makes a decoding access an extension-D instruction (R29). -/
def tagNeedsD (s : State) (v : Word) : Except Exit Unit := if tagFmt v = 1 then needD s else .ok ()

/-! ### Vector registers (R16, R30, R139) -/

/-- The lease check of the vector registers an instruction names, in field order (R16). -/
def State.checkLease (s : State) (l : List Vr) : Except Exit Unit :=
  match l.find? fun r => decide (leaseSize s.me.leaseCls ≤ r.toNat) with
  | some r => .error (.trap 1 0 (BitVec.ofNat 64 r.toNat) none)
  | none => .ok ()

/-- A lane of a register (R30). -/
def lane (v : BitVec 8192) (i : Nat) : Nat := (v.extractLsb' (32 * i) 32).toNat

/-- A register assembled from its 256 lanes, the first lowest; built in halves, so that the work stays even. -/
def packVec (w : Nat) (l : List Nat) : Nat := pieces w l

/-- The lanes of a register. -/
def lanes (v : BitVec 8192) : List Nat := cut 32 v.toNat 256

/-- The 64-bit elements of a register, of which FP64 has 128. -/
def elems64 (v : BitVec 8192) : List Nat := cut 64 v.toNat 128

end Sys2Proof.Machine
end

