-- ==== Sys2Proof/Machine/ScalarMem.lean ====
section
/-! DEFINITION. Scalar loads and stores in the four spaces, atomics and reductions (R121-R127, R130). -/

namespace Sys2Proof.Machine

/-- A read of a core's banks acquires the landed units of its bytes (R208). -/
def State.seeLanded (s : State) (t : Nat) (l : Loc) (n : Nat) : State :=
  let ids := s.landedUnits l n
  if ids = [] then s else s.modTask t fun x => { x with view := { x.view with known := union ids x.view.known } }

/-- The bytes a task's load returns, and its view after it (R208, R276). -/
def State.loadBytes (s : State) (l : Loc) (n : Nat) : List Byte × State :=
  (((s.fillLoc l n).lookUpLoc s.myCore l n).seeLanded s.focus l n).taskRead s.focus l n

/-- The runs of needed bytes of an access at an address, none across an aligned 4-byte word: offset and length (R158). -/
def wordRuns (need : Nat → Bool) (a n : Nat) : List (Nat × Nat) :=
  (List.range n).foldr (fun o l =>
    if need o then
      match l with
      | (p, k) :: r => if p = o + 1 ∧ (a + p) % 4 ≠ 0 then (o, k + 1) :: r else (o, 1) :: l
      | [] => [(o, 1)]
    else l) []

/-- The runs of an access read one word after another: the byte string as a number, and the state (R158). -/
def State.readRuns (s : State) (l : Loc) (runs : List (Nat × Nat)) : Nat × State :=
  runs.foldl (fun (v, s) r =>
    let (bs, s) := s.loadBytes (l.plus r.1) r.2
    (v + leNat bs * 2 ^ (8 * r.1), s)) (0, s)

/-- Bytes read by an engine, one word after another: the byte string as a number (R282); a sector that fails its check is poisoned where it
lies (R333). -/
def State.engineBytes (s : State) (p : Party) (l : Loc) (n : Nat) : Nat × State :=
  let s := (s.takeUnsound l n).2
  (wordRuns (fun _ => true) l.addr n).foldl (fun (v, s) r =>
    let (bs, s) := s.engineRead p (l.plus r.1) r.2
    (v + leNat bs * 2 ^ (8 * r.1), s)) (0, s)

/-- Bytes written by an engine at their home, one word after another; a sector written whole is clean (R333); the numbers of the
writes (R282). -/
def State.engineWrite (s : State) (p : Party) (view : List Nat) (rel : Option Release) (l : Loc) (v n : Nat) : List Nat × State :=
  let (ids, s) := (wordRuns (fun _ => true) l.addr n).foldl (fun (ids, s) r =>
    (s.nextId :: ids, s.hwWrite p view rel (l.plus r.1) (natBytes (v / 2 ^ (8 * r.1)) r.2) [])) (([] : List Nat), s)
  (ids, (sectorStarts l.addr n).foldl (fun s i => if coversAll 64 l.addr n i then s.cleanSector (l.plus i) else s) s)

/-- A loaded value extended to a register (R123). -/
def loadValue (signed : Bool) (bs : List Byte) : Word :=
  if signed then BitVec.ofInt 64 (toS (8 * bs.length) (leNat bs)) else leWord bs

/-- The place of a load: checked as an access, or a ring slot (R123, R130). -/
def State.loadPlace (s : State) (i : Instr) (a : Gpr) (sp sz : BitVec 2) (off : BitVec 9) (ext : Option (BitVec 20)) :
    Except Exit Loc :=
  if sp = 3 then do
    let l ← s.ringLoad i (a.toNat % 16) (2 ^ sz.toNat)
    s.checkSectors l (2 ^ sz.toNat)
    .ok l
  else do
    let l ← s.memOperand a sp sz off ext accLoad
    s.checkAccess l (2 ^ sz.toNat) accLoad
    .ok l

/-- The body of a load (R123); a ring load is an acquire at `.quad` (R130). -/
def loadBody (i : Instr) (d a : Gpr) (sp sz : BitVec 2) (sg : BitVec 1) (off : BitVec 9) (ext : Option (BitVec 20)) (len : Nat)
    (s : State) : Except Exit State := do
  let l ← s.loadPlace i a sp sz off ext
  let (bs, s1) := s.loadBytes l (2 ^ sz.toNat)
  let s2 := s1.setG d (loadValue (sg == 1) bs)
  .ok ((if sp = 3 then s2.acquireRing (a.toNat % 16) else s2).retire len)

/-- `ld` (R64, R123). -/
def execLd (d a : Gpr) (sp sz : BitVec 2) (sg : BitVec 1) (off : BitVec 9) (s : State) : Host.Outcome State Fault Refusal :=
  run s (loadBody (.ld d a sp sz sg off) d a sp sz sg off none 4 s)

/-- `ld` with a prefix: a wider offset (R64). -/
def execLdPrefixed (d a : Gpr) (sp sz : BitVec 2) (sg : BitVec 1) (off : BitVec 9) (ext : BitVec 20) (s : State) :
    Host.Outcome State Fault Refusal :=
  run s (loadBody (.ldPrefixed d a sp sz sg off ext) d a sp sz sg off (some ext) 8 s)

/-- The place of a store (R123, R130). -/
def State.storePlace (s : State) (i : Instr) (a : Gpr) (sp sz : BitVec 2) (off : BitVec 9) (ext : Option (BitVec 20)) :
    Except Exit Loc :=
  if sp = 3 then do
    let l ← s.ringStore i (a.toNat % 16) (2 ^ sz.toNat)
    let h ← s.ringHandle (a.toNat % 16)
    need (!s.ringBusy h) (.wait .ring)
    .ok l
  else do
    let l ← s.memOperand a sp sz off ext accStore
    s.checkAccess l (2 ^ sz.toNat) accStore
    .ok l

/-- The body of a store (R123): 16 bytes of the shadow buffer when it is held (R111). -/
def storeBody (i : Instr) (d a : Gpr) (sp sz : BitVec 2) (off : BitVec 9) (ext : Option (BitVec 20)) (len : Nat) (s : State) :
    Except Exit State := do
  let l ← s.storePlace i a sp sz off ext
  (s.fillLoc l (2 ^ sz.toNat)).issueWrites l [(l, natBytes (s.g d).toNat (2 ^ sz.toNat), [])] none (if sp = 3 then 8 else s.routeOf l) 16
    fun s => .ok (s.retire len)

/-- `st` (R64, R123). -/
def execSt (d a : Gpr) (sp sz : BitVec 2) (off : BitVec 9) (s : State) : Host.Outcome State Fault Refusal :=
  run s (storeBody (.st d a sp sz off) d a sp sz off none 4 s)

/-- `st` with a prefix: a wider offset (R64). -/
def execStPrefixed (d a : Gpr) (sp sz : BitVec 2) (off : BitVec 9) (ext : BitVec 20) (s : State) : Host.Outcome State Fault Refusal :=
  run s (storeBody (.stPrefixed d a sp sz off ext) d a sp sz off (some ext) 8 s)

/-! ### Atomics (R65, R125-R127) -/

/-- The parameters of an atomic: scope, acquire and release (R65, R126). -/
structure AmoMode where
  scope : Nat
  aq : Bool
  rl : Bool
  coord : Gpr
  deriving DecidableEq, Repr

/-- An atomic without a prefix is relaxed, at `.core` in the local space and at `.pkg` in the global space (R65). -/
def plainAmo (p : BitVec 2) : AmoMode := ⟨if p = 1 then 1 else 4, false, false, 0⟩

/-- An FP32 NaN (R127). -/
def isNan32 (x : Nat) : Bool := decide (x / 2 ^ 23 % 256 = 255) && decide (x % 2 ^ 23 ≠ 0)

/-- D as `min` and `max` sign-extend it and every other operation zero-extends it (R126). -/
def amoOld (op : BitVec 4) (size old : Nat) : Word :=
  if op = 1 ∨ op = 3 then BitVec.ofInt 64 (toS (8 * size) old) else BitVec.ofNat 64 old

/-- The place of an atomic: in Scratch, aligned, permitted, in the order of R123 (R117, R122, R125, R322). -/
def State.amoPlace (s : State) (d a : Gpr) (z : BitVec 1) (p : BitVec 2) (m : AmoMode) : Except Exit Loc := do
  let size := if z = 1 then 8 else 4
  let acc := if d = 0 then accRed else accAtomic
  let l ← s.place p (s.g a) (s.g m.coord) 3
  s.checkRole l size acc
  need ((s.g a).toNat % size == 0) (misalign (s.g a))
  s.checkPlace l size acc
  s.checkWater l size acc
  if acc.reads && !s.unserved l then s.checkSectors l size
  .ok l

/-- A packet that a core sends now would follow another one of its class to the same place that is still on its way, on a route that keeps
order (R263, R342). -/
def State.behindPackets (s : State) (core cls : Nat) (xy : Bool) (l : Loc) : Bool :=
  (xy || vget (s.die (dieOf core)).routes cls 0 != 2) && (s.path ++ s.atSwitch).any fun p =>
    p.party.source == core && p.cls == cls && s.destination p.loc == s.destination l && s.inOrderRoute p

/-- An atomic to a page of which no member can be reached is dropped, and Tardar is told; no rule gives the value it would return, a free one
(R349, DESIGN CHOICE, log 106). -/
def amoDropped (op : BitVec 4) (d : Gpr) (l : Loc) (size len : Nat) (m : AmoMode) (s : State) : State :=
  let (v, s) := (s.notifyLost l).fresh
  let s := s.setG d (amoOld op size (v.toNat % 2 ^ (8 * size)))
  (if m.aq then s.acquire s.focus m.scope else s).retire len

/-- An atomic that returns the old value: the own stores to its bytes and what the core has sent before it on its way arrive first, and a
replicated line is withdrawn; then it is performed at the home, or by the switch at every member (R122, R125, R263, R270, R276, R345). -/
def amoReturn (op : BitVec 4) (d b : Gpr) (l : Loc) (size len : Nat) (m : AmoMode) (s : State) : Except Exit State := do
  need (!(s.ownPending s.focus).any (·.meets l size)) .stall
  need (!s.behindPackets s.myCore (s.routeOf l) (s.me.ord.getLsbD (s.routeOf l)) l) .stall
  if s.unserved l then .ok (amoDropped op d l size len m s) else
  let s := s.fillLoc l size
  if s.replicated l then .ok ((s.withdrawLoc l).pass 1 0) else
  let old := leNat (s.homeBytes l size)
  let bv := (s.g b).toNat % 2 ^ (8 * size)
  let new := amoResult op (8 * size) old bv ((s.g (gprPlus b 1)).toNat % 2 ^ (8 * size))
  let s := s.performNow s.focus (s.newWrite s.focus l (natBytes new size) [] none (s.routeOf l))
  let s := s.setG d (amoOld op size old)
  let s := s.raiseNV (decide (10 ≤ op.toNat) && (isNan32 old || isNan32 bv))
  .ok ((if m.aq then s.acquire s.focus m.scope else s).retire len)

/-- A `red.*`, with its release before it: it retires once the store path accepts it; a NaN in B sets NV at issue (R126, R127, R280). -/
def redIssue (op : BitVec 4) (b : Gpr) (l : Loc) (size len : Nat) (m : AmoMode) (s : State) : Except Exit State :=
  let bv := (s.g b).toNat % 2 ^ (8 * size)
  let b1 := (s.g (gprPlus b 1)).toNat % 2 ^ (8 * size)
  (s.fillLoc l size).issueAfter (if m.rl then m.scope else 0) l [(l, natBytes bv size, if op = 9 then natBytes b1 size else [])] (some op)
    (s.routeOf l) 16 fun s =>
      let s := s.raiseNV (decide (10 ≤ op.toNat) && isNan32 bv)
      .ok ((if m.aq then s.acquire s.focus m.scope else s).retire len)

/-- The body of every atomic and reduction (R125-R127): with D ≠ 0 it is irrevocable (R111). -/
def amoBody (i : Instr) (op : BitVec 4) (d a b : Gpr) (z : BitVec 1) (p : BitVec 2) (m : AmoMode) (len : Nat) (s : State) :
    Except Exit State := do
  let size := if z = 1 then 8 else 4
  let l ← s.amoPlace d a z p m
  if d = 0 then redIssue op b l size len m s
  else
    s.irrevocable i fun s =>
      if m.rl then s.released m.scope (amoReturn op d b l size len m) else amoReturn op d b l size len m s

/-- `amo.add` (R126). -/
def execAmoAdd (d a b : Gpr) (z : BitVec 1) (p : BitVec 2) (s : State) : Host.Outcome State Fault Refusal :=
  run s (amoBody (.amoAdd d a b z p) 0 d a b z p (plainAmo p) 4 s)

/-- `amo.min` (R126). -/
def execAmoMin (d a b : Gpr) (z : BitVec 1) (p : BitVec 2) (s : State) : Host.Outcome State Fault Refusal :=
  run s (amoBody (.amoMin d a b z p) 1 d a b z p (plainAmo p) 4 s)

/-- `amo.minn` (R126). -/
def execAmoMinn (d a b : Gpr) (z : BitVec 1) (p : BitVec 2) (s : State) : Host.Outcome State Fault Refusal :=
  run s (amoBody (.amoMinn d a b z p) 2 d a b z p (plainAmo p) 4 s)

/-- `amo.max` (R126). -/
def execAmoMax (d a b : Gpr) (z : BitVec 1) (p : BitVec 2) (s : State) : Host.Outcome State Fault Refusal :=
  run s (amoBody (.amoMax d a b z p) 3 d a b z p (plainAmo p) 4 s)

/-- `amo.maxn` (R126). -/
def execAmoMaxn (d a b : Gpr) (z : BitVec 1) (p : BitVec 2) (s : State) : Host.Outcome State Fault Refusal :=
  run s (amoBody (.amoMaxn d a b z p) 4 d a b z p (plainAmo p) 4 s)

/-- `amo.and` (R126). -/
def execAmoAnd (d a b : Gpr) (z : BitVec 1) (p : BitVec 2) (s : State) : Host.Outcome State Fault Refusal :=
  run s (amoBody (.amoAnd d a b z p) 5 d a b z p (plainAmo p) 4 s)

/-- `amo.or` (R126). -/
def execAmoOr (d a b : Gpr) (z : BitVec 1) (p : BitVec 2) (s : State) : Host.Outcome State Fault Refusal :=
  run s (amoBody (.amoOr d a b z p) 6 d a b z p (plainAmo p) 4 s)

/-- `amo.xor` (R126). -/
def execAmoXor (d a b : Gpr) (z : BitVec 1) (p : BitVec 2) (s : State) : Host.Outcome State Fault Refusal :=
  run s (amoBody (.amoXor d a b z p) 7 d a b z p (plainAmo p) 4 s)

/-- `amo.swap` (R126). -/
def execAmoSwap (d a b : Gpr) (z : BitVec 1) (p : BitVec 2) (s : State) : Host.Outcome State Fault Refusal :=
  run s (amoBody (.amoSwap d a b z p) 8 d a b z p (plainAmo p) 4 s)

/-- `amo.cas` (R126). -/
def execAmoCas (d a b : Gpr) (z : BitVec 1) (p : BitVec 2) (s : State) : Host.Outcome State Fault Refusal :=
  run s (amoBody (.amoCas d a b z p) 9 d a b z p (plainAmo p) 4 s)

/-- `amo.fmin` (R126, R127). -/
def execAmoFmin (d a b : Gpr) (p : BitVec 2) (s : State) : Host.Outcome State Fault Refusal :=
  run s (amoBody (.amoFmin d a b p) 10 d a b 0 p (plainAmo p) 4 s)

/-- `amo.fmax` (R126, R127). -/
def execAmoFmax (d a b : Gpr) (p : BitVec 2) (s : State) : Host.Outcome State Fault Refusal :=
  run s (amoBody (.amoFmax d a b p) 11 d a b 0 p (plainAmo p) 4 s)

/-- An atomic or reduction with a prefix: coordinate register, scope, acquire and release (R65). -/
def execAmoPrefixed (op : BitVec 4) (d a b : Gpr) (z : BitVec 1) (p : BitVec 2) (c : Gpr) (scope : BitVec 3) (aq rl : BitVec 1)
    (s : State) : Host.Outcome State Fault Refusal :=
  run s (amoBody (.amoPrefixed op d a b z p c scope aq rl) op d a b z p ⟨scope.toNat, aq == 1, rl == 1, c⟩ 8 s)

/-- `red.add` (R126). -/
def execRedAdd (a b : Gpr) (z : BitVec 1) (p : BitVec 2) (s : State) : Host.Outcome State Fault Refusal :=
  run s (amoBody (.redAdd a b z p) 0 0 a b z p (plainAmo p) 4 s)

/-- `red.min` (R126). -/
def execRedMin (a b : Gpr) (z : BitVec 1) (p : BitVec 2) (s : State) : Host.Outcome State Fault Refusal :=
  run s (amoBody (.redMin a b z p) 1 0 a b z p (plainAmo p) 4 s)

/-- `red.minn` (R126). -/
def execRedMinn (a b : Gpr) (z : BitVec 1) (p : BitVec 2) (s : State) : Host.Outcome State Fault Refusal :=
  run s (amoBody (.redMinn a b z p) 2 0 a b z p (plainAmo p) 4 s)

/-- `red.max` (R126). -/
def execRedMax (a b : Gpr) (z : BitVec 1) (p : BitVec 2) (s : State) : Host.Outcome State Fault Refusal :=
  run s (amoBody (.redMax a b z p) 3 0 a b z p (plainAmo p) 4 s)

/-- `red.maxn` (R126). -/
def execRedMaxn (a b : Gpr) (z : BitVec 1) (p : BitVec 2) (s : State) : Host.Outcome State Fault Refusal :=
  run s (amoBody (.redMaxn a b z p) 4 0 a b z p (plainAmo p) 4 s)

/-- `red.and` (R126). -/
def execRedAnd (a b : Gpr) (z : BitVec 1) (p : BitVec 2) (s : State) : Host.Outcome State Fault Refusal :=
  run s (amoBody (.redAnd a b z p) 5 0 a b z p (plainAmo p) 4 s)

/-- `red.or` (R126). -/
def execRedOr (a b : Gpr) (z : BitVec 1) (p : BitVec 2) (s : State) : Host.Outcome State Fault Refusal :=
  run s (amoBody (.redOr a b z p) 6 0 a b z p (plainAmo p) 4 s)

/-- `red.xor` (R126). -/
def execRedXor (a b : Gpr) (z : BitVec 1) (p : BitVec 2) (s : State) : Host.Outcome State Fault Refusal :=
  run s (amoBody (.redXor a b z p) 7 0 a b z p (plainAmo p) 4 s)

/-- `red.fmin` (R126, R127). -/
def execRedFmin (a b : Gpr) (p : BitVec 2) (s : State) : Host.Outcome State Fault Refusal :=
  run s (amoBody (.redFmin a b p) 10 0 a b 0 p (plainAmo p) 4 s)

/-- `red.fmax` (R126, R127). -/
def execRedFmax (a b : Gpr) (p : BitVec 2) (s : State) : Host.Outcome State Fault Refusal :=
  run s (amoBody (.redFmax a b p) 11 0 a b 0 p (plainAmo p) 4 s)

end Sys2Proof.Machine
end

