-- ==== Sys2Proof/Machine/Ports.lean ====
section
/-! DEFINITION. Port names, crossbar pulses, and the port instructions of a task: offers, completions, withdrawal, binding (R228,
R236, R245-R254). -/

namespace Sys2Proof.Machine

/-! ### Crossbar pulses (R228, R229) -/

/-- A counter goes up by 1; at 65,535 it stays and sets OVF (R229). -/
def Crossbar.count (x : Crossbar) (n : Nat) : Crossbar :=
  let v := vget x.counters n 0
  if v = 0xFFFF then { x with ovf := x.ovf ||| (1 : BitVec 16) <<< n } else { x with counters := vput x.counters n (v + 1) }

/-- A term whose named inputs are all latched (R229). -/
def Term.ready (t : Term) : Bool := t.en && (t.latched &&& t.mask) == t.mask

/-- A term fires (R229): its latches clear, its counter counts where INC = 1. -/
def Crossbar.fireTerm (x : Crossbar) (n : Nat) (t : Term) : Crossbar :=
  let y := { x with terms := vput x.terms n { t with latched := 0 } }
  if t.inc then y.count t.ctr.toNat else y

/-- Every ready term fires (R229). -/
def Crossbar.fireReady (x : Crossbar) : Crossbar :=
  x.terms.toList.zipIdx.foldl (fun x e => if e.1.ready then x.fireTerm e.2 e.1 else x) x

/-- A pulse sets the input's latch in every term; a term that was ready has fired in the cycle before (R229). -/
def Crossbar.pulse (x : Crossbar) (line : Nat) : Crossbar :=
  let y := x.fireReady
  { y with terms := y.terms.map fun t => { t with latched := t.latched ||| (1 : BitVec 32) <<< line } }

/-- A pulse on an input of a core's crossbar. -/
def State.pulse (s : State) (core line : Nat) : State :=
  (s.modCore core fun c => { c with xbar := c.xbar.pulse line }).wakeWaiters core

/-! ### Port names (R236) -/

/-- A valid name: V, zeros where they must be, QUAD at most 39 (R236, R249). -/
def nameValid (n : Word) : Bool := n.getLsbD 63 && bits n 32 31 == 0 && bits n 9 7 == 0 && decide (bits n 16 6 < 40)

/-- CSLOT of a name. -/
def nameSlot (n : Word) : Nat := bits n 5 4

/-- PIDX of a name. -/
def nameIdx (n : Word) : Nat := bits n 0 5

/-- The casement a name names; none when the name is stale, PIDX aside (R236). -/
def State.casAt (s : State) (n : Word) : Option Casement :=
  let q := s.quad (nameQuad n)
  if bits n 24 8 = (vget q.gens (nameSlot n) 0).toNat then vget q.cas (nameSlot n) none else none

/-- The port entry a name names; none when the name is stale (R236). -/
def State.portAt (s : State) (n : Word) : Option PEntry := (s.casAt n).bind fun c => c.ports[nameIdx n]?

/-- The SCOPE of a name's casement (R238). -/
def State.nameScope (s : State) (n : Word) : Nat := (s.casAt n).elim 4 (·.scope)

/-- A casement of a quad changed. -/
def State.modCas (s : State) (quad slot : Nat) (f : Casement → Casement) : State :=
  s.modQuad quad fun q => { q with cas := vput q.cas slot ((vget q.cas slot none).map f) }

/-- A port entry changed. -/
def State.modPort (s : State) (n : Word) (f : PEntry → PEntry) : State :=
  if (s.casAt n).isNone then s
  else s.modCas (nameQuad n) (nameSlot n) fun c => { c with ports := (c.ports[nameIdx n]?).elim c.ports fun e => lset c.ports (nameIdx n) (f e) }

/-! ### Handles (R14, R246) -/

/-- A handle of a task. -/
def Task.port (x : Task) (h : Nat) : Option PortRef := vget x.p h none

/-- A handle of a task replaced. -/
def Task.setPort (x : Task) (h : Nat) (r : Option PortRef) : Task := { x with p := vput x.p h r }

/-- The bound handle an instruction names (R14). -/
def State.handleRef (s : State) (h : Nat) : Except Exit PortRef :=
  match s.me.port h with
  | some r => .ok r
  | none => .error (unbound true h)

/-- The handle of an offering instruction: bound, to a port that is not stale (R246 check 1). -/
def State.liveRef (s : State) (h : Nat) : Except Exit PortRef := do
  let r ← s.handleRef h
  need (s.portAt r.name).isSome (unbound true h)
  .ok r

/-- Whether the task has an offer or a completion on a port (R246 check 3). -/
def Task.portBusy (x : Task) (name : Word) : Bool :=
  x.p.toList.any fun p => p.any fun r => r.name == name && (r.offered.isSome || r.done.isSome)

/-- The datum or landing area (R246 check 4): a multiple of 4, in Scratch, or in FIFO banks for a source. -/
def State.checkArea (s : State) (r : PortRef) (off : Nat) : Except Exit Unit := do
  if r.dsz = 0 then .ok ()
  else do
    need (off % 4 == 0) (misalign (BitVec.ofNat 64 off))
    match (s.core s.myCore).refused r.sink off r.dsz with
    | some o => .error (.trap 4 (if r.sink then 1 else 0) (BitVec.ofNat 64 o) none)
    | none => .ok ()

/-- The datum of a source is read only once its area is watched no longer (R207). -/
def State.areaWatched (s : State) (r : PortRef) (off : Nat) : Except Exit Unit :=
  need (r.sink || r.dsz == 0 || !s.watchedRange s.myCore off r.dsz) (.wait .watermark)

/-- The four checks of R246 on one handle; `sink` where the instruction names a direction. A delivery handle names a sink, and offers nothing
(R244). -/
def State.checkOffer (s : State) (i : Instr) (sink : Option Bool) (h off : Nat) : Except Exit PortRef := do
  let r ← s.liveRef h
  need (sink.all (· == r.sink)) (illegal i)
  need r.dlv.isNone (unbound true h)
  need (!s.me.portBusy r.name) (illegal i)
  s.checkArea r off
  .ok r

/-! ### Offers and completions (R246, R247, R253) -/

/-- An offer of a task leaves for the Transom with its datum, the mark of its alt group and the task's release (R247, R253). -/
def State.offerOut (s : State) (t : Nat) (r : PortRef) (data : Datum) : State :=
  s.toTransom (coreOf t) (nameQuad r.name) (s.task t).phase (.offer (s.task t).tid r.name data r.alt (s.task t).view.known)

/-- The datum of a source: its bytes as they are now with what their checks say (R246, R331). -/
def State.readDatum (s : State) (off n : Nat) : Datum × State :=
  let (bad, s) := s.takeUnsound (.bank s.myCore off) n
  let (bs, s) := s.loadBytes (.bank s.myCore off) n
  (⟨bs, bad⟩, s)

/-- An offer is made: a source's bytes are read now (R246). -/
def State.sendOffer (s : State) (h off : Nat) (r : PortRef) (block : Bool) (alt : Option Word) : State :=
  let (data, s) := if r.sink ∨ r.dsz = 0 then (⟨[], false⟩, s) else s.readDatum off r.dsz
  let r := { r with block := block, alt := alt, issuedAt := s.me.pc, offered := some (off, data) }
  (s.offerOut s.focus r data).onMe fun x => x.setPort h (some r)

/-- The task waits for a FIRE on one of some handles (R247). -/
def State.waitFire (s : State) (d : Gpr) (hs : List Nat) : State :=
  s.onMe fun x => { x with life := .waiting .port, portWait := some (.fire d hs) }

/-- A sink datum lands in the banks of the task's core as a store of the task; a bad one lands poisoned (R246, R333). -/
def State.landDatum (s : State) (t off : Nat) (data : Datum) : State :=
  if data.bytes = [] then s
  else s.performNow t { s.newWrite t (.bank (coreOf t) off) data.bytes [] none 9 with bad := data.bad }

/-- A completion is an acquire at the casement's scope, with the releases of its step (R253). -/
def State.acquireStep (s : State) (t : Nat) (name : Word) (snap : List Nat) : State :=
  (s.acquire t (s.nameScope name)).modTask t fun x => { x with view := { x.view with known := union snap x.view.known } }

/-- The value a completed offering instruction writes (R247): DSZ, or the fired handle of an `alt`. -/
def PortRef.result (r : PortRef) (h : Nat) : Word := BitVec.ofNat 64 (if r.alt.isSome then h else r.dsz)

/-- The offer of a handle is outstanding no longer; to a WITHDRAW that is under way the reply will be FIRED (R254). -/
def PortRef.taken (r : PortRef) : PortRef :=
  { r with offered := none, again := none, asked := false, owed := r.owed + if r.asked then 1 else 0 }

/-- The other offers of an alt group are gone once one has fired (R242 step 3), those that wait to be made again too. -/
def Task.dropAlt (x : Task) (mark : Option Word) : Task :=
  { x with p := x.p.map fun p => p.map fun r =>
      if mark.isSome && r.alt == mark then { r.taken with alt := none, block := false } else r }

/-- A handle idle again. -/
def PortRef.idle (r : PortRef) : PortRef := { r.taken with block := false, alt := none, done := none }

/-- The blocked offering instruction of a task completes on handle h and retires (R247, R253). -/
def State.completeFire (s : State) (t h : Nat) (r : PortRef) (d : Gpr) (snap : List Nat) : State :=
  (s.acquireStep t r.name snap).modTask t fun x =>
    { (((x.dropAlt r.alt).setPort h (some r.idle)).setG d (r.result h)).next 4 with portWait := none, life := .running }

/-- The context is at its halt or on its way to another core: what comes for its ports is kept (R254). -/
def Task.keepsPorts (x : Task) : Bool := x.moving.isSome || x.halt.any (·.halted)

/-- An instruction that waits for a port may complete now: its task is Running or Waiting (R23), neither halted nor on its way. -/
def Task.mayEnd (x : Task) : Bool :=
  !x.keepsPorts && (match x.life with
    | .running => true
    | .waiting _ => true
    | _ => false)

/-- The instruction a task waits in retires with a value (R23, R247, R249, R251): now, or once its task is Running or Waiting again (R24). -/
def State.endWait (s : State) (t : Nat) (d : Gpr) (v : Word) : State :=
  s.modTask t fun x =>
    if x.mayEnd then { (x.setG d v).next 4 with portWait := none, life := .running } else { x with portWait := some (.replied d v) }

/-- The wait for a port has something to do: a completion to take, an offer to make again, or a reply that is in (R24, R254). -/
def Task.portDue (x : Task) : Bool :=
  match x.portWait with
  | some (.fire _ hs) => hs.any fun h => (x.port h).any fun r => r.done.isSome || r.again.isSome
  | some (.replied _ _) => true
  | _ => false

/-- An offer of the context is to be made again (R254). -/
def Task.resends (x : Task) : Bool := x.p.toList.any fun p => p.any fun r => r.again.isSome

/-- The barrier whose `bar` is the instruction at hand (R286). -/
def Task.barHere (x : Task) : Option BarWait := x.bars.find? fun b => b.nest == x.nest && b.pc == x.here

/-- What a context waits for without issuing an instruction: a port, or a generation of a barrier (R24, R286). -/
def Task.waitsOn (x : Task) : Option WaitReason :=
  if x.portWait.isSome && !x.portDue then some .port
  else if x.barHere.any (·.passed.isNone) then some .event
  else none

/-- A hold is on the task. -/
def Task.onHold (x : Task) : Bool := x.holdReq || x.holdDbg || x.holdSys

/-- A task held at once, with its wait kept (R23). -/
def Life.hold : Life → Life
  | .running => .held none
  | .waiting w => .held (some w)
  | l => l

/-- The state of a context that goes on (R23, R24): Waiting while its recorded wait is unsatisfied, else Running; any other wait is tested by
issuing its instruction. -/
def Task.goesOn (x : Task) : Life := if x.resends then .running else (x.waitsOn).elim .running .waiting

/-- The handles of an alt group, or the one handle of an offer without a mark. -/
def Task.groupOf (x : Task) (h : Nat) (r : PortRef) : List Nat :=
  if r.alt.isNone then [h] else (List.range 16).filter fun k => (x.port k).any fun q => q.alt == r.alt

/-- A blocked offering instruction issued again, at its own place, after it left its wait for the trap entry (R213): it completes if its port has
fired, and waits on otherwise (DEDUCED, log 25). -/
def State.resumeOffer (s : State) (d : Gpr) (h : Nat) (r : PortRef) : Option State :=
  if r.block && !s.me.nest && r.issuedAt == s.me.pc then
    match r.done with
    | some snap => some (s.completeFire s.focus h r d snap)
    | none => if r.offered.isSome then some (s.waitFire d (s.me.groupOf h r)) else none
  else none

/-- The body of `put`, `get` and `offer` (R246, R247). -/
def offerBody (i : Instr) (sink : Option Bool) (block : Bool) (d : Gpr) (h : Nat) (b : Gpr) (s : State) : Except Exit State := do
  let r0 ← s.handleRef h
  match (if block then s.resumeOffer d h r0 else none) with
  | some s1 => .ok s1
  | none =>
    let off := va56 (s.g b)
    let r ← s.checkOffer i sink h off
    s.irrevocable i fun s => do
      s.areaWatched r off
      s.released (s.nameScope r.name) fun s =>
        let s1 := s.sendOffer h off r block none
        .ok (if block then s1.waitFire d [h] else s1.retire 4)

/-- `put` (R246, R247). -/
def execPut (p : BitVec 4) (b : Gpr) (s : State) : Host.Outcome State Fault Refusal :=
  run s (offerBody (.put p b) (some false) true 0 p.toNat b s)

/-- A wait on the watermark of a landing area, where one is watched (R207, R246). -/
def State.areaFree (s : State) (r : PortRef) (off : Nat) : Except Exit Unit :=
  need (r.dsz == 0 || !s.watchedRange s.myCore off r.dsz) (.wait .watermark)

/-- The first `get` on a delivery handle: it completes at once with an acquire of the step that fired, and the handle is unbound after it
(R228, R244, R253). -/
def State.takeDelivery (s : State) (i : Instr) (d : Gpr) (h off : Nat) (r : PortRef) (l : Datum × Nat × List Nat) : Except Exit State := do
  s.checkArea r off
  s.irrevocable i fun s => do
    s.areaFree r off
    let s := (((s.landDatum s.focus off l.1).onMe fun x => x.setPort h none).pulse s.myCore 17).acquire s.focus l.2.1
    .ok (((s.acquireFrom s.focus (some ⟨l.2.1, l.2.2, .transom (nameQuad r.name)⟩)).setG d (BitVec.ofNat 64 r.dsz)).retire 4)

/-- `get` (R244, R246, R247). -/
def execGet (d : Gpr) (p : BitVec 4) (b : Gpr) (s : State) : Host.Outcome State Fault Refusal :=
  run s (match (s.me.port p.toNat).bind fun r => r.dlv.map fun l => (r, l) with
    | some (r, l) => s.takeDelivery (.get d p b) d p.toNat (va56 (s.g b)) r l
    | none => offerBody (.get d p b) (some true) true d p.toNat b s)

/-- `offer`: its outcome is collected with `poll` or `pwd` (R247). -/
def execOffer (p : BitVec 4) (b : Gpr) (s : State) : Host.Outcome State Fault Refusal :=
  run s (offerBody (.offer p b) none false 0 p.toNat b s)

/-- The handles of a mask, ascending (R247). -/
def maskHandles (m : Nat) : List Nat := (List.range 16).filter (natBit m)

/-- The checks of R246 on each handle of an `alt`, in ascending order. -/
def State.checkAlt (s : State) (i : Instr) (base : Word) : List Nat → Except Exit (List (Nat × Nat × PortRef))
  | [] => .ok []
  | h :: l => do
    let off := va56 (base + BitVec.ofNat 64 (256 * h))
    let r ← s.checkOffer i none h off
    let rest ← s.checkAlt i base l
    .ok ((h, off, r) :: rest)

/-- Whether the handles name ports of one casement (R247). -/
def oneCasement (l : List (Nat × Nat × PortRef)) : Bool :=
  match l with
  | [] => true
  | e :: r => r.all fun f => f.2.2.name.toNat / 32 == e.2.2.name.toNat / 32

/-- `alt` (R247). -/
def execAlt (d a b : Gpr) (s : State) : Host.Outcome State Fault Refusal :=
  run s do
    let i := Instr.alt d a b
    let ga := s.g a
    need (bits ga 16 48 == 0 && bits ga 0 16 != 0) (illegal i)
    match (maskHandles ga.toNat).findSome? fun h => (s.me.port h).bind fun r => if r.alt.isSome then s.resumeOffer d h r else none with
    | some s1 => .ok s1
    | none =>
      let l ← s.checkAlt i (s.g b) (maskHandles ga.toNat)
      need (oneCasement l) (illegal i)
      let scope := (l.head?).elim 4 fun e => s.nameScope e.2.2.name
      s.irrevocable i fun s => do
        l.forM fun e => s.areaWatched e.2.2 e.2.1
        s.released scope fun s =>
          let mark := BitVec.ofNat 64 s.nextId
          .ok ((l.foldl (fun (s : State) e => s.sendOffer e.1 e.2.1 e.2.2 true (some mark)) { s with nextId := s.nextId + 1 }).waitFire d
            (l.map (·.1)))

/-! ### poll, pwd, pstat (R247, R248, R252) -/

/-- A pending completion consumed, with its acquire (R248, R253). -/
def State.consume (s : State) (h : Nat) (r : PortRef) (snap : List Nat) : State :=
  (s.acquireStep s.focus r.name snap).onMe fun x => x.setPort h (some r.idle)

/-- `poll` (R248). -/
def execPoll (d : Gpr) (p : BitVec 4) (s : State) : Host.Outcome State Fault Refusal :=
  run s do
    let r ← s.handleRef p.toNat
    match r.done with
    | some snap => .ok (((s.consume p.toNat r snap).setG d 2).retire 4)
    | none => .ok ((s.setG d (if r.offered.isSome then 1 else 0)).retire 4)

/-- The withdrawal of a handle's offer is under way: a WITHDRAW goes out unless the reply to one is still to come (R254). -/
def State.askBack (s : State) (h : Nat) (r : PortRef) (w : PortWait) : State :=
  let s := if r.asked then s else s.toTransom s.myCore (nameQuad r.name) s.me.phase (.withdraw s.me.tid r.name)
  s.onMe fun x => { x.setPort h (some { r with asked := true }) with life := .waiting .port, portWait := some w }

/-- `pwd` (R247). -/
def execPwd (d : Gpr) (p : BitVec 4) (s : State) : Host.Outcome State Fault Refusal :=
  run s do
    let r ← s.handleRef p.toNat
    match r.done with
    | some snap => .ok (((s.consume p.toNat r snap).setG d 1).retire 4)
    | none =>
      if r.offered.isSome then
        .ok (s.askBack p.toNat r (.pwd d p.toNat))
      else .ok ((s.setG d 2).retire 4)

/-- The report of a handle (R252). -/
def PortRef.report (r : PortRef) : Word :=
  BitVec.ofNat 64 (2 ^ 63 + (if r.sink then 2 ^ 62 else 0) + (if r.offered.isSome then 2 ^ 61 else 0) +
    (if r.done.isSome then 2 ^ 60 else 0) + (if r.dlv.isSome then 2 ^ 59 else 0) + r.dsz / 4 % 128 * 2 ^ 52 + bits r.name 0 32)

/-- `pstat`: zero for an unbound handle (R252). -/
def execPstat (d : Gpr) (p : BitVec 4) (s : State) : Host.Outcome State Fault Refusal :=
  .next ((s.setG d ((s.me.port p.toNat).elim 0 PortRef.report)).retire 4)

/-! ### cbind and cunload (R249, R251) -/

/-- The second half of `cbind`, once the handle is unbound: nothing more for name 0, else the binding request. -/
def State.requestBind (s : State) (t : Nat) (d : Gpr) (h : Nat) (name : Word) : State :=
  if name = 0 then s.endWait t d 0
  else (s.toTransom (coreOf t) (nameQuad name) (s.task t).phase (.bind (s.task t).tid name)).modTask t fun x =>
    { x with life := if x.life = .running then .waiting .port else x.life, portWait := some (.bind d h) }

/-- A handle released without an outstanding offer: its port entry is freed (R249). -/
def State.releasePort (s : State) (t h : Nat) : State :=
  match (s.task t).port h with
  | none => s
  | some r =>
    let s1 := if r.dlv.isSome then s else s.toTransom (coreOf t) (nameQuad r.name) (s.task t).phase (.free (s.task t).tid r.name)
    s1.modTask t fun x => x.setPort h none

/-- `cbind` (R249). -/
def execCbind (d : Gpr) (p : BitVec 4) (b : Gpr) (s : State) : Host.Outcome State Fault Refusal :=
  run s do
    let name := s.g b
    need (name == 0 || nameValid name) (illegalInfo (.cbind d p b) name)
    match (s.me.port p.toNat).bind fun r => if r.offered.isSome then some r else none with
    | some r => .ok (s.askBack p.toNat r (.unbind d p.toNat name))
    | none => .ok ((s.releasePort s.focus p.toNat).requestBind s.focus d p.toNat name)

/-- `cunload`: it commits a restartable task first and waits for the reply (R250, R251). -/
def execCunload (d a : Gpr) (s : State) : Host.Outcome State Fault Refusal :=
  run s do
    let name := s.g a
    let i := Instr.cunload d a
    need (nameValid name) (illegalInfo i name)
    s.irrevocable i fun s =>
      .ok ((s.toTransom s.myCore (nameQuad name) s.me.phase (.unload s.me.tid name)).onMe fun x =>
        { x with life := .waiting .port, portWait := some (.unload d) })

end Sys2Proof.Machine
end

