-- ==== Sys2Proof/Machine/Casements.lean ====
section
/-! DEFINITION. Casement images, their checks, and `cload` (R236-R239, R250). -/

namespace Sys2Proof.Machine

/-- The n bytes of an image at an offset, as a number. -/
def imgNat (img : List Byte) (off n : Nat) : Nat := leNat ((img.drop off).take n)

/-- The fills of the fifos in a state (R237). -/
def fillsOf : List Nat → Nat → List Nat
  | [], _ => []
  | n :: r, s => s % (n + 1) :: fillsOf r (s / (n + 1))

/-- The number of a state by its fills (R237). -/
def stateOf : List Nat → List Nat → Nat
  | n :: r, f :: g => f + (n + 1) * stateOf r g
  | _, _ => 0

/-- The product of n + 1 over the fifos (R237). -/
def stateCount : List Nat → Nat
  | [] => 1
  | n :: r => (n + 1) * stateCount r

/-- The counts of an image's header (R238). -/
structure ImgHead where
  ns : Nat
  nt : Nat
  np : Nat
  nf : Nat
  scope : Nat
  buf : Nat
  nfilt : Nat
  deriving DecidableEq, Repr

/-- The header as doublewords 0 and 3 give it. -/
def imgHead (img : List Byte) : ImgHead :=
  let d := imgNat img 0 8
  ⟨d / 2 ^ 40 % 256 + 1, d / 2 ^ 30 % 1024 + 1, d / 2 ^ 25 % 32 + 1, d / 2 ^ 21 % 16, d / 2 ^ 18 % 8, d % 2 ^ 18, imgNat img 24 8 % 32⟩

/-- The bytes of the padded state table (R238). -/
def ImgHead.stateBytes (h : ImgHead) : Nat := (4 * h.ns + 63) / 64 * 64

/-- The bytes of an image (R238). -/
def ImgHead.size (h : ImgHead) : Nat := 256 + h.stateBytes + 64 * h.nt

/-- The fifos, as (n, DSZ). -/
def imgFifos (img : List Byte) (nf : Nat) : List (Nat × Nat) :=
  (List.range nf).map fun f => (imgNat img (8 + 2 * f) 2 / 1024 + 1, imgNat img (8 + 2 * f) 2 % 128 * 4)

/-- The ports, as (sink, DSZ). -/
def imgPorts (img : List Byte) (np : Nat) : List (Bool × Nat) :=
  (List.range np).map fun p => (natBit (imgNat img (64 + 2 * p) 2) 15, imgNat img (64 + 2 * p) 2 % 128 * 4)

/-- The filters (R238). -/
def imgFilters (img : List Byte) (n : Nat) : List CFilter :=
  (List.range n).map fun f =>
    let d := imgNat img (128 + 8 * f) 8
    ⟨BitVec.ofNat 32 (d / 2 ^ 32), d / 2 ^ 28 % 16, d / 2 ^ 26 % 4⟩

/-- The states, as (FIRST, COUNT). -/
def imgStates (img : List Byte) (ns : Nat) : List (Nat × Nat) :=
  (List.range ns).map fun s => (imgNat img (256 + 4 * s) 4 / 2 ^ 22, imgNat img (256 + 4 * s) 4 / 2 ^ 15 % 128)

/-- The offsets of the header's fields, each the byte of its lowest bit, with whether each is well formed, in order (R238, R250, DEDUCED,
log 26). -/
def headChecks (img : List Byte) : List (Nat × Bool) :=
  let h := imgHead img
  let fs := imgFifos img (min h.nf 8)
  [(0, (fs.foldl (fun n f => n + f.1 * f.2) 0) == h.buf), (2, decide (2 ≤ h.scope) && decide (h.scope ≤ 4) && decide (h.nf ≤ 8)),
    (5, stateCount (fs.map (·.1)) == h.ns), (6, imgNat img 6 2 == 0xC5E7)] ++
  ((List.range 8).map fun f =>
    let v := imgNat img (8 + 2 * f) 2
    (8 + 2 * f, if f < h.nf then v / 128 % 8 == 0 && decide (v % 128 ≤ 64) else v == 0)) ++
  [(24, decide (imgNat img 24 8 ≤ 16))] ++
  [(32, imgNat img 32 32 == 0)] ++
  ((List.range 32).map fun p =>
    let v := imgNat img (64 + 2 * p) 2
    (64 + 2 * p, if p < h.np then v / 128 % 256 == 0 && decide (v % 128 ≤ 64) else v == 0)) ++
  (List.range (min 16 h.nfilt)).flatMap fun f =>
    let v := imgNat img (128 + 8 * f) 8
    let op := v / 2 ^ 28 % 16
    let ty := v / 2 ^ 26 % 4
    [(128 + 8 * f, v % 2 ^ 26 == 0), (128 + 8 * f + 3, decide (op ≤ 6) && decide (ty ≤ 2) && (decide (op ≤ 3) || ty == 0))]

/-- The checks of the state table (R250): FIRST is the running sum, COUNT at most 64, the transitions covered, zeros after. -/
def stateChecks (img : List Byte) (h : ImgHead) : List (Nat × Bool) :=
  let st := imgStates img h.ns
  ((List.range h.ns).flatMap fun s =>
    let e := (st[s]?).getD (0, 0)
    let sum := (st.take s).foldl (fun n e => n + e.2) 0
    [(256 + 4 * s, imgNat img (256 + 4 * s) 4 % 2 ^ 15 == 0),
      (256 + 4 * s + 1, decide (e.2 ≤ 64) && decide (e.1 + e.2 ≤ h.nt) && (decide (s + 1 < h.ns) || sum + e.2 == h.nt)),
      (256 + 4 * s + 2, e.1 == sum)]) ++
  [(256 + 4 * h.ns, imgNat img (256 + 4 * h.ns) (h.stateBytes - 4 * h.ns) == 0)]

/-- The guards of a transition entry, as (POL, filter, origin). -/
def imgGuards (t : List Byte) : List (Bool × Nat × Nat) :=
  ((List.range 4).map fun g => imgNat t (8 + 2 * g) 2).filterMap fun v =>
    if natBit v 15 then some (natBit v 14, v / 1024 % 16, v % 64) else none

/-- The routes of a transition entry, as (destination, origin). -/
def imgRoutes (t : List Byte) : List (Nat × Nat) :=
  (List.range 48).filterMap fun k => let v := imgNat t (16 + k) 1; if natBit v 7 then some (k, v % 64) else none

/-- A transition entry (R238). -/
def imgTrans (t : List Byte) : CTrans :=
  let d := imgNat t 0 8
  ⟨BitVec.ofNat 32 (d / 2 ^ 32), d / 2 ^ 24 % 256, BitVec.ofNat 8 (d / 2 ^ 16), BitVec.ofNat 8 (d / 2 ^ 8), imgGuards t, imgRoutes t⟩

/-- The size of the datum of an origin: a source port of PORTMASK, or a fifo of DEQ (R238, R250). -/
def originSize (ports : List (Bool × Nat)) (fifos : List (Nat × Nat)) (t : CTrans) (o : Nat) : Option Nat :=
  if o < 32 then
    (ports[o]?).bind fun p => if t.mask.getLsbD o && !p.1 then some p.2 else none
  else (fifos[o - 32]?).bind fun f => if t.deq.getLsbD (o - 32) then some f.2 else none

/-- The fills after a transition, none where an ENQ targets a full fifo, a DEQ an empty one, or one fifo appears in both. -/
def fillsAfter (t : CTrans) : Nat → List Nat → List Nat → Option (List Nat)
  | f, n :: r, c :: g => do
    let e := t.enq.getLsbD f
    let d := t.deq.getLsbD f
    if (e && d) || (e && c == n) || (d && c == 0) then none
    let rest ← fillsAfter t (f + 1) r g
    some ((if e then c + 1 else if d then c - 1 else c) :: rest)
  | _, _, _ => some []

/-- Whether a destination must have a route: a fired sink, or an enqueuing fifo (R250). -/
def wantsRoute (ports : List (Bool × Nat)) (nf : Nat) (t : CTrans) (k : Nat) : Bool :=
  if k < 32 then (ports[k]?).any fun p => p.1 && t.mask.getLsbD k else decide (k < 32 + nf) && t.enq.getLsbD (k - 32)

/-- The size of a destination. -/
def destSize (ports : List (Bool × Nat)) (fifos : List (Nat × Nat)) (k : Nat) : Nat :=
  if k < 32 then ((ports[k]?).map (·.2)).getD 0 else ((fifos[k - 32]?).map (·.2)).getD 0

/-- The bits of a fifo mask at or above NFIFO are clear, and each fifo it names passes a test of its fill and its n. -/
def fifosOk (caps fills : List Nat) (mask : BitVec 8) (ok : Nat → Nat → Nat → Bool) : Bool :=
  mask.toNat / 2 ^ caps.length == 0 && (caps.zip fills).zipIdx.all fun e => !mask.getLsbD e.2 || ok e.2 e.1.2 e.1.1

/-- The checks of a transition entry of a state (R250). -/
def transChecks (h : ImgHead) (ports : List (Bool × Nat)) (fifos : List (Nat × Nat)) (state base : Nat) (bs : List Byte) :
    List (Nat × Bool) :=
  let t := imgTrans bs
  let caps := fifos.map (·.1)
  let fills := fillsOf caps state
  [(base, imgNat bs 0 1 == 0),
    (base + 1, fifosOk caps fills t.deq fun f c _ => c != 0 && !t.enq.getLsbD f),
    (base + 2, fifosOk caps fills t.enq fun _ c n => c != n),
    (base + 3, (fillsAfter t 0 caps fills).any fun f => stateOf caps f == t.next),
    (base + 4, t.mask.toNat / 2 ^ h.np == 0)] ++
  ((List.range 4).flatMap fun g =>
    let v := imgNat bs (8 + 2 * g) 2
    [(base + 8 + 2 * g, v / 64 % 16 == 0 && (!natBit v 15 || (originSize ports fifos t (v % 64)).any fun n => decide (4 ≤ n))),
      (base + 8 + 2 * g + 1, !natBit v 15 || decide (v / 1024 % 16 < h.nfilt))]) ++
  (List.range 48).map fun k =>
    let v := imgNat bs (16 + k) 1
    (base + 16 + k, if 40 ≤ k then v == 0 else !natBit v 6 && (if wantsRoute ports h.nf t k then
        natBit v 7 && originSize ports fifos t (v % 64) == some (destSize ports fifos k) else !natBit v 7))

/-- The state each transition belongs to, in order. -/
def transStates (st : List (Nat × Nat)) : List Nat := (st.zipIdx.map fun (e, s) => List.replicate e.2 s).flatten

/-- The checks of every transition. -/
def allTransChecks (img : List Byte) (h : ImgHead) : List (Nat × Bool) :=
  let ports := imgPorts img h.np
  let fifos := imgFifos img h.nf
  ((transStates (imgStates img h.ns)).zipIdx.map fun (s, i) =>
    let base := 256 + h.stateBytes + 64 * i
    transChecks h ports fifos s base ((img.drop base).take 64)).flatten

/-- The offset of the first field that fails. -/
def firstFailing (l : List (Nat × Bool)) : Option Nat := (l.find? fun e => !e.2).map (·.1)

/-- The casement of a well-formed image, in state 0 with empty fifos and every pointer at 0 (R250). -/
def imgCasement (img : List Byte) (job : Nat) : Casement :=
  let h := imgHead img
  { job := job, scope := h.scope, buf := h.buf,
    ports := (imgPorts img h.np).map fun p => ⟨p.1, p.2, .none, none, none, 0⟩,
    fifos := (imgFifos img h.nf).map fun f => ⟨f.1, f.2, []⟩,
    filters := imgFilters img h.nfilt,
    states := imgStates img h.ns,
    trans := (List.range h.nt).map fun i => imgTrans ((img.drop (256 + h.stateBytes + 64 * i)).take 64),
    state := 0,
    ptrs := List.replicate h.ns 0 }

/-! ### cload (R250) -/

/-- Bytes read with the task's global loads, one word after another. -/
def State.readGlobal (s : State) (va n : Nat) : Except Exit (List Byte × State) := do
  let l := Loc.glob (spaceOf (s.asid s.me.job) va) va
  s.checkAccess l n accLoad
  let (v, s) := s.readRuns l (wordRuns (fun _ => true) va n)
  .ok (natBytes v n, s)

/-- An image read and checked: its bytes, or ILLEGAL with doubleword 0 and the offset of the first bad field. -/
def State.readImage (s : State) (va : Nat) : Except Exit (List Byte × State) := do
  let (hd, s) ← s.readGlobal va 256
  let d0 : Word := BitVec.ofNat 64 (imgNat hd 0 8)
  let bad (l : List (Nat × Bool)) : Except Exit Unit :=
    match firstFailing l with
    | some o => .error (.trap 1 0 d0 (some (BitVec.ofNat 64 o)))
    | none => .ok ()
  bad (headChecks hd)
  let h := imgHead hd
  let (rest, s) ← s.readGlobal (va + 256) (h.size - 256)
  bad (stateChecks (hd ++ rest) h ++ allTransChecks (hd ++ rest) h)
  .ok (hd ++ rest, s)

/-- The resident casements of a Transom. -/
def Quad.resident (q : Quad) : List Casement := q.cas.toList.filterMap id

/-- Why a casement cannot be loaded (R239, R250): 1 no free slot, 2 port entries, 3 transitions, 4 buffer. -/
def Quad.shortOf (q : Quad) (c : Casement) : Option Nat :=
  let sum (f : Casement → Nat) : Nat := q.resident.foldl (fun n k => n + f k) (f c)
  if q.resident.length = 16 then some 1
  else if 128 < sum (·.ports.length) then some 2
  else if 1024 < sum (·.trans.length) then some 3
  else if 65536 < sum (·.buf) then some 4
  else none

/-- The lowest free casement slot. -/
def Quad.freeSlot (q : Quad) : Nat := ((List.range 16).find? fun n => (vget q.cas n none).isNone).getD 0

/-- The name of port 0 of a casement slot (R236). -/
def portName (quad slot gen : Nat) : Word :=
  BitVec.ofNat 64 (2 ^ 63 + gen % 256 * 2 ^ 24 + quad / 40 % 4 * 2 ^ 22 + quad % 40 * 2 ^ 16 + slot % 16 * 32)

/-- A casement put into the lowest free slot, whose GEN increments. -/
def State.loadCasement (s : State) (d : Gpr) (c : Casement) : State :=
  let qn := quadOf s.myCore
  let q := s.quad qn
  match q.shortOf c with
  | some n => s.setG d (BitVec.ofNat 64 n)
  | none =>
    let slot := q.freeSlot
    let gen := vget q.gens slot 0 + 1
    (s.modQuad qn fun q => { q with cas := vput q.cas slot (some c), gens := vput q.gens slot gen }).setG d
      (portName qn slot gen.toNat)

/-- `cload` (R250). -/
def execCload (d a : Gpr) (s : State) : Host.Outcome State Fault Refusal :=
  run s do
    let i := Instr.cload d a
    need (bits (s.g a) 0 6 == 0) (misalign (s.g a))
    let (img, s) ← s.readImage (va56 (s.g a))
    s.irrevocable i fun s => .ok ((s.loadCasement d (imgCasement img s.me.job)).retire 4)

end Sys2Proof.Machine
end

