-- ==== Sys2Proof/Machine/Blocks.lean ====
section
/-! DEFINITION. Elements in memory and in lane form: packed strings, blocks, conversion of one element, the scale a block store
chooses (R27-R30, R38-R46, R53, R139, R160). A memory format is a format code with its block-length log. -/

namespace Sys2Proof.Machine

/-- A block-scaled format (R27). -/
def isBlock (f : Nat) : Bool := fmtClass f == .block

/-- An integer format (R27). -/
def isInt (f : Nat) : Bool := fmtClass f == .integer

/-- A float format (R27). -/
def isFloat (f : Nat) : Bool := fmtClass f == .float

/-- The elements a block decodes to (R39, R42). -/
def blockLen (f k : Nat) : Nat := 8 * 2 ^ k * if f = 27 then 8 else 1

/-- The bytes that n elements take in memory (R30, R40). -/
def spanBytes (f k n : Nat) : Nat :=
  if isBlock f then (n + blockLen f k - 1) / blockLen f k * blockBytes f k else (n * fmtWidth f + 7) / 8

/-- Where element i lies from the start of its array: its first byte and the byte ranges that hold it (R30, R40, R159). -/
def elemPlace (f k i : Nat) : Nat × List (Nat × Nat) :=
  let w := fmtWidth f
  if isBlock f then
    let b := i / blockLen f k * blockBytes f k
    let j := if f = 27 then i % blockLen f k / 8 else i % blockLen f k
    let lo := b + 2 + w * j / 8
    (lo, [(b, 2), (lo, (w * j + w + 7) / 8 - w * j / 8)])
  else (w * i / 8, [(w * i / 8, (w * i + w + 7) / 8 - w * i / 8)])

/-- The code of element i of a packed string. -/
def packedCode (w data i : Nat) : Nat := data / 2 ^ (w * i) % 2 ^ w

/-- A byte of a byte string as a number. -/
def byteOf (data i : Nat) : Nat := data / 2 ^ (8 * i) % 256

/-- The value of element i of an array in memory and the flags of decoding it (R32, R36, R41, R42). -/
def memElem (f k data i : Nat) : FV × Flags :=
  if isBlock f then
    let b := i / blockLen f k * blockBytes f k
    let j := i % blockLen f k
    let q := packedCode (fmtWidth f) (data / 2 ^ (8 * (b + 2))) (if f = 27 then j / 8 else j)
    blockValue f (byteOf data b) (byteOf data (b + 1)) q (j % 8)
  else (elemValue f (packedCode (fmtWidth f) data i), 0)

/-- The stored code of element i of an array. -/
def memCode (f k data i : Nat) : Nat :=
  if isBlock f then
    packedCode (fmtWidth f) (data / 2 ^ (8 * (i / blockLen f k * blockBytes f k + 2))) (if f = 27 then i % blockLen f k / 8 else i % blockLen f k)
  else packedCode (fmtWidth f) data i

/-- The integer of an integer element's code (R36). -/
def intOf (f c : Nat) : Int :=
  match intFmt f with
  | some (true, w) => toS w c
  | some (false, w) => ((c % 2 ^ w : Nat) : Int)
  | none => 0

/-- A decoded value written into a format that is not block-scaled (R53); a signalling NaN sets NV (R34). -/
def convValue (dst : Nat) (sat : Bool) (mode r : Nat) (x : FV × Flags) : Nat × Flags :=
  let y := encodeElem dst sat mode r x.1
  (y.1, y.2 ||| x.2 ||| sigFlag x.1)

/-- The conversion of a code between two formats that are not block-scaled (R53). -/
def convCode (src dst : Nat) (sat : Bool) (mode r c : Nat) : Nat × Flags :=
  if isInt src && isInt dst then encodeInt dst sat (intOf src c) else convValue dst sat mode r (elemValue src c, 0)

/-- The conversion of element i of an array into a format that is not block-scaled (R53). -/
def convMem (f k data i dst : Nat) (sat : Bool) (mode r : Nat) : Nat × Flags :=
  if isBlock f then convValue dst sat mode r (memElem f k data i)
  else convCode f dst sat mode r (packedCode (fmtWidth f) data i)

/-! ### Blocks as a store writes them (R160) -/

/-- The largest magnitude of an element: the largest finite value, or the format maximum for integers. -/
def elemMax (f : Nat) : Nat × Int :=
  match blockElem f with
  | some ef => match floatFmt ef with
    | some ff => ff.largest
    | none => ((intRange ((intFmt ef).getD (true, 8))).2.toNat, 0)
  | none => (0, 0)

/-- A magnitude divided by 2^(s - 127) is within a bound. -/
def fitsScale (q : Nat × Int) (x : FV) (s : Nat) : Bool :=
  match x with
  | .fin _ m e => m == 0 || !magLt q.1 q.2 m (e + 127 - s)
  | _ => false

/-- The smallest scale byte of 0 to 254 that holds a value within a bound, 254 when none does. -/
def scaleFor (q : Nat × Int) (x : FV) : Nat := ((List.range 255).find? (fitsScale q x)).getD 254

/-- A value that is no number. -/
def FV.special : FV → Bool
  | .fin _ _ _ => false
  | _ => true

/-- A zero. -/
def FV.isZero : FV → Bool
  | .fin _ m _ => m == 0
  | _ => false

/-- OF for an infinity. -/
def infFlag : FV → Flags
  | .inf _ => flagOF
  | _ => 0

/-- The scale byte of a block of values (R160). -/
def blockScale (f : Nat) (xs : List FV) : Nat :=
  if xs.any FV.special then 255
  else if xs.all FV.isZero then 127
  else xs.foldl (fun acc x => if x.isZero then acc else max acc (scaleFor (elemMax f) x)) 0

/-- The block of values as a store writes it: its bytes as a number, and the flags of each element; a block with a NaN or an infinity raises OF for
an infinity and nothing for a NaN (R160); `draw` gives the draw bits of an element of the block. -/
def storeBlock (f mode : Nat) (draw : Nat → Nat) (xs : List FV) : Nat × List Flags :=
  let s := blockScale f xs
  if s = 255 then (255, xs.map infFlag)
  else
    let cs := xs.zipIdx.map fun (x, i) => encodeBlock f s 0 true mode (draw i) x
    (s + 2 ^ 16 * pieces (fmtWidth f) (cs.map (·.1)), cs.map (·.2))

/-- Cut a list into pieces of n. -/
def chunks {α : Type} (n : Nat) : Nat → List α → List (List α)
  | 0, _ => []
  | k + 1, l => l.take n :: chunks n k (l.drop n)

/-! ### Lane form (R139) -/

/-- The arithmetic formats (R139). -/
def isArith (f : Nat) : Bool := [1, 2, 3, 4, 5, 11, 12, 13, 14, 30].contains f

/-- The lane-form formats (R139). -/
def isLaneForm (f : Nat) : Bool := (decide (2 ≤ f) && decide (f ≤ 17)) || f == 30

/-- The formats of a move: lane form, BYTE as the raw lane, FP64 (R153, R155). -/
def isMove (f : Nat) : Bool := isLaneForm f || f == 0 || f == 1

/-- A signed integer format. -/
def isSigned (f : Nat) : Bool := match intFmt f with | some (b, _) => b | none => false

/-- The elements of a register: 128 of FP64, else 256; BYTE is the raw lane. -/
def elemsOf (f : Nat) (v : BitVec 8192) : List Nat :=
  if f = 1 then cut 64 v.toNat 128
  else if f = 0 then cut 32 v.toNat 256
  else (cut 32 v.toNat 256).map (· % 2 ^ fmtWidth f)

/-- A code as it stands in a lane: zero above the width, copies of the sign for S formats. -/
def laneForm (f c : Nat) : Nat :=
  if f = 1 then c % 2 ^ 64
  else if f = 0 then c % 2 ^ 32
  else if isSigned f then ofS 32 (toS (fmtWidth f) c)
  else c % 2 ^ fmtWidth f

/-- Whether a mask enables an element: FP64 element i by bit 2i. -/
def enabled (f : Nat) (k : BitVec 256) (i : Nat) : Bool := k.getLsbD (if f = 1 then 2 * i else i)

/-- The bits an element takes in a register. -/
def placeBits (f : Nat) : Nat := if f = 1 then 64 else 32

/-- A register with its enabled elements replaced (R140). -/
def mergeElems (f : Nat) (k : BitVec 256) (old : BitVec 8192) (new : List Nat) : BitVec 8192 :=
  let w := placeBits f
  BitVec.ofNat 8192 (pieces w (((cut w old.toNat (8192 / w)).zip new).zipIdx.map fun ((o, n), i) => if enabled f k i then n else o))

/-- The flags of the enabled elements (R51). -/
def maskFlags (f : Nat) (k : BitVec 256) (l : List Flags) : List Flags := l.zipIdx.map fun (x, i) => if enabled f k i then x else 0

end Sys2Proof.Machine
end

