-- ==== Sys2Proof/Machine/Elementary.lean ====
section
/-! DEFINITION. Quotients, square roots, exponentials and logarithms as exact values for rounding (R146, R163). A result that is
no dyadic number is given by a dyadic number with 256 bits or more after the point, and one more bit set that stands for the rest
(UNVERIFIED, log 15). -/

namespace Sys2Proof.Machine

/-- A positive value given by its integer part over a power of two and whether something is left above it: a further bit stands
for the rest. -/
def sticky (neg : Bool) (q : Nat) (e : Int) (rest : Bool) : FV := .fin neg (2 * q + if rest then 1 else 0) (e - 1)

/-- The exact quotient of two magnitudes. -/
def quotient (neg : Bool) (m : Nat) (e : Int) (n : Nat) (f : Int) : FV :=
  sticky neg (m * 2 ^ 256 / n) (e - f - 256) (m * 2 ^ 256 % n ≠ 0)

/-- The integer square root, by bits from the highest: `k` bits are still to be found. -/
def isqrtFrom (n : Nat) : Nat → Nat → Nat
  | 0, r => r
  | k + 1, r => isqrtFrom n k (if (r + 2 ^ k) * (r + 2 ^ k) ≤ n then r + 2 ^ k else r)

/-- The integer square root. -/
def isqrt (n : Nat) : Nat := isqrtFrom n (n.log2 / 2 + 1) 0

/-- A magnitude with an even exponent. -/
def evenExp (m : Nat) (e : Int) : Nat × Int := if e % 2 = 0 then (m, e) else (2 * m, e - 1)

/-- The exact square root of a positive value. -/
def rootOf (m : Nat) (e : Int) : FV :=
  let x := evenExp m e
  let n := x.1 * 2 ^ 512
  let r := isqrt n
  sticky false r (x.2 / 2 - 256) (r * r ≠ n)

/-- The exact reciprocal of the square root of a positive value. -/
def rootRecip (m : Nat) (e : Int) : FV :=
  let x := evenExp m e
  let n := 2 ^ 640 / x.1
  let r := isqrt n
  sticky false r (-(x.2 / 2) - 320) (r * r * x.1 ≠ 2 ^ 640)

/-- The bits after the point of the fixed-point series. -/
def fixBits : Nat := 320

/-- The sum of `x^k / k!` from term k on, in fixed point. -/
def expSeries (x : Nat) : Nat → Nat → Nat → Nat
  | 0, _, _ => 0
  | n + 1, k, t => t + expSeries x n (k + 1) (t * x / 2 ^ fixBits / (k + 1))

/-- e to a fixed-point power in [0, 1). -/
def expFix (x : Nat) : Nat := expSeries x 90 0 (2 ^ fixBits)

/-- The sum of `z^(2k+1) / (2k+1)`, in fixed point. -/
def atanhSeries (z2 : Nat) : Nat → Nat → Nat → Nat
  | 0, _, _ => 0
  | n + 1, k, t => t / (2 * k + 1) + atanhSeries z2 n (k + 1) (t * z2 / 2 ^ fixBits)

/-- The inverse hyperbolic tangent of a fixed-point value of at most 1/3. -/
def atanhFix (z : Nat) : Nat := atanhSeries (z * z / 2 ^ fixBits) 110 0 z

/-- The natural logarithm of 2 in fixed point. -/
def ln2Fix : Nat := 2 * atanhFix (2 ^ fixBits / 3)

/-- The natural logarithm of a fixed-point value in [1, 2). -/
def lnFix (m : Nat) : Nat := 2 * atanhFix ((m - 2 ^ fixBits) * 2 ^ fixBits / (m + 2 ^ fixBits))

/-- A fixed-point logarithm `i * one + frac` as a value. -/
def logValue (i : Int) (one frac : Nat) (den : Nat) : FV :=
  let t : Int := i * (one : Int) + (frac : Int)
  sticky (decide (t < 0)) (t.natAbs * 2 ^ fixBits / den) (-(fixBits : Int)) true

/-- The binary exponent of a positive value and its fraction in fixed point, in [1, 2). -/
def binade (m : Nat) (e : Int) : Int × Nat := ((m.log2 : Int) + e, shiftNat m ((fixBits : Int) - m.log2))

/-- log2 of a positive value that is no power of two. -/
def log2Of (m : Nat) (e : Int) : FV := logValue (binade m e).1 ln2Fix (lnFix (binade m e).2) ln2Fix

/-- ln of a positive value other than 1. -/
def lnOf (m : Nat) (e : Int) : FV := logValue (binade m e).1 ln2Fix (lnFix (binade m e).2) (2 ^ fixBits)

/-- A value so large or so small that every format overflows or rounds it as the least magnitude. -/
def farExp (neg : Bool) : FV := .fin false 1 (if neg then -8192 else 8192)

/-- 1 with a rest above or below it, for a power of tiny magnitude. -/
def nearOne (neg : Bool) : FV := if neg then .fin false (2 ^ 512 - 1) (-512) else .fin false (2 ^ 512 + 1) (-512)

/-- A signed value in fixed point, rounded toward minus infinity. -/
def fixOf (neg : Bool) (m : Nat) (e : Int) : Int :=
  let t : Int := (m : Int) * (if 0 ≤ e + fixBits then ((2 ^ (e + fixBits).toNat : Nat) : Int) else 1)
  let d : Int := if 0 ≤ e + fixBits then 1 else ((2 ^ (-(e + fixBits)).toNat : Nat) : Int)
  (if neg then -t else t) / d

/-- 2 to a finite power that is no integer. -/
def exp2Of (neg : Bool) (m : Nat) (e : Int) : FV :=
  if 13 ≤ (m.log2 : Int) + e then farExp neg
  else if (m.log2 : Int) + e < -250 then nearOne neg
  else
    let t := fixOf neg m e
    let n := t / ((2 ^ fixBits : Nat) : Int)
    let f := (t % ((2 ^ fixBits : Nat) : Int)).toNat
    sticky false (expFix (f * ln2Fix / 2 ^ fixBits)) (n - fixBits) true

/-- e to a finite power other than 0. -/
def expOf (neg : Bool) (m : Nat) (e : Int) : FV :=
  if 13 ≤ (m.log2 : Int) + e then farExp neg
  else if (m.log2 : Int) + e < -250 then nearOne neg
  else
    let t := fixOf neg m e
    let n := t / (ln2Fix : Int)
    let f := (t % (ln2Fix : Int)).toNat
    sticky false (expFix f) (n - fixBits) true

/-- The integer of a finite value, if it is one. -/
def FV.int? (neg : Bool) (m : Nat) (e : Int) : Option Int :=
  let sgn (v : Nat) : Int := if neg then -(v : Int) else (v : Int)
  if 0 ≤ e then some (sgn (m * 2 ^ (min e.toNat 4096)))
  else if m % 2 ^ (-e).toNat = 0 then some (sgn (m / 2 ^ (-e).toNat)) else none

/-- 1/a with the special operands of R146. -/
def FV.rcp : FV → FV × Flags
  | .nan q => (.nan false, sigFlag (.nan q))
  | .inf n => (.fin n 0 0, 0)
  | .fin n m e => if m = 0 then (.inf n, flagDZ) else (quotient n 1 0 m e, 0)

/-- 1/√a with the special operands of R146. -/
def FV.rsqrt : FV → FV × Flags
  | .nan q => (.nan false, sigFlag (.nan q))
  | .inf n => if n then (.nan false, flagNV) else (.fin false 0 0, 0)
  | .fin n m e => if m = 0 then (.inf n, flagDZ) else if n then (.nan false, flagNV) else (rootRecip m e, 0)

/-- 2^a with the special operands of R146; an integral power is exact. -/
def FV.exp2 : FV → FV × Flags
  | .nan q => (.nan false, sigFlag (.nan q))
  | .inf n => (if n then .fin false 0 0 else .inf false, 0)
  | .fin n m e =>
    match FV.int? n m e with
    | some i => (.fin false 1 (max (-8192) (min 8192 i)), 0)
    | none => (exp2Of n m e, 0)

/-- A power of two. -/
def isPow2 (m : Nat) : Bool := m == 2 ^ m.log2

/-- log2 a with the special operands of R146; a power of two has an exact logarithm. -/
def FV.log2 : FV → FV × Flags
  | .nan q => (.nan false, sigFlag (.nan q))
  | .inf n => if n then (.nan false, flagNV) else (.inf false, 0)
  | .fin n m e =>
    if m = 0 then (.inf true, flagDZ)
    else if n then (.nan false, flagNV)
    else if isPow2 m then (ofInt ((m.log2 : Int) + e), 0)
    else (log2Of m e, 0)

/-- a / b (R163). -/
def FV.div : FV → FV → FV × Flags
  | .nan s, y => (.nan false, sigFlag (.nan s) ||| sigFlag y)
  | x, .nan s => (.nan false, sigFlag x ||| sigFlag (.nan s))
  | .inf _, .inf _ => (.nan false, flagNV)
  | .inf a, .fin b _ _ => (.inf (a != b), 0)
  | .fin a _ _, .inf b => (.fin (a != b) 0 0, 0)
  | .fin a m e, .fin b n f =>
    if n = 0 then (if m = 0 then (.nan false, flagNV) else (.inf (a != b), flagDZ))
    else if m = 0 then (.fin (a != b) 0 0, 0)
    else (quotient (a != b) m e n f, 0)

/-- √a (R163). -/
def FV.sqrt : FV → FV × Flags
  | .nan q => (.nan false, sigFlag (.nan q))
  | .inf n => if n then (.nan false, flagNV) else (.inf false, 0)
  | .fin n m e => if m = 0 then (.fin n 0 0, 0) else if n then (.nan false, flagNV) else (rootOf m e, 0)

/-- e^a (R163); e^0 = 1. -/
def FV.exp : FV → FV × Flags
  | .nan q => (.nan false, sigFlag (.nan q))
  | .inf n => (if n then .fin false 0 0 else .inf false, 0)
  | .fin n m e => if m = 0 then (.fin false 1 0, 0) else (expOf n m e, 0)

/-- ln a (R163). -/
def FV.ln : FV → FV × Flags
  | .nan q => (.nan false, sigFlag (.nan q))
  | .inf n => if n then (.nan false, flagNV) else (.inf false, 0)
  | .fin n m e =>
    if m = 0 then (.inf true, flagDZ)
    else if n then (.nan false, flagNV)
    else if isPow2 m && (m.log2 : Int) + e == 0 then (.fin false 0 0, 0)
    else (lnOf m e, 0)

/-- A magnitude cut to q bits after its leading one, and whether something was cut (R146). -/
def cutMantissa (q m : Nat) (e : Int) : Nat × Int × Bool :=
  let sh := m.log2 - q
  (m / 2 ^ sh, e + sh, m % 2 ^ sh ≠ 0)

/-- The result of a base approximation in a format (R146): toward zero to min(p, 12) mantissa bits, then `RoundTo` toward zero;
tiny and inexact raises UF (R48). -/
def approxBits (f : FFmt) (x : FV × Flags) : Nat × Flags :=
  match x.1 with
  | .fin n m e =>
    if m = 0 then (encodeFloat f (.fin n 0 0), x.2)
    else
      let c := cutMantissa (min f.p 12) m e
      let y := roundTo f false 1 0 (.fin n c.1 c.2.1)
      let nx := c.2.2 || (y.2 &&& flagNX) != 0
      let tiny := match y.1 with
        | .fin _ r u => magLt r u 1 (1 - (f.b : Int))
        | _ => false
      (encodeFloat f y.1, x.2 ||| y.2 ||| flagIf nx flagNX ||| flagIf (nx && tiny) flagUF)
  | v =>
    let y := roundBits f false 1 0 v
    (y.1, x.2 ||| y.2)

end Sys2Proof.Machine
end

