-- ==== Sys2Proof/Machine/Vector.lean ====
section
/-! DEFINITION. What every vector instruction shares: the checks of R142, streamed operands (R219), rounding with its draws, and
the end of an instruction that writes a register (R139-R142, R51, R55). -/

namespace Sys2Proof.Machine

/-! ### Checks and operands -/

/-- The word of the instruction at hand as it stands in memory: a replayed window instruction has advanced registers (R77). -/
def State.wordAt (s : State) (i : Instr) : Word :=
  match s.me.frame with
  | some f => wordOf ((f.window[f.j]?).elim i (·.1))
  | none => wordOf i

/-- ILLEGAL with the instruction's word. -/
def State.illegalAt (s : State) (i : Instr) : Exit := .trap 1 0 (s.wordAt i) none

/-- FORMAT with the rejected code (R28). -/
def badFormat (f : Nat) : Exit := .trap 5 0 (BitVec.ofNat 64 (f % 32)) none

/-- A register that the task's stream feeds (R219). -/
def State.streamed (s : State) (r : Vr) : Bool := s.me.stream.isSome && decide (24 ≤ r.toNat)

/-- The checks of R142 in order: lease, format, other fields; then a stream's registers are not written (R219). -/
def State.vecCheck (s : State) (i : Instr) (regs : List Vr) (f : Nat) (fmtOk fields : Bool) (writes : List Vr) : Except Exit Unit := do
  if f = 1 then needD s
  s.checkLease regs
  need fmtOk (badFormat f)
  need (fields && !writes.any s.streamed) (s.illegalAt i)

/-- Lanes that no rule gives a value: those of a strip that an aborted stream never filled (R214, R219, DESIGN CHOICE, log 22). -/
def openStrip (n : Nat) : BitVec 8192 :=
  BitVec.ofNat 8192 (pieces 64 ((List.range 128).map fun i => (Config.freeWord (2 ^ 66 + 128 * n + i)).toNat))

/-- A strip of a stream, zero after the last one, open after an abort (R214, R219). -/
def StreamRef.strip (r : StreamRef) (j : Nat) : Option (BitVec 8192) :=
  match r.strips[j]? with
  | some x => some x
  | none => if r.ended then some 0 else if r.stopped then some (openStrip (r.popped + j)) else none

/-- A vector register read; a stream's register waits until its strip is filled, and stalls while a restored stream has no slot (R219,
R220). -/
def State.readV (s : State) (r : Vr) : Except Exit (BitVec 8192) :=
  match s.me.stream with
  | some k =>
    if 24 ≤ r.toNat then
      if k.saved.isSome then .error .refill
      else match k.strip (r.toNat - 24) with
        | some x => .ok x
        | none => .error (.wait .watermark)
    else .ok (s.me.getV r)
  | none => .ok (s.me.getV r)

/-- The oldest strip popped. -/
def StreamRef.pop (r : StreamRef) : StreamRef := { r with strips := r.strips.drop 1, popped := r.popped + 1 }

/-- An instruction that read v24 pops the stream when it retires (R219). -/
def Task.popStream (x : Task) (reads : List Vr) : Task :=
  if reads.contains 24 then { x with stream := x.stream.map StreamRef.pop } else x

/-- A vector instruction of n bytes retires: its draws are consumed (R55), a stream it read is popped (R219). -/
def State.retireV (s : State) (reads : List Vr) (draws n : Nat) : State :=
  (s.onMe fun x => { x.popStream reads with pos := x.pos + BitVec.ofNat 52 draws }).retire n

/-- A register with its enabled elements written, the flags raised (R51, R140). -/
def State.writeVec (s : State) (d : Vr) (f : Nat) (k : BitVec 256) (new : List Nat) (fl : List Flags) : Except Exit State := do
  let fl := maskFlags f k fl
  checkArith s.me fl
  .ok ((s.raiseMine fl).onMe fun x => x.setV d (mergeElems f k (x.getV d) new))

/-! ### Rounding -/

/-- The draws of an instruction that rounds in a mode (R55). -/
def drawsIn (mode : Nat) : Nat := if mode = 5 then 1 else 0

/-- The draw bits of element e under the task's rounding, read only in SR (R55); an FP64 element draws with its index among the FP64
elements, not with its 32-bit lane (DESIGN CHOICE, log 113). -/
def State.drawOf (s : State) (mode e : Nat) : Nat := if mode = 5 then s.me.rnd.draw 0 e else 0

/-- The mode in force (R47). -/
def State.mode (s : State) : Nat := s.me.round.toNat

/-- A float format by code; FP32 where the code names none. -/
def floatOf (f : Nat) : FFmt := (floatFmt f).getD fp32

/-- A rounded element in a float format with all its flags. -/
def roundElem (f mode r : Nat) (x : FV × Flags) : Nat × Flags :=
  let y := roundBits (floatOf f) false mode r x.1
  (y.1, y.2 ||| x.2)

/-- An integer result wrapped to the width of its format (R141). -/
def wrapInt (f : Nat) (i : Int) : Nat := ofS (fmtWidth f) i

/-! ### Element by element forms -/

/-- A function of the elements of three registers, with the element's index. -/
def zip3 (g : Nat → Nat → Nat → Nat → Nat × Flags) (a b d : List Nat) : List (Nat × Flags) :=
  ((a.zip b).zip d).zipIdx.map fun ((p, c), i) => g i p.1 p.2 c

/-- The body of an instruction that computes each element from the elements of VA, VB and VD: `fin` the source format, `fout` the
format written, which differ only where both have 256 lanes. -/
def vecBody (i : Instr) (d a b : Vr) (k : Kr) (fin fout : Nat) (fmtOk : Bool) (reads : List Vr) (draws : Nat)
    (g : Nat → Nat → Nat → Nat → Nat × Flags) (s : State) : Except Exit State := do
  s.vecCheck i (d :: reads.filter (· != d)) fin fmtOk true [d]
  let va ← s.readV a
  let vb ← s.readV b
  let r := zip3 g (elemsOf fin va) (elemsOf fin vb) (elemsOf fin (s.me.getV d))
  let t ← s.writeVec d fout (s.me.getK k) (r.map fun x => laneForm fout x.1) (r.map (·.2))
  .ok (t.retireV reads draws 4)

end Sys2Proof.Machine
end

