-- ==== Sys2Proof/Machine/VectorMem.lean ====
section
/-! DEFINITION. Vector memory: element accesses with their checks, `vld` and `vst` with conversion and blocks, the raw images of
`vldl` and `vstl`, `vgather` and `vscatter` (R158-R162). -/

namespace Sys2Proof.Machine

/-! ### Element accesses (R158) -/

/-- An enabled element's access: its lane, its address and the byte ranges that hold it. -/
structure ElemAcc where
  lane : Nat
  loc : Loc
  ranges : List (Loc × Nat)
  deriving DecidableEq, Repr

/-- A fault of an element reports its address and its lane (R158), also where a missing page parks the task (R106). An FP64 element
reports its element index, not the number of a 32-bit lane (DESIGN CHOICE, log 94). -/
def ElemAcc.fault (e : ElemAcc) : Exit → Exit
  | .absent a v k _ => .absent a v k (some (BitVec.ofNat 64 (e.lane % 256)))
  | .trap 6 sub v _ => .trap 6 sub v (some (BitVec.ofNat 64 (e.lane % 256)))
  | .trap c sub _ _ => .trap c sub (BitVec.ofNat 64 e.loc.addr) (some (BitVec.ofNat 64 (e.lane % 256)))
  | .mismatch l _ => .mismatch l (some (BitVec.ofNat 64 (e.lane % 256)))
  | .badCopy c l _ => .badCopy c l (some (BitVec.ofNat 64 (e.lane % 256)))
  | x => x

/-- Every enabled element is aligned, lowest lane first; a disabled one faults nothing (R140, R158). An element of a block reports the address
of the array, the odd one (R40). -/
def checkElemAligned (es : List ElemAcc) (block : Option Nat) (ok : Nat → Bool) : Except Exit Unit :=
  es.foldlM (fun _ e => let a := block.getD e.loc.addr
    need (ok a) (.trap 2 0 (BitVec.ofNat 64 a) (some (BitVec.ofNat 64 (e.lane % 256))))) ()

/-- A check of every range of every element, lowest lane first. -/
def checkEach (es : List ElemAcc) (f : Loc → Nat → Except Exit Unit) : Except Exit Unit :=
  es.foldlM (fun _ e => e.ranges.foldlM (fun _ r => match f r.1 r.2 with
    | .ok _ => .ok ()
    | .error x => .error (e.fault x)) ()) ()

/-- Every enabled element is checked before anything changes (R158): faults, then watermarks, then carried checks of a load. -/
def State.checkElems (s : State) (ring : Bool) (acc : Access) (es : List ElemAcc) : Except Exit Unit := do
  if !ring then
    checkEach es fun l n => s.checkPlace l n acc
    checkEach es fun l n => s.checkWater l n acc
  if acc.reads then checkEach es (s.checkLoad s.myCore)

/-- The byte ranges of the elements of an access, from its location. -/
def neededAt (l : Loc) (es : List ElemAcc) : List (Nat × Nat) :=
  es.flatMap fun e => e.ranges.map fun r => ((r.1.addr + 2 ^ 56 - l.addr) % 2 ^ 56, r.2)

/-- Which bytes of n the ranges hold, as a bit string. -/
def rangeBits (rs : List (Nat × Nat)) : Nat := rs.foldl (fun acc r => acc ||| (2 ^ r.2 - 1) * 2 ^ r.1) 0

/-- The bytes of a store with the bits it changes, as writes of aligned words; a whole byte needs no mask (R158, R159). -/
def maskedWrites (l : Loc) (n val mask : Nat) : List (Loc × List Byte × List Byte) :=
  (wordRuns (fun o => byteOf mask o != 0) l.addr n).map fun (o, k) =>
    let m := natBytes (mask / 2 ^ (8 * o)) k
    (l.plus o, natBytes (val / 2 ^ (8 * o)) k, if m.all (· == 0xFF) then [] else m)

/-- The space a vector store takes in the shadow buffer (R111). -/
def vectorCost (bytes : Nat) : Nat := (64 + bytes + 63) / 64 * 64

/-- The bytes of a list of writes. -/
def writtenBytes (ws : List (Loc × List Byte × List Byte)) : Nat := (ws.map (·.2.1.length)).foldl (· + ·) 0

/-! ### Operands (R67, R158) -/

/-- The location of a Vmem operand: a ring slot that holds n bytes, or an address in its space (R158). -/
def State.vmemPlace (s : State) (i : Instr) (a : Gpr) (sp : BitVec 2) (c : Gpr) (off : Int) (n : Nat) (store : Bool) :
    Except Exit Loc :=
  if sp = 3 then
    if store then do
      let h ← s.ringHandle (a.toNat % 16)
      let l ← s.ringStore i (a.toNat % 16) n
      need (!s.ringBusy h) (.wait .ring)
      .ok l
    else s.ringLoad i (a.toNat % 16) n
  else s.place sp (BitVec.ofInt 64 ((va56 (s.g a) : Int) + off)) (s.g c) (if store then 1 else 0)

/-- The memory format of an access: the instruction's own through a tag of 0, else the tag's (R44); a ring slot has no tag. -/
def memFormat (ptr : Word) (n : Nat) : Nat × Nat := if bits ptr 56 8 = 0 then (n, 0) else (tagFmt ptr, tagBlog ptr)

/-- The pointer of an operand; a ring handle is none. -/
def State.vmemPtr (s : State) (a : Gpr) (sp : BitVec 2) : Word := if sp = 3 then 0 else s.g a

/-- The pairs of a memory format and a register format that `vld` and `vst` take (R159, R160). -/
def pairOk (store allLanes : Bool) (m bl n : Nat) : Bool :=
  ((m == 0) == (n == 0)) && (m != 1 || n == 1) &&
    (!isBlock m || (n != 1 && decide (bl ≤ if m = 27 then 2 else 5) && (!store || (m != 27 && allLanes))))

/-- The checks of `vld` and `vst` up to the tag (R142, R159): the memory format. -/
def State.vmemFormat (s : State) (i : Instr) (d : Vr) (a : Gpr) (sp : BitVec 2) (k : Kr) (f : Fmt) (store : Bool) :
    Except Exit (Nat × Nat) := do
  let ptr := s.vmemPtr a sp
  tagNeedsD s ptr
  s.vecCheck i [d] f.toNat (isMove f.toNat) true (if store then [] else [d])
  checkTag ptr false
  let m := memFormat ptr f.toNat
  need (pairOk store (k == 0) m.1 m.2 f.toNat) (.trap 5 0 ptr none)
  .ok m

/-- The alignment of an element (R40, R158); an element narrower than 8 bits has none. -/
def elemAligned (m a : Nat) : Bool := if isBlock m then a % 2 == 0 else a % ((fmtWidth m + 7) / 8) == 0

/-- The alignment check of the enabled elements of an array at an address (R40, R158). -/
def checkArrayAligned (m addr : Nat) (es : List ElemAcc) : Except Exit Unit :=
  checkElemAligned es (if isBlock m then some addr else none) (elemAligned m)

/-- The accesses of the enabled elements of an array (R159). -/
def arrayElems (l : Loc) (m bl : Nat) (on : Nat → Bool) (cnt : Nat) : List ElemAcc :=
  ((List.range cnt).filter on).map fun i =>
    let p := elemPlace m bl i
    ⟨i, l.plus p.1, p.2.map fun r => (l.plus r.1, r.2)⟩

/-- The elements a register of a format holds. -/
def elemCount (f : Nat) : Nat := if f = 1 then 128 else 256

/-- A load through a ring is an acquire at `.quad` (R130). -/
def State.ringAcquire (s : State) (sp : BitVec 2) (q : Nat) : State := if sp = 3 then s.acquireRing q else s

/-! ### vld and vst (R159, R160) -/

/-- One loaded element: moved unchanged where the formats agree, else converted (R159). -/
def loadElem (s : State) (m bl n data e : Nat) : Nat × Flags :=
  if m = n then (packedCode (fmtWidth n) data e, 0) else convMem m bl data e n false s.mode (s.drawOf s.mode e)

/-- The body of `vld` (R159). -/
def vldBody (i : Instr) (d : Vr) (a : Gpr) (sp : BitVec 2) (k : Kr) (f : Fmt) (off : Int) (c : Gpr) (len : Nat) (s : State) :
    Except Exit State := do
  let n := f.toNat
  let m ← s.vmemFormat i d a sp k f false
  let size := spanBytes m.1 m.2 (elemCount n)
  let l ← s.vmemPlace i a sp c off size false
  let on := enabled n (s.me.getK k)
  let es := arrayElems l m.1 m.2 on (elemCount n)
  checkArrayAligned m.1 l.addr es
  s.checkElems (sp == 3) accLoad es
  let held := rangeBits (neededAt l es)
  let (data, s) := s.readRuns l (wordRuns (natBit held) l.addr size)
  let r := (List.range (elemCount n)).map fun e => if on e then loadElem s m.1 m.2 n data e else (0, 0)
  let t ← s.writeVec d n (s.me.getK k) (r.map (laneForm n ·.1)) (r.map (·.2))
  .ok ((t.ringAcquire sp (a.toNat % 16)).retireV [] (if m.1 = n then 0 else drawsIn s.mode) len)

/-- The KiB offset of a Vmem operand. -/
def kib {n : Nat} (x : BitVec n) : Int := 1024 * x.toInt

/-- `vld` (R159). -/
def execVld (d : Vr) (a : Gpr) (sp : BitVec 2) (k : Kr) (f : Fmt) (x : BitVec 5) (s : State) : Host.Outcome State Fault Refusal :=
  run s (vldBody (.vld d a sp k f x) d a sp k f (kib x) 0 4 s)

/-- `vld` with a prefix (R67). -/
def execVldPrefixed (d : Vr) (a : Gpr) (sp : BitVec 2) (k : Kr) (f : Fmt) (x : BitVec 5) (c : Gpr) (ext : BitVec 20) (s : State) :
    Host.Outcome State Fault Refusal :=
  run s (vldBody (.vldPrefixed d a sp k f x c ext) d a sp k f (kib (ext ++ x)) c 8 s)

/-- The bytes, the changed bits and the flags of a store of elements into a format that is not block-scaled (R159). -/
def packElems (s : State) (n m : Nat) (on : Nat → Bool) (xs : List Nat) : Nat × Nat × List Flags :=
  let w := fmtWidth m
  let r := xs.zipIdx.map fun (x, e) =>
    if on e then (if m = n then (x, 0) else convCode n m false s.mode (s.drawOf s.mode e) x) else (0, 0)
  (pieces w (r.map (·.1)), pieces w ((List.range xs.length).map fun e => if on e then 2 ^ w - 1 else 0), r.map (·.2))

/-- The bytes and the flags of a store of elements into blocks (R160). -/
def packBlocks (s : State) (n m bl : Nat) (xs : List Nat) : Nat × List Flags :=
  let per := blockLen m bl
  let bs := (chunks per (xs.length / per) xs).zipIdx.map fun (b, j) =>
    storeBlock m s.mode (fun e => s.drawOf s.mode (j * per + e)) (b.map (elemValue n))
  (pieces (8 * blockBytes m bl) (bs.map (·.1)), bs.flatMap (·.2))

/-- The body of `vst` (R159, R160). -/
def vstBody (i : Instr) (d : Vr) (a : Gpr) (sp : BitVec 2) (k : Kr) (f : Fmt) (off : Int) (c : Gpr) (len : Nat) (s : State) :
    Except Exit State := do
  let n := f.toNat
  let m ← s.vmemFormat i d a sp k f true
  let size := spanBytes m.1 m.2 (elemCount n)
  let l ← s.vmemPlace i a sp c off size true
  let on := enabled n (s.me.getK k)
  let es := arrayElems l m.1 m.2 on (elemCount n)
  checkArrayAligned m.1 l.addr es
  s.checkElems (sp == 3) accStore es
  let vd ← s.readV d
  let xs := elemsOf n vd
  let (val, mask, fl) :=
    if isBlock m.1 then
      let p := packBlocks s n m.1 m.2 xs
      (p.1, 2 ^ (8 * size) - 1, p.2)
    else packElems s n m.1 on xs
  checkArith s.me fl
  let ws := maskedWrites l size val mask
  let draws := if m.1 = n then 0 else drawsIn s.mode
  let fin (t : State) : Except Exit State := .ok ((t.raiseMine fl).retireV [d] draws len)
  (ws.foldl (fun s w => s.fillLoc w.1 w.2.1.length) s).issueWrites l ws none (if sp = 3 then 8 else s.routeOf l)
    (vectorCost (writtenBytes ws)) fin

/-- `vst` (R159). -/
def execVst (d : Vr) (a : Gpr) (sp : BitVec 2) (k : Kr) (f : Fmt) (x : BitVec 5) (s : State) : Host.Outcome State Fault Refusal :=
  run s (vstBody (.vst d a sp k f x) d a sp k f (kib x) 0 4 s)

/-- `vst` with a prefix (R67). -/
def execVstPrefixed (d : Vr) (a : Gpr) (sp : BitVec 2) (k : Kr) (f : Fmt) (x : BitVec 5) (c : Gpr) (ext : BitVec 20) (s : State) :
    Host.Outcome State Fault Refusal :=
  run s (vstBody (.vstPrefixed d a sp k f x c ext) d a sp k f (kib (ext ++ x)) c 8 s)

/-! ### vldl and vstl (R161) -/

/-- The accesses of the enabled raw lanes. -/
def rawElems (l : Loc) (k : BitVec 256) : List ElemAcc :=
  ((List.range 256).filter fun i => k.getLsbD i).map fun i => ⟨i, l.plus (4 * i), [(l.plus (4 * i), 4)]⟩

/-- The body of `vldl` (R161). -/
def vldlBody (i : Instr) (d : Vr) (a : Gpr) (sp : BitVec 2) (k : Kr) (off : Int) (c : Gpr) (len : Nat) (s : State) :
    Except Exit State := do
  s.vecCheck i [d] 0 true true [d]
  let l ← s.vmemPlace i a sp c off 1024 false
  let es := rawElems l (s.me.getK k)
  checkElemAligned es none (· % 4 == 0)
  s.checkElems (sp == 3) accLoad es
  let (data, s) := s.readRuns l (es.map fun e => (4 * e.lane, 4))
  let t ← s.writeVec d 0 (s.me.getK k) (cut 32 data 256) []
  .ok ((t.ringAcquire sp (a.toNat % 16)).retireV [] 0 len)

/-- `vldl` (R161). -/
def execVldl (d : Vr) (a : Gpr) (sp : BitVec 2) (k : Kr) (x : BitVec 4) (s : State) : Host.Outcome State Fault Refusal :=
  run s (vldlBody (.vldl d a sp k x) d a sp k (kib x) 0 4 s)

/-- `vldl` with a prefix (R67). -/
def execVldlPrefixed (d : Vr) (a : Gpr) (sp : BitVec 2) (k : Kr) (x : BitVec 4) (c : Gpr) (ext : BitVec 20) (s : State) :
    Host.Outcome State Fault Refusal :=
  run s (vldlBody (.vldlPrefixed d a sp k x c ext) d a sp k (kib (ext ++ x)) c 8 s)

/-- The body of `vstl` (R161). -/
def vstlBody (i : Instr) (d : Vr) (a : Gpr) (sp : BitVec 2) (k : Kr) (off : Int) (c : Gpr) (len : Nat) (s : State) :
    Except Exit State := do
  s.vecCheck i [d] 0 true true []
  let l ← s.vmemPlace i a sp c off 1024 true
  let es := rawElems l (s.me.getK k)
  checkElemAligned es none (· % 4 == 0)
  s.checkElems (sp == 3) accStore es
  let vd ← s.readV d
  let ws := es.map fun e => (e.loc, natBytes (lane vd e.lane) 4, [])
  let fin (t : State) : Except Exit State := .ok (t.retireV [d] 0 len)
  (ws.foldl (fun s w => s.fillLoc w.1 4) s).issueWrites l ws none (if sp = 3 then 8 else s.routeOf l) (vectorCost (4 * ws.length)) fin

/-- `vstl` (R161). -/
def execVstl (d : Vr) (a : Gpr) (sp : BitVec 2) (k : Kr) (x : BitVec 4) (s : State) : Host.Outcome State Fault Refusal :=
  run s (vstlBody (.vstl d a sp k x) d a sp k (kib x) 0 4 s)

/-- `vstl` with a prefix (R67). -/
def execVstlPrefixed (d : Vr) (a : Gpr) (sp : BitVec 2) (k : Kr) (x : BitVec 4) (c : Gpr) (ext : BitVec 20) (s : State) :
    Host.Outcome State Fault Refusal :=
  run s (vstlBody (.vstlPrefixed d a sp k x c ext) d a sp k (kib (ext ++ x)) c 8 s)

/-! ### vgather and vscatter (R162) -/

/-- The checks of a gather or scatter up to the tag: the memory format (R162). -/
def State.indexFormat (s : State) (i : Instr) (d x : Vr) (a : Gpr) (f : Fmt) (store : Bool) : Except Exit Nat := do
  let n := f.toNat
  let ptr := s.g a
  tagNeedsD s ptr
  s.vecCheck i [d, x] n (isMove n && n != 1) true (if store then [] else [d])
  checkTag ptr false
  let m := (memFormat ptr n).1
  need (((m == 0) == (n == 0)) && !isBlock m && m != 1 && decide (8 ≤ fmtWidth m)) (.trap 5 0 ptr none)
  .ok m

/-- The accesses of the enabled lanes of a gather or scatter, each aligned (R158, R162). -/
def State.indexElems (s : State) (a : Gpr) (sp : BitVec 2) (c : Gpr) (k : BitVec 256) (ix : List Nat) (w kind : Nat) :
    Except Exit (List ElemAcc) :=
  (ix.zipIdx.filter fun (_, i) => k.getLsbD i).mapM fun (x, i) => do
    let l ← s.place sp (BitVec.ofInt 64 ((va56 (s.g a) : Int) + toS 32 x)) (s.g c) kind
    let e : ElemAcc := ⟨i, l, [(l, w)]⟩
    need (l.addr % w == 0) (e.fault (misalign 0))
    .ok e

/-- The body of `vgather` (R162). -/
def vgatherBody (i : Instr) (d : Vr) (a : Gpr) (sp : BitVec 2) (k : Kr) (f : Fmt) (x : Vr) (c : Gpr) (len : Nat) (s : State) :
    Except Exit State := do
  let n := f.toNat
  let m ← s.indexFormat i d x a f false
  discard (s.place sp (s.g a) (s.g c) 0)
  let vx ← s.readV x
  let w := fmtWidth m / 8
  let es ← s.indexElems a sp c (s.me.getK k) (lanes vx) w 0
  s.checkElems false accLoad es
  let (l, s) := es.foldl (fun (p : List (Nat × Nat × Flags) × State) e =>
    let (bs, t) := p.2.loadBytes e.loc w
    let y := if m = n then (leNat bs, 0) else convCode m n false t.mode (t.drawOf t.mode e.lane) (leNat bs)
    ((e.lane, laneForm n y.1, y.2) :: p.1, t)) (([] : List (Nat × Nat × Flags)), s)
  let r := (List.range 256).map fun e => tget l e (0, 0)
  let t ← s.writeVec d n (s.me.getK k) (r.map (·.1)) (r.map (·.2))
  .ok (t.retireV [x] (if m = n then 0 else drawsIn s.mode) len)

/-- `vgather` (R162). -/
def execVgather (d : Vr) (a : Gpr) (sp : BitVec 2) (k : Kr) (f : Fmt) (x : BitVec 5) (s : State) : Host.Outcome State Fault Refusal :=
  run s (vgatherBody (.vgather d a sp k f x) d a sp k f x 0 4 s)

/-- `vgather` with a prefix (R67). -/
def execVgatherPrefixed (d : Vr) (a : Gpr) (sp : BitVec 2) (k : Kr) (f : Fmt) (x : BitVec 5) (c : Gpr) (s : State) :
    Host.Outcome State Fault Refusal :=
  run s (vgatherBody (.vgatherPrefixed d a sp k f x c) d a sp k f x c 8 s)

/-- The body of `vscatter`: its writes in ascending lane order (R162). -/
def vscatterBody (i : Instr) (d : Vr) (a : Gpr) (sp : BitVec 2) (k : Kr) (f : Fmt) (x : Vr) (c : Gpr) (len : Nat) (s : State) :
    Except Exit State := do
  let n := f.toNat
  let m ← s.indexFormat i d x a f true
  let base ← s.place sp (s.g a) (s.g c) 1
  let vx ← s.readV x
  let w := fmtWidth m / 8
  let es ← s.indexElems a sp c (s.me.getK k) (lanes vx) w 1
  s.checkElems false accStore es
  let vd ← s.readV d
  let xs := elemsOf n vd
  let r := es.map fun e =>
    let v := (xs[e.lane]?).getD 0
    (e, if m = n then (v, 0) else convCode n m false s.mode (s.drawOf s.mode e.lane) v)
  let fl := (List.range 256).map fun e => orFlags ((r.filter (·.1.lane == e)).map (·.2.2))
  checkArith s.me fl
  let ws := r.map fun p => (p.1.loc, natBytes p.2.1 w, [])
  let draws := if m = n then 0 else drawsIn s.mode
  let fin (t : State) : Except Exit State := .ok ((t.raiseMine fl).retireV [d, x] draws len)
  (ws.foldl (fun s y => s.fillLoc y.1 w) s).issueWrites base ws none (s.routeOf base) (vectorCost (writtenBytes ws)) fin

/-- `vscatter` (R162). -/
def execVscatter (d : Vr) (a : Gpr) (sp : BitVec 2) (k : Kr) (f : Fmt) (x : BitVec 5) (s : State) : Host.Outcome State Fault Refusal :=
  run s (vscatterBody (.vscatter d a sp k f x) d a sp k f x 0 4 s)

/-- `vscatter` with a prefix (R67). -/
def execVscatterPrefixed (d : Vr) (a : Gpr) (sp : BitVec 2) (k : Kr) (f : Fmt) (x : BitVec 5) (c : Gpr) (s : State) :
    Host.Outcome State Fault Refusal :=
  run s (vscatterBody (.vscatterPrefixed d a sp k f x c) d a sp k f x c 8 s)

end Sys2Proof.Machine
end

