-- ==== Sys2Proof/Machine/VectorAlu.lean ====
section
/-! DEFINITION. Vector arithmetic, base approximations, logic, shifts, select, block scale and compare, and the exactly rounded
forms of extension D (R143-R149, R163). -/

namespace Sys2Proof.Machine

/-! ### Major 0x20 (R143, R144) -/

/-- The body of an instruction whose float result is rounded and whose integer result wraps (R141, R143). -/
def arithBody (i : Instr) (d a b : Vr) (k : Kr) (f : Fmt) (ff : Nat → FV → FV → FV → FV × Flags) (fi : Int → Int → Int → Int)
    (s : State) : Except Exit State :=
  let n := f.toNat
  let m := s.mode
  let v := elemValue n
  vecBody i d a b k n n (isArith n) [a, b] (if isFloat n then drawsIn m else 0) (fun e x y z =>
    if isFloat n then roundElem n m (s.drawOf m e) (ff m (v x) (v y) (v z))
    else (wrapInt n (fi (intOf n x) (intOf n y) (intOf n z)), 0)) s

/-- A sum after the flags of its first term. -/
def FV.addTo (mode : Nat) (x : FV × Flags) (y : FV) : FV × Flags := let r := x.1.add mode y; (r.1, r.2 ||| x.2)

/-- The product negated. -/
def FV.mulNeg (x y : FV) : FV × Flags := let r := x.mul y; (r.1.negate, r.2)

/-- `vadd` (R143). -/
def execVadd (d a b : Vr) (k : Kr) (f : Fmt) (s : State) : Host.Outcome State Fault Refusal :=
  run s (arithBody (.vadd d a b k f) d a b k f (fun m x y _ => x.add m y) (fun x y _ => x + y) s)

/-- `vsub` (R143). -/
def execVsub (d a b : Vr) (k : Kr) (f : Fmt) (s : State) : Host.Outcome State Fault Refusal :=
  run s (arithBody (.vsub d a b k f) d a b k f (fun m x y _ => x.add m y.negate) (fun x y _ => x - y) s)

/-- `vmul` (R143). -/
def execVmul (d a b : Vr) (k : Kr) (f : Fmt) (s : State) : Host.Outcome State Fault Refusal :=
  run s (arithBody (.vmul d a b k f) d a b k f (fun _ x y _ => x.mul y) (fun x y _ => x * y) s)

/-- `vfma`: one rounding (R143). -/
def execVfma (d a b : Vr) (k : Kr) (f : Fmt) (s : State) : Host.Outcome State Fault Refusal :=
  run s (arithBody (.vfma d a b k f) d a b k f (fun m x y z => FV.addTo m (x.mul y) z) (fun x y z => x * y + z) s)

/-- `vfms`: one rounding (R143). -/
def execVfms (d a b : Vr) (k : Kr) (f : Fmt) (s : State) : Host.Outcome State Fault Refusal :=
  run s (arithBody (.vfms d a b k f) d a b k f (fun m x y z => FV.addTo m (x.mul y) z.negate) (fun x y z => x * y - z) s)

/-- `vfnma`: one rounding (R143). -/
def execVfnma (d a b : Vr) (k : Kr) (f : Fmt) (s : State) : Host.Outcome State Fault Refusal :=
  run s (arithBody (.vfnma d a b k f) d a b k f (fun m x y z => FV.addTo m (x.mulNeg y) z) (fun x y z => z - x * y) s)

/-- Whether one value lies below another where -0 lies below +0 (R144). -/
def FV.below (x y : FV) : Bool :=
  match x.cmp y with
  | some .lt => true
  | some .eq => (match x, y with | .fin true _ _, .fin false _ _ => true | _, _ => false)
  | _ => false

/-- The float minimum or maximum (R144). -/
def FV.pick (max : Bool) (x y : FV) : FV × Flags :=
  let fl := sigFlag x ||| sigFlag y
  if x.isNan && y.isNan then (.nan false, fl)
  else if x.isNan then (y, fl)
  else if y.isNan then (x, fl)
  else (if (if max then y.below x else x.below y) then x else y, fl)

/-- The minimum or maximum of two element codes (R143, R144). -/
def pickCode (max : Bool) (f x y : Nat) : Nat × Flags :=
  if isFloat f then
    let r := FV.pick max (elemValue f x) (elemValue f y)
    (encodeFloat (floatOf f) r.1, r.2)
  else (if (if max then decide (intOf f y < intOf f x) else decide (intOf f x < intOf f y)) then x else y, 0)

/-- `vmin` (R144). -/
def execVmin (d a b : Vr) (k : Kr) (f : Fmt) (s : State) : Host.Outcome State Fault Refusal :=
  run s (vecBody (.vmin d a b k f) d a b k f.toNat f.toNat (isArith f.toNat) [a, b] 0 (fun _ x y _ => pickCode false f.toNat x y) s)

/-- `vmax` (R144). -/
def execVmax (d a b : Vr) (k : Kr) (f : Fmt) (s : State) : Host.Outcome State Fault Refusal :=
  run s (vecBody (.vmax d a b k f) d a b k f.toNat f.toNat (isArith f.toNat) [a, b] 0 (fun _ x y _ => pickCode true f.toNat x y) s)

/-! ### Major 0x21 (R145, R146) -/

/-- The magnitude of a value. -/
def FV.abs : FV → FV
  | .nan s => .nan s
  | .inf _ => .inf false
  | .fin _ m e => .fin false m e

/-- `vabs` (R145). -/
def execVabs (d a : Vr) (k : Kr) (f : Fmt) (s : State) : Host.Outcome State Fault Refusal :=
  let n := f.toNat
  run s (vecBody (.vabs d a k f) d a a k n n (isArith n) [a] 0 (fun _ x _ _ =>
    if isFloat n then (encodeFloat (floatOf n) (elemValue n x).abs, sigFlag (elemValue n x)) else (wrapInt n (intOf n x).natAbs, 0)) s)

/-- `vneg` (R145). -/
def execVneg (d a : Vr) (k : Kr) (f : Fmt) (s : State) : Host.Outcome State Fault Refusal :=
  let n := f.toNat
  run s (vecBody (.vneg d a k f) d a a k n n (isArith n) [a] 0 (fun _ x _ _ =>
    if isFloat n then (encodeFloat (floatOf n) (elemValue n x).negate, sigFlag (elemValue n x)) else (wrapInt n (-(intOf n x)), 0)) s)

/-- The formats of the base approximations (R145). -/
def isApprox (f : Nat) : Bool := [2, 3, 4, 5].contains f

/-- A base approximation (R146). -/
def approxBody (i : Instr) (d a : Vr) (k : Kr) (f : Fmt) (g : FV → FV × Flags) (s : State) : Except Exit State :=
  vecBody i d a a k f.toNat f.toNat (isApprox f.toNat) [a] 0
    (fun _ x _ _ => approxBits (floatOf f.toNat) (g (elemValue f.toNat x))) s

/-- `vrcp` (R146). -/
def execVrcp (d a : Vr) (k : Kr) (f : Fmt) (s : State) : Host.Outcome State Fault Refusal :=
  run s (approxBody (.vrcp d a k f) d a k f FV.rcp s)

/-- `vrsqrt` (R146). -/
def execVrsqrt (d a : Vr) (k : Kr) (f : Fmt) (s : State) : Host.Outcome State Fault Refusal :=
  run s (approxBody (.vrsqrt d a k f) d a k f FV.rsqrt s)

/-- `vexp2` (R146). -/
def execVexp2 (d a : Vr) (k : Kr) (f : Fmt) (s : State) : Host.Outcome State Fault Refusal :=
  run s (approxBody (.vexp2 d a k f) d a k f FV.exp2 s)

/-- `vlog2` (R146). -/
def execVlog2 (d a : Vr) (k : Kr) (f : Fmt) (s : State) : Host.Outcome State Fault Refusal :=
  run s (approxBody (.vlog2 d a k f) d a k f FV.log2 s)

/-- `vmov` (R145). -/
def execVmov (d a : Vr) (k : Kr) (f : BitVec 1) (s : State) : Host.Outcome State Fault Refusal :=
  run s (vecBody (.vmov d a k f) d a a k f.toNat f.toNat true [a] 0 (fun _ x _ _ => (x, 0)) s)

/-- `vnot` (R145). -/
def execVnot (d a : Vr) (k : Kr) (f : BitVec 1) (s : State) : Host.Outcome State Fault Refusal :=
  run s (vecBody (.vnot d a k f) d a a k f.toNat f.toNat true [a] 0 (fun _ x _ _ => (2 ^ placeBits f.toNat - 1 - x, 0)) s)

/-! ### Major 0x22 (R147, R148) -/

/-- `vand` (R147). -/
def execVand (d a b : Vr) (k : Kr) (s : State) : Host.Outcome State Fault Refusal :=
  run s (vecBody (.vand d a b k) d a b k 0 0 true [a, b] 0 (fun _ x y _ => (x &&& y, 0)) s)

/-- `vor` (R147). -/
def execVor (d a b : Vr) (k : Kr) (s : State) : Host.Outcome State Fault Refusal :=
  run s (vecBody (.vor d a b k) d a b k 0 0 true [a, b] 0 (fun _ x y _ => (x ||| y, 0)) s)

/-- `vxor` (R147). -/
def execVxor (d a b : Vr) (k : Kr) (s : State) : Host.Outcome State Fault Refusal :=
  run s (vecBody (.vxor d a b k) d a b k 0 0 true [a, b] 0 (fun _ x y _ => (x ^^^ y, 0)) s)

/-- The formats of the shifts (R147). -/
def isShift (f : Nat) : Bool := [11, 12, 13, 14, 30].contains f

/-- The elements of a shift: VB's lane gives the count in its low six bits, whatever the format's width (R147). -/
def shiftBody (i : Instr) (d a b : Vr) (k : Kr) (f : Fmt) (g : Nat → Nat → Nat → Nat) (s : State) : Except Exit State := do
  let n := f.toNat
  s.vecCheck i [d, a, b] n (isShift n) true [d]
  let va ← s.readV a
  let vb ← s.readV b
  let r := ((elemsOf n va).zip (lanes vb)).map fun (x, y) => laneForm n (g (fmtWidth n) x (y % 64))
  let t ← s.writeVec d n (s.me.getK k) r []
  .ok (t.retireV [a, b] 0 4)

/-- `vshl` (R147). -/
def execVshl (d a b : Vr) (k : Kr) (f : Fmt) (s : State) : Host.Outcome State Fault Refusal :=
  run s (shiftBody (.vshl d a b k f) d a b k f (fun w x c => if c < w then x * 2 ^ c % 2 ^ w else 0) s)

/-- `vshr` (R147). -/
def execVshr (d a b : Vr) (k : Kr) (f : Fmt) (s : State) : Host.Outcome State Fault Refusal :=
  run s (shiftBody (.vshr d a b k f) d a b k f (fun w x c => if c < w then x / 2 ^ c else 0) s)

/-- `vsar` (R147). -/
def execVsar (d a b : Vr) (k : Kr) (f : Fmt) (s : State) : Host.Outcome State Fault Refusal :=
  run s (shiftBody (.vsar d a b k f) d a b k f (fun w x c => ofS w (toS w x / 2 ^ c)) s)

/-- `vsel`: every lane is written (R147). -/
def execVsel (d a b : Vr) (k : Kr) (s : State) : Host.Outcome State Fault Refusal :=
  run s do
    s.vecCheck (.vsel d a b k) [d, a, b] 0 true true [d]
    let va ← s.readV a
    let vb ← s.readV b
    .ok ((s.onMe fun x => x.setV d (mergeElems 0 (x.getK k) vb (lanes va))).retireV [a, b] 0 4)

/-- `vbscale` of one lane (R148). -/
def bscaleElem (f mode r x y : Nat) : Nat × Flags :=
  let sc := y % 256
  let z := toS 8 (y / 256)
  if sc = 255 then (fp32.nanBits, 0)
  else if isInt f then roundElem 2 mode r ((ofInt (intOf f x - z)).scale (sc - 127), 0)
  else
    let v := elemValue f x
    roundElem 2 mode r (v.scale (sc - 127), sigFlag v ||| flagIf (z ≠ 0) flagFMT)

/-- `vbscale`: the result is FP32 (R148). -/
def execVbscale (d a b : Vr) (k : Kr) (f : Fmt) (s : State) : Host.Outcome State Fault Refusal :=
  run s do
    let n := f.toNat
    s.vecCheck (.vbscale d a b k f) [d, a, b] n (isArith n && n != 1) true [d]
    let va ← s.readV a
    let vb ← s.readV b
    let r := ((elemsOf n va).zip (lanes vb)).zipIdx.map fun (p, e) => bscaleElem n s.mode (s.drawOf s.mode e) p.1 p.2
    let t ← s.writeVec d 2 (s.me.getK k) (r.map (·.1)) (r.map (·.2))
    .ok (t.retireV [a, b] (drawsIn s.mode) 4)

/-! ### Major 0x23 (R149) -/

/-- A vector condition over the order of two values, none where one is a NaN (R72). -/
def vccHolds (cc : BitVec 3) (o : Option Ordering) : Bool :=
  match o with
  | none => cc == 1 || cc == 6
  | some o => match cc.toNat with
    | 0 => o == .eq
    | 1 => o != .eq
    | 2 => o == .lt
    | 3 => o != .gt
    | 4 => o == .gt
    | 5 => o != .lt
    | 6 => false
    | _ => true

/-- One element of `vcmp`: the condition, and NV for a signalling NaN. -/
def cmpElem (f : Nat) (cc : BitVec 3) (x y : Nat) : Bool × Flags :=
  if isFloat f then
    let a := elemValue f x
    let b := elemValue f y
    (vccHolds cc (a.cmp b), sigFlag a ||| sigFlag b)
  else (vccHolds cc (some (compare (intOf f x) (intOf f y))), 0)

/-- The mask bits of the elements' conditions: two alike for an FP64 element (R149). -/
def maskOf (f : Nat) (l : List Bool) : BitVec 256 :=
  BitVec.ofNat 256 (bitsNat (if f = 1 then l.flatMap fun b => [b, b] else l))

/-- `vcmp` (R149). -/
def execVcmp (kd : Kr) (a b : Vr) (k : Kr) (f : Fmt) (cc : BitVec 3) (s : State) : Host.Outcome State Fault Refusal :=
  run s do
    let n := f.toNat
    s.vecCheck (.vcmp kd a b k f cc) [a, b] n (isArith n) true []
    let va ← s.readV a
    let vb ← s.readV b
    let r := ((elemsOf n va).zip (elemsOf n vb)).map fun (x, y) => cmpElem n cc x y
    let fl := maskFlags n (s.me.getK k) (r.map (·.2))
    checkArith s.me fl
    let m := maskOf n (r.zipIdx.map fun (x, e) => x.1 && enabled n (s.me.getK k) e)
    .ok (((s.raiseMine fl).onMe (·.setK kd m)).retireV [a, b] 0 4)

/-! ### Major 0x31: extension D (R163) -/

/-- The body of an exactly rounded form: it runs on a D core only (R163). -/
def exactBody (i : Instr) (d a b : Vr) (k : Kr) (f : Fmt) (ok : Bool) (reads : List Vr) (g : FV → FV → FV × Flags) (s : State) :
    Except Exit State := do
  needD s
  let n := f.toNat
  let m := s.mode
  vecBody i d a b k n n ok reads (drawsIn m) (fun e x y _ => roundElem n m (s.drawOf m e) (g (elemValue n x) (elemValue n y))) s

/-- The formats of `vdiv` and `vsqrt` (R163). -/
def isExact (f : Nat) : Bool := decide (1 ≤ f) && decide (f ≤ 5)

/-- `vdiv` (R163). -/
def execVdiv (d a b : Vr) (k : Kr) (f : Fmt) (s : State) : Host.Outcome State Fault Refusal :=
  run s (exactBody (.vdiv d a b k f) d a b k f (isExact f.toNat) [a, b] FV.div s)

/-- `vsqrt` (R163). -/
def execVsqrt (d a : Vr) (k : Kr) (f : Fmt) (s : State) : Host.Outcome State Fault Refusal :=
  run s (exactBody (.vsqrt d a k f) d a a k f (isExact f.toNat) [a] (fun x _ => x.sqrt) s)

/-- `vexp` (R163). -/
def execVexp (d a : Vr) (k : Kr) (f : Fmt) (s : State) : Host.Outcome State Fault Refusal :=
  run s (exactBody (.vexp d a k f) d a a k f (f == 1 || f == 2) [a] (fun x _ => x.exp) s)

/-- `vlog` (R163). -/
def execVlog (d a : Vr) (k : Kr) (f : Fmt) (s : State) : Host.Outcome State Fault Refusal :=
  run s (exactBody (.vlog d a k f) d a a k f (f == 1 || f == 2) [a] (fun x _ => x.ln) s)

end Sys2Proof.Machine
end

