-- ==== Sys2Proof/Machine/VectorMove.lean ====
section
/-! DEFINITION. Vector conversion, packing, lane moves, reductions, permutes and masks (R150-R157). -/

namespace Sys2Proof.Machine

/-! ### Major 0x24: conversion (R150) -/

/-- A format `vcvt` converts from or to (R150). -/
def isCvt (f : Nat) : Bool := isLaneForm f || f == 1

/-- The converted elements of `vcvt`: with FP64 on either side, elements 0 to 127 (R150). -/
def cvtElems (src dst : Nat) (sat : Bool) (mode : Nat) (draw : Nat → Nat) (l : List Nat) : List (Nat × Flags) :=
  ((if dst = 1 then l.take 128 else l).zipIdx).map fun (x, e) => convCode src dst sat mode (draw e) x

/-- The mask of `vcvt`'s destination: from FP64, lanes 128 to 255 keep their value (R150); an FP64 destination's element i is enabled by mask bit
2i, as every FP64 result (DESIGN CHOICE, log 56). -/
def cvtMask (src dst : Nat) (k : BitVec 256) : BitVec 256 :=
  if src = 1 ∧ dst ≠ 1 then BitVec.ofNat 256 (bitsNat ((List.range 128).map fun i => k.getLsbD i))
  else k

/-- The body of the three conversions (R150); where both format codes are rejected TRAPVAL holds FMT, which is looked at first (DESIGN CHOICE,
log 103). -/
def cvtBody (i : Instr) (d a : Vr) (src : Fmt) (k : Kr) (f : Fmt) (sat : Bool) (mode : Nat) (s : State) : Except Exit State := do
  let n := f.toNat
  let m := src.toNat
  if m = 1 then needD s
  if n = 1 then needD s
  s.checkLease [d, a]
  need (isCvt n) (badFormat n)
  s.vecCheck i [] m (isCvt m) true [d]
  let va ← s.readV a
  let r := cvtElems m n sat mode (s.drawOf mode) (elemsOf m va)
  let t ← s.writeVec d n (cvtMask m n (s.me.getK k)) (r.map (laneForm n ·.1) ++ List.replicate (256 - r.length) 0)
    (r.map (·.2))
  .ok (t.retireV [a] (drawsIn mode) 4)

/-- `vcvt` (R150). -/
def execVcvt (d a : Vr) (src : Fmt) (k : Kr) (f : Fmt) (s : State) : Host.Outcome State Fault Refusal :=
  run s (cvtBody (.vcvt d a src k f) d a src k f false s.mode s)

/-- `vcvt.sat` (R150). -/
def execVcvtSat (d a : Vr) (src : Fmt) (k : Kr) (f : Fmt) (s : State) : Host.Outcome State Fault Refusal :=
  run s (cvtBody (.vcvtSat d a src k f) d a src k f true s.mode s)

/-- `vcvt.sr` (R150). -/
def execVcvtSr (d a : Vr) (src : Fmt) (k : Kr) (f : Fmt) (s : State) : Host.Outcome State Fault Refusal :=
  run s (cvtBody (.vcvtSr d a src k f) d a src k f false 5 s)

/-! ### Packing (R151, R152) -/

/-- The formats of `vpack` and `vunpack` (R151). -/
def isPack (f : Nat) : Bool := f == 0 || (decide (4 ≤ f) && decide (f ≤ 10)) || (decide (12 ≤ f) && decide (f ≤ 17)) || f == 30

/-- A part index of a packed register (R151). -/
def partOk (f j : Nat) : Bool := decide (j < 32 / fmtWidth f)

/-- `vpack` (R151). -/
def execVpack (d a : Vr) (j : BitVec 5) (k : Kr) (f : Fmt) (s : State) : Host.Outcome State Fault Refusal :=
  run s do
    let n := f.toNat
    s.vecCheck (.vpack d a j k f) [d, a] n (isPack n) (partOk n j.toNat) [d]
    let va ← s.readV a
    let w := fmtWidth n
    let old := cut w ((s.me.getV d).toNat / 2 ^ (256 * w * j.toNat)) 256
    let part := pieces w (((lanes va).zip old).zipIdx.map fun (p, e) => if (s.me.getK k).getLsbD e then p.1 % 2 ^ w else p.2)
    let m : BitVec 8192 := BitVec.ofNat 8192 ((2 ^ (256 * w) - 1) * 2 ^ (256 * w * j.toNat))
    let new : BitVec 8192 := s.me.getV d &&& ~~~m ||| BitVec.ofNat 8192 (part * 2 ^ (256 * w * j.toNat))
    .ok ((s.onMe (·.setV d new)).retireV [a] 0 4)

/-- `vunpack` (R151). -/
def execVunpack (d a : Vr) (j : BitVec 5) (k : Kr) (f : Fmt) (s : State) : Host.Outcome State Fault Refusal :=
  run s do
    let n := f.toNat
    s.vecCheck (.vunpack d a j k f) [d, a] n (isPack n) (partOk n j.toNat) [d]
    let va ← s.readV a
    let w := fmtWidth n
    let form (c : Nat) : Nat := if n = 0 then c else laneForm n c
    let t ← s.writeVec d 0 (s.me.getK k) ((cut w (va.toNat / 2 ^ (256 * w * j.toNat)) 256).map form) []
    .ok (t.retireV [a] 0 4)

/-- `vdecode`: the unscaled weights of 32 indices (R152). -/
def execVdecode (d a : Vr) (j : BitVec 3) (k : Kr) (f : Fmt) (s : State) : Host.Outcome State Fault Refusal :=
  run s do
    let n := f.toNat
    s.vecCheck (.vdecode d a j k f) [d, a] n (isFloat n && n != 1) true [d]
    let va ← s.readV a
    let r := (List.range 256).map fun e =>
      laneForm n (encodeFloat (floatOf n) (vq8Weight (lane va (32 * j.toNat + e / 8) % 2 ^ 16) (e % 8)))
    let t ← s.writeVec d n (s.me.getK k) r []
    .ok (t.retireV [a] 0 4)

/-! ### One element (R153) -/

/-- A Vec field that names a scalar register g0-g31 (R153). -/
def vecGpr (r : Vr) : Gpr := r.setWidth 6

/-- The element a lane register selects (R153). -/
def laneIndex (f : Nat) (v : Word) : Nat := if f = 1 then bits v 0 7 else bits v 0 8

/-- The mask that enables one element. -/
def oneElem (f e : Nat) : BitVec 256 := (1 : BitVec 256) <<< (if f = 1 then 2 * e else e)

/-- `vins` (R153). -/
def execVins (d a b : Vr) (f : Fmt) (s : State) : Host.Outcome State Fault Refusal :=
  run s do
    let n := f.toNat
    s.vecCheck (.vins d a b f) [d] n (isMove n) true [d]
    let v := laneForm n (s.g (vecGpr a)).toNat
    let m := oneElem n (laneIndex n (s.g (vecGpr b)))
    let t ← s.writeVec d n m (List.replicate 256 v) []
    .ok (t.retireV [] 0 4)

/-- `vext` (R153). -/
def execVext (d a b : Vr) (f : Fmt) (s : State) : Host.Outcome State Fault Refusal :=
  run s do
    let n := f.toNat
    s.vecCheck (.vext d a b f) [a] n (isMove n) true []
    let va ← s.readV a
    let c := ((elemsOf n va)[laneIndex n (s.g (vecGpr b))]?).getD 0
    let v : Word := if isSigned n then BitVec.ofInt 64 (toS (fmtWidth n) c) else BitVec.ofNat 64 c
    .ok ((s.setG (vecGpr d) v).retireV [a] 0 4)

/-! ### Reductions (R56, R154) -/

/-- One level of the tree (R56): neighbours at distance d are combined, an absent operand passes the other through; the notes of
each combination stand by the index of its right operand. -/
def treeLevel {α β : Type} (op : Nat → α → α → α × β) (d : Nat) : Nat → List (Option α) → List (Option α) × List (Nat × β)
  | i, x :: y :: r =>
    let (l, fl) := treeLevel op d (i + 2) r
    match x, y with
    | none, y => (y :: l, fl)
    | x, none => (x :: l, fl)
    | some x, some y => let c := op ((i + 1) * d) x y; (some c.1 :: l, ((i + 1) * d, c.2) :: fl)
  | _, l => (l, [])

/-- The pairwise tree of R56 over a list whose length is at most 2^n: its value, and the notes by index. `d` is the distance of
neighbours. -/
def treeFold {α β : Type} (op : Nat → α → α → α × β) : Nat → Nat → List (Option α) → Option α × List (Nat × β)
  | 0, _, l => ((l.head?).join, [])
  | n + 1, d, l =>
    let (l1, f1) := treeLevel op d 0 l
    let (v, f2) := treeFold op n (2 * d) l1
    (v, f1 ++ f2)

/-- The identity of a reduction (R154): 0 add, 1 max, 2 min. -/
def redIdentity (f kind : Nat) : Nat :=
  if isFloat f then
    match kind with
    | 0 => 0
    | 1 => encodeFloat (floatOf f) (.inf true)
    | _ => encodeFloat (floatOf f) (.inf false)
  else
    let rg := intRange ((intFmt f).getD (true, 32))
    match kind with
    | 0 => 0
    | 1 => wrapInt f rg.1
    | _ => wrapInt f rg.2

/-- The flags of a reduction by element index. -/
def indexFlags (l : List (Nat × Flags)) (n : Nat) : List Flags :=
  (List.range n).map fun i => orFlags ((l.filter (·.1 == i)).map (·.2))

/-- A lane that passed the tree alone in the form of a result: FP19 with its low bits zero, a NaN as the default NaN (R33, R34, R56,
DEDUCED, log 61). -/
def resultForm (f c : Nat) : Nat := if isFloat f then encodeFloat (floatOf f) (elemValue f c) else c

/-- The body of a reduction (R154). A lone active lane meets no Op, so that a signalling NaN there raises no flag (R34, R56, DESIGN CHOICE,
log 112). -/
def redBody (i : Instr) (d a : Vr) (k : Kr) (f : Fmt) (kind : Nat) (op : Nat → Nat → Nat → Nat × Flags) (s : State) :
    Except Exit State := do
  let n := f.toNat
  s.vecCheck i [d, a] n (isArith n) true [d]
  let va ← s.readV a
  let xs := (elemsOf n va).zipIdx.map fun (x, e) => if enabled n (s.me.getK k) e then some x else none
  let (v, fl) := treeFold op 8 1 xs
  let fl := indexFlags fl 256
  checkArith s.me fl
  let c := laneForm n (resultForm n (v.getD (redIdentity n kind)))
  let new (x : Task) : BitVec 8192 := mergeElems n (oneElem n 0) (x.getV d) (List.replicate 256 c)
  .ok (((s.raiseMine fl).onMe fun x => x.setV d (new x)).retireV [a] (if isFloat n then drawsIn s.mode else 0) 4)

/-- The addition of a reduction: each float addition rounds with the draw of its right index (R154). -/
def redAddOp (f mode : Nat) (draw : Nat → Nat) (e x y : Nat) : Nat × Flags :=
  if isFloat f then roundElem f mode (draw e) ((elemValue f x).add mode (elemValue f y)) else (wrapInt f (intOf f x + intOf f y), 0)

/-- `vred.add` (R154). -/
def execVredAdd (d a : Vr) (k : Kr) (f : Fmt) (s : State) : Host.Outcome State Fault Refusal :=
  run s (redBody (.vredAdd d a k f) d a k f 0 (redAddOp f.toNat s.mode (s.drawOf s.mode)) s)

/-- `vred.max` (R154). -/
def execVredMax (d a : Vr) (k : Kr) (f : Fmt) (s : State) : Host.Outcome State Fault Refusal :=
  run s (redBody (.vredMax d a k f) d a k f 1 (fun _ x y => pickCode true f.toNat x y) s)

/-- `vred.min` (R154). -/
def execVredMin (d a : Vr) (k : Kr) (f : Fmt) (s : State) : Host.Outcome State Fault Refusal :=
  run s (redBody (.vredMin d a k f) d a k f 2 (fun _ x y => pickCode false f.toNat x y) s)

/-! ### Permutes (R155, R156) -/

/-- The body of a raw permute: the new lanes from the lanes of VA (R155). -/
def permBody (i : Instr) (d a : Vr) (k : Kr) (regs reads : List Vr) (g : List Nat → State → Except Exit (List Nat)) (s : State) :
    Except Exit State := do
  s.vecCheck i regs 0 true true [d]
  let va ← s.readV a
  let l ← g (lanes va) s
  let t ← s.writeVec d 0 (s.me.getK k) l []
  .ok (t.retireV reads 0 4)

/-- `vperm` (R155). -/
def execVperm (d a b : Vr) (k : Kr) (s : State) : Host.Outcome State Fault Refusal :=
  run s (permBody (.vperm d a b k) d a k [d, a, b] [a, b] (fun l s => do
    let vb ← s.readV b
    .ok ((lanes vb).map fun x => (l[x % 256]?).getD 0)) s)

/-- `vbcast` (R155). -/
def execVbcast (d a : Vr) (k : Kr) (f : Fmt) (s : State) : Host.Outcome State Fault Refusal :=
  run s do
    let n := f.toNat
    s.vecCheck (.vbcast d a k f) [d] n (isMove n) true [d]
    let t ← s.writeVec d n (s.me.getK k) (List.replicate 256 (laneForm n (s.g (vecGpr a)).toNat)) []
    .ok (t.retireV [] 0 4)

/-- `vslide` (R155). -/
def execVslide (d a b : Vr) (k : Kr) (s : State) : Host.Outcome State Fault Refusal :=
  run s (permBody (.vslide d a b k) d a k [d, a] [a] (fun l s =>
    .ok ((List.range 256).map fun (i : Nat) =>
      let j : Int := (i : Int) + (s.g (vecGpr b)).toInt
      if 0 ≤ j ∧ j ≤ 255 then (l[j.toNat]?).getD 0 else 0)) s)

/-- The lanes of a list that a mask enables, in order. -/
def packed (k : BitVec 256) (l : List Nat) : List Nat := (l.zipIdx.filter fun (_, i) => k.getLsbD i).map (·.1)

/-- `vcompact`: every lane is written (R156). -/
def execVcompact (d a : Vr) (k : Kr) (s : State) : Host.Outcome State Fault Refusal :=
  run s do
    s.vecCheck (.vcompact d a k) [d, a] 0 true true [d]
    let va ← s.readV a
    .ok ((s.onMe fun x => x.setV d (BitVec.ofNat 8192 (pieces 32 (packed (x.getK k) (lanes va))))).retireV [a] 0 4)

/-- The lanes of `vexpand`: the next lane of the list at each enabled place. -/
def spread (k : BitVec 256) : Nat → Nat → List Nat → List Nat
  | 0, _, _ => []
  | n + 1, i, l => if k.getLsbD i then l.headD 0 :: spread k n (i + 1) (l.drop 1) else 0 :: spread k n (i + 1) l

/-- `vexpand` (R156). -/
def execVexpand (d a : Vr) (k : Kr) (s : State) : Host.Outcome State Fault Refusal :=
  run s (permBody (.vexpand d a k) d a k [d, a] [a] (fun l s => .ok (spread (s.me.getK k) 256 0 l)) s)

/-! ### Major 0x26: masks (R157) -/

/-- `vpopk` (R157). -/
def execVpopk (d : Vr) (ka : Kr) (s : State) : Host.Outcome State Fault Refusal :=
  .next ((s.setG (vecGpr d) (BitVec.ofNat 64 (((List.range 256).filter fun i => (s.me.getK ka).getLsbD i).length))).retire 4)

/-- The end of a mask instruction (R157). -/
def State.endMask (s : State) (kd : Kr) (v : BitVec 256) : Host.Outcome State Fault Refusal := .next ((s.onMe (·.setK kd v)).retire 4)

/-- `kand` (R157). -/
def execKand (kd ka kb : Kr) (s : State) : Host.Outcome State Fault Refusal := s.endMask kd (s.me.getK ka &&& s.me.getK kb)

/-- `kor` (R157). -/
def execKor (kd ka kb : Kr) (s : State) : Host.Outcome State Fault Refusal := s.endMask kd (s.me.getK ka ||| s.me.getK kb)

/-- `kxor` (R157). -/
def execKxor (kd ka kb : Kr) (s : State) : Host.Outcome State Fault Refusal := s.endMask kd (s.me.getK ka ^^^ s.me.getK kb)

/-- `knot` (R157). -/
def execKnot (kd ka : Kr) (s : State) : Host.Outcome State Fault Refusal := s.endMask kd (~~~(s.me.getK ka))

/-- `kmov` (R157). -/
def execKmov (kd ka : Kr) (s : State) : Host.Outcome State Fault Refusal := s.endMask kd (s.me.getK ka)

end Sys2Proof.Machine
end

