-- ==== Sys2Proof/Machine/Routines.lean ====
section
/-! DEFINITION. Routines: images and their checks, the routine store, one application, and `rbind`, `hstat`, `fold`, `scan` and
`zip` on the copy engine's routine unit (R186-R196, R198-R201). -/

namespace Sys2Proof.Machine

/-! ### Routine words (R188, R189) -/

/-- Whether a word is a routine word (R188, R189). -/
def rWordOk (w : Half32) : Bool :=
  let op := bits w 26 6
  let eb := bits w 14 4
  let t := bits w 5 3
  bits w 0 5 == 0 && decide (1 ≤ op) && decide (op ≤ 0x16) && decide (t ≤ 2) &&
    (w.getLsbD 9 || (bits w 10 4 == 0 && !w.getLsbD 8)) &&
    (!([9, 10, 11, 15].contains op) || t == 0) && (!([12, 13, 14].contains op) || t != 0) &&
    (!([7, 8, 15].contains op) || eb == 0) && (op != 0x16 || decide (eb < 3))

/-- The value of an e register under a type: 0 FP32, 1 S32, 2 N32 (R186, R188). -/
def tyValue (t x : Nat) : FV :=
  match t with
  | 0 => elemValue 2 x
  | 1 => ofInt (toS 32 x)
  | _ => ofInt ((x % 2 ^ 32 : Nat) : Int)

/-- The integer of an e register under a type. -/
def tyInt (t x : Nat) : Int := if t = 1 then toS 32 x else ((x % 2 ^ 32 : Nat) : Int)

/-- A value that is no integer element converted into a type, plain form (R53, R54). -/
def toTy (t mode r : Nat) (x : FV) : Nat × Flags :=
  match t with
  | 0 => let y := roundBits fp32 false mode r x; (y.1, y.2 ||| sigFlag x)
  | 1 => let y := roundInt (intRange (true, 32)) false mode r x; (ofS 32 y.1, y.2)
  | _ => let y := roundInt (0, 2 ^ 32 - 1) false mode r x; (ofS 32 y.1, y.2)

/-- The four float operations of a routine word, by OP. -/
def rFloat (op mode : Nat) (a b d : FV) : FV × Flags :=
  match op with
  | 1 => a.add mode b
  | 2 => a.add mode b.negate
  | 3 => a.mul b
  | _ => FV.addTo mode (a.mul b) d

/-- Their integer forms. -/
def rInt (op : Nat) (a b d : Int) : Int :=
  match op with
  | 1 => a + b
  | 2 => a - b
  | 3 => a * b
  | _ => a * b + d

/-- The result of a routine operation and its flags (R189): `a`, `b`, `d` are EA, EB and ED, `eb` the field. -/
def rOp (op t mode draw a b d eb : Nat) : Nat × Flags :=
  if op ≤ 4 then
    if t = 0 then roundElem 2 mode draw (rFloat op mode (elemValue 2 a) (elemValue 2 b) (elemValue 2 d))
    else (ofS 32 (rInt op (tyInt t a) (tyInt t b) (tyInt t d)), 0)
  else if op ≤ 6 then
    if t = 0 then pickCode (op == 6) 2 a b
    else (if (if op = 6 then decide (tyInt t b < tyInt t a) else decide (tyInt t a < tyInt t b)) then a else b, 0)
  else match op with
    | 7 => if t = 0 then (encodeFloat fp32 (elemValue 2 a).abs, sigFlag (elemValue 2 a)) else (ofS 32 (tyInt t a).natAbs, 0)
    | 8 => if t = 0 then (encodeFloat fp32 (elemValue 2 a).negate, sigFlag (elemValue 2 a)) else (ofS 32 (-(tyInt t a)), 0)
    | 9 => (a &&& b, 0)
    | 10 => (a ||| b, 0)
    | 11 => (a ^^^ b, 0)
    | 12 => (a * 2 ^ (b % 32) % 2 ^ 32, 0)
    | 13 => (a / 2 ^ (b % 32), 0)
    | 14 => (ofS 32 (toS 32 a / 2 ^ (b % 32)), 0)
    | 15 => (a, 0)
    | 0x16 => if t ≠ 0 ∧ eb % 4 ≠ 0 then (a, 0) else toTy t mode draw (tyValue (eb % 4) a)
    | n =>
      let cc : BitVec 3 := BitVec.ofNat 3 (n - 16)
      if t = 0 then
        let c := cmpElem 2 cc a b
        (if c.1 then 1 else 0, c.2)
      else (if vccHolds cc (some (compare (tyInt t a) (tyInt t b))) then 1 else 0, 0)

/-- One word over the sixteen registers: skipped by its predicate, else its result goes to ED (R188). -/
def rStep (mode draw : Nat) (w : Half32) (e : List Nat) : List Nat × Flags :=
  let reg (n : Nat) : Nat := (e[n]?).getD 0
  if w.getLsbD 9 && !((reg (bits w 10 4) != 0) != w.getLsbD 8) then (e, 0)
  else
    let r := rOp (bits w 26 6) (bits w 5 3) mode draw (reg (bits w 18 4)) (reg (bits w 14 4)) (reg (bits w 22 4)) (bits w 14 4)
    (lset e (bits w 22 4) (r.1 % 2 ^ 32), r.2)

/-- The flags an application raises, each with its routine PC. -/
abbrev Notes := List (Nat × Flags)

/-- The words from a routine PC on (R187, R199): `draw` gives the draw bits of a PC. -/
def rWords (mode : Nat) (draw : Nat → Nat) : Nat → List Half32 → List Nat → List Nat × Notes
  | _, [], e => (e, [])
  | p, w :: r, e =>
    let x := rStep mode (draw p) w e
    let y := rWords mode draw (p + 1) r x.1
    (y.1, if x.2 = 0 then y.2 else (p, x.2) :: y.2)

/-- One application (R187): e0 to e7 given, e8 to e15 from the image; the result is e0, and e1 when W = 1. -/
def Routine.apply (r : Routine) (mode : Nat) (draw : Nat → Nat) (e : List Nat) : (Nat × Nat) × Notes :=
  let x := rWords mode draw 0 r.words (e ++ r.init.map (·.toNat))
  (((x.1[0]?).getD 0, if r.w then (x.1[1]?).getD 0 else 0), x.2)

/-! ### Images and the routine store (R186, R190-R193) -/

/-- A routine image from its words (R186). -/
def imageOf (addr : Nat) (ws : List Half32) : Routine :=
  let h := ws.headD 0
  { addr := addr, assoc := h.getLsbD 15, comm := h.getLsbD 14, w := h.getLsbD 13, ty := h.extractLsb' 11 2,
    idlo := (ws[1]?).getD 0, idhi := (ws[2]?).getD 0, init := (ws.drop 3).take 8, words := ws.drop 16 }

/-- The byte offset of the first bad word among the header and words 11 to 15 (R190). -/
def badHeader (ws : List Half32) : Option Nat :=
  let h := ws.headD 0
  if bits h 16 16 ≠ 0x7C3A ∨ bits h 5 6 ≠ 0 then some 0
  else ([11, 12, 13, 14, 15].find? fun k => (ws[k]?).getD 0 != 0).map (4 * ·)

/-- The 32-bit words of bytes. -/
def wordsOf (bs : List Byte) : List Half32 := (cut 32 (leNat bs) (bs.length / 4)).map (BitVec.ofNat 32)

/-- The checks of an image (R190): the header, then every routine word. -/
def checkImage (ws : List Half32) : Except Exit Unit := do
  match badHeader ws with
  | some o => .error (.trap 1 0 (zx (ws.headD 0)) (some (BitVec.ofNat 64 o)))
  | none => .ok ()
  match findIdxFrom (fun w => !rWordOk w) (ws.drop 16) 0 with
  | some (p, w) => .error (.trap 1 0 (zx w) (some (BitVec.ofNat 64 (64 + 4 * p))))
  | none => .ok ()

/-- An image read with the task's global loads and checked (R190). -/
def State.loadRoutine (s : State) (va : Nat) : Except Exit (Routine × State) := do
  let (hd, s) ← s.readGlobal va 4
  let len := bits ((wordsOf hd).headD 0) 0 5 + 1
  let (rest, s) ← s.readGlobal (va + 4) (60 + 4 * len)
  let ws := wordsOf (hd ++ rest)
  checkImage ws
  .ok (imageOf va ws, s)

/-- The image of an address in a core's store. -/
def Core.routineAt (c : Core) (va : Nat) : Option Routine := c.routines.find? (·.addr == va)

/-- The images that running commands use (R191). -/
def Core.routinesInUse (c : Core) : List Nat :=
  (c.rcmd.map (·.routine.addr)).toList ++ c.mx.queue.filterMap fun m => m.routine.map (·.addr)

/-- An image moved or put to the front of the store; a ninth one evicts the least recently used that no command uses (R191). -/
def Core.install (c : Core) (r : Routine) : Core :=
  let l := c.routines.filter (·.addr != r.addr)
  let l := if l.length < 8 then l
    else match (l.reverse.find? fun x => !c.routinesInUse.contains x.addr) with
      | some x => l.filter (·.addr != x.addr)
      | none => l
  { c with routines := r :: l }

/-- A valid handle (R192). -/
def handleOk (h : Word) : Bool := h.getLsbD 63 && bits h 56 7 == 0 && bits h 0 6 == 0

/-- The routine of a handle: resident, or loaded and checked again (R191, R192). -/
def State.useRoutine (s : State) (i : Instr) (h : Word) : Except Exit (Routine × State) := do
  need (handleOk h) (.trap 1 0 h (some (wordOf i)))
  match (s.core s.myCore).routineAt (va56 h) with
  | some r => .ok (r, s.modCore s.myCore (·.install r))
  | none => do
    let (r, s) ← s.loadRoutine (va56 h)
    .ok (r, s.modCore s.myCore (·.install r))

/-- `rbind` (R190). -/
def execRbind (d a : Gpr) (s : State) : Host.Outcome State Fault Refusal :=
  run s do
    let va := s.g a
    need (bits va 0 6 == 0) (misalign va)
    let (r, s) ← s.loadRoutine (va56 va)
    .ok (((s.modCore s.myCore (·.install r)).setG d (BitVec.ofNat 64 (2 ^ 63 + va56 va))).retire 4)

/-- The report on a handle (R193). -/
def Core.hstat (c : Core) (va : Nat) : Nat :=
  let b (x : Bool) (n : Nat) : Nat := if x then 2 ^ n else 0
  let outer := match (c.mx.queue.head?).map (·.instr) with
    | some (.outer _ _ _) => true
    | _ => false
  (match c.routineAt va with
   | some r => 2 ^ 63 + b r.assoc 62 + b r.comm 61 + b r.w 60 + r.ty.toNat * 2 ^ 58 + (r.words.length - 1) * 2 ^ 53
   | none => 0) + b c.rcmd.isSome 5 + b outer 4 + c.routines.length

/-- `hstat` (R193). -/
def execHstat (d a : Gpr) (s : State) : Host.Outcome State Fault Refusal :=
  .next ((s.setG d (BitVec.ofNat 64 ((s.core s.myCore).hstat (va56 (s.g a))))).retire 4)

/-! ### Operands of fold, scan and zip (R194, R195, R196) -/

/-- How elements stand in memory: 4 bytes as they are, 8 raw bytes, or a format with its block-length log. -/
inductive ElemKind where
  | word
  | pair
  | code (f k : Nat)
  deriving DecidableEq, Repr

/-- The kind of a source (R195). -/
def sourceKind (s : State) (r : Routine) (idx : Bool) (ptr : Word) : Except Exit ElemKind := do
  tagNeedsD s ptr
  checkTag ptr false
  let tag0 := bits ptr 56 8 == 0
  need ((!idx || (r.w && r.ty != 3)) && (!r.w || idx || tag0) && (tag0 || r.ty != 3)) (.trap 5 0 ptr none)
  .ok (if tag0 then (if r.w && !idx then .pair else .word) else .code (tagFmt ptr) (tagBlog ptr))

/-- The kind of a destination (R196). -/
def destKind (s : State) (r : Routine) (ptr : Word) : Except Exit ElemKind := do
  tagNeedsD s ptr
  checkTag ptr false
  let tag0 := bits ptr 56 8 == 0
  need ((!r.w || tag0) && !isBlock (tagFmt ptr) && (tag0 || r.ty != 3)) (.trap 5 0 ptr none)
  .ok (if tag0 then (if r.w then .pair else .word) else .code (tagFmt ptr) 0)

/-- The bytes of n elements. -/
def ElemKind.span (k : ElemKind) (n : Nat) : Nat :=
  match k with
  | .word => 4 * n
  | .pair => 8 * n
  | .code f b => spanBytes f b n

/-- The alignment of elements (R40, R158). -/
def ElemKind.aligned (k : ElemKind) (a : Nat) : Bool :=
  match k with
  | .word => a % 4 == 0
  | .pair => a % 8 == 0
  | .code f _ => elemAligned f a

/-- The accesses of n elements. -/
def ElemKind.elems (k : ElemKind) (l : Loc) (n : Nat) : List ElemAcc :=
  match k with
  | .word => (List.range n).map fun i => ⟨i, l.plus (4 * i), [(l.plus (4 * i), 4)]⟩
  | .pair => (List.range n).map fun i => ⟨i, l.plus (8 * i), [(l.plus (8 * i), 8)]⟩
  | .code f b => arrayElems l f b (fun _ => true) n

/-- A space field of a higher-order instruction: a global or a local place (R194). -/
def State.hoPlace (s : State) (sp : BitVec 2) (ptr : Word) : Loc :=
  if sp = 1 then .bank s.myCore (va56 ptr) else .glob (spaceOf (s.asid s.me.job) (va56 ptr)) (va56 ptr)

/-- A region checked: alignment where there is an element, element 0 being the lowest (R158, R199), then roles, pages, watermarks and carried checks of every element (R195). -/
def State.hoRegion (s : State) (sp : BitVec 2) (ptr : Word) (k : ElemKind) (n : Nat) (acc : Access) : Except Exit Loc := do
  let l := s.hoPlace sp ptr
  need (n == 0 || k.aligned l.addr) (.trap 2 0 (BitVec.ofNat 64 l.addr) (some 0))
  s.checkElems false acc (k.elems l n)
  .ok l

/-- What a command runs on: its routine, count, sources and destination. -/
structure HoPlan where
  r : Routine
  n : Nat
  idx : Bool
  srcs : List (Loc × ElemKind)
  dst : Option (Loc × ElemKind)
  deriving DecidableEq, Repr

/-- The fields of the three instructions: SA, SD, IDX, the block register, the limit on B, and which operands there are. -/
structure HoForm where
  sa : BitVec 2
  sd : BitVec 2
  idx : Bool
  b : Gpr
  limit : Nat
  zip : Bool
  dest : Bool
  deriving DecidableEq, Repr

/-- The checks of a command with its routine (R194-R196). -/
def State.hoPlanWith (s : State) (i : Instr) (h : HoForm) (r : Routine) : Except Exit HoPlan := do
  let ctl := s.g (gprPlus h.b 2)
  let n := bits ctl 0 15
  need (bits ctl 15 49 == 0 && decide (n ≤ if r.w || h.idx then 8192 else 16384)) (illegalInfo i ctl)
  let p1 := s.g (gprPlus h.b 1)
  let p2 := s.g (gprPlus h.b 4)
  let pd := s.g (gprPlus h.b 3)
  let k1 ← sourceKind s r h.idx p1
  let k2 ← if h.zip then sourceKind s r h.idx p2 else .ok .word
  let kd ← if h.dest then destKind s r pd else .ok .word
  let l1 ← s.hoRegion h.sa p1 k1 n accLoad
  let l2 ← if h.zip then s.hoRegion h.sa p2 k2 n accLoad else .ok l1
  let ld ← if h.dest then s.hoRegion h.sd pd kd n accStore else .ok l1
  .ok ⟨r, n, h.idx, (l1, k1) :: (if h.zip then [(l2, k2)] else []), if h.dest then some (ld, kd) else none⟩

/-- An FP64 tag among the pointers that the operand block holds migrates the task before every other check (R74 step 3, R195). -/
def State.hoTags (s : State) (h : HoForm) : Except Exit Unit :=
  (1 :: (if h.dest then [3] else []) ++ if h.zip then [4] else []).foldlM (fun _ k =>
    if h.b.toNat + k ≤ 63 then tagNeedsD s (s.g (gprPlus h.b k)) else .ok ()) ()

/-- The checks of a command at issue (R192, R194-R196). -/
def State.hoPlan (s : State) (i : Instr) (h : HoForm) : Except Exit (HoPlan × State) := do
  s.hoTags h
  need (decide (h.b.toNat ≤ h.limit)) (illegal i)
  let (r, s) ← s.useRoutine i (s.g h.b)
  let p ← s.hoPlanWith i h r
  .ok (p, s)

/-! ### Elements into and out of the routine's type (R195, R196, R199) -/

/-- An element with the flags of its decoding. -/
abbrev HoElem := (Nat × Nat) × Flags

/-- The draw of the conversions around a routine: position LEN (R199). -/
def State.hoDraw (s : State) (p e : Nat) : Nat := if s.mode = 5 then s.me.rnd.draw p e else 0

/-- Element i of a source's bytes (R195). -/
def hoElem (s : State) (r : Routine) (idx : Bool) (k : ElemKind) (data i : Nat) : HoElem :=
  let hi := if idx then i else 0
  match k with
  | .word => ((packedCode 32 data i, hi), 0)
  | .pair => ((packedCode 32 data (2 * i), packedCode 32 data (2 * i + 1)), 0)
  | .code f b =>
    let t := r.ty.toNat
    if isInt f && t != 0 then ((ofS 32 (intOf f (packedCode (fmtWidth f) data i)), hi), 0)
    else
      let v := memElem f b data i
      let y := toTy t s.mode (s.hoDraw r.words.length i) v.1
      ((y.1, hi), y.2 ||| v.2)

/-- The elements of a source, read word by word (R200). -/
def State.hoRead (s : State) (r : Routine) (idx : Bool) (n : Nat) (src : Loc × ElemKind) : List HoElem × State :=
  let (data, t) := s.readRuns src.1 (wordRuns (fun _ => true) src.1.addr (src.2.span n))
  ((List.range n).map (hoElem s r idx src.2 data), t)

/-- An output as its destination's code, with the flags of encoding it (R196). -/
def hoOut (s : State) (r : Routine) (f i : Nat) (v : Nat) : Nat × Flags :=
  let t := r.ty.toNat
  if isInt f && t != 0 then encodeInt f false (tyInt t v)
  else convValue f false s.mode (s.hoDraw r.words.length i) (tyValue t v, 0)

/-- The bytes of the outputs, the bits they take, and the flags of each. -/
def hoBytes (s : State) (r : Routine) (k : ElemKind) (outs : List (Nat × Nat)) : Nat × Nat × List Flags :=
  match k with
  | .word => (pieces 32 (outs.map (·.1)), 2 ^ (32 * outs.length) - 1, [])
  | .pair => (pieces 64 (outs.map fun o => o.1 + 2 ^ 32 * o.2), 2 ^ (64 * outs.length) - 1, [])
  | .code f _ =>
    let l := outs.zipIdx.map fun (o, i) => hoOut s r f i o.1
    (pieces (fmtWidth f) (l.map (·.1)), 2 ^ (fmtWidth f * outs.length) - 1, l.map (·.2))

/-- A result as a scalar register holds it (R196). -/
def hoScalar (r : Routine) (v : Nat × Nat) : Word :=
  if r.w then BitVec.ofNat 64 (v.1 + 2 ^ 32 * v.2)
  else if r.ty = 1 then BitVec.ofInt 64 (toS 32 v.1) else BitVec.ofNat 64 (v.1 % 2 ^ 32)

/-! ### The three computations (R58, R196, R199) -/

/-- An application at an element index (R187, R199). -/
def State.hoApply (s : State) (r : Routine) (e : Nat) (x y : Nat × Nat) : (Nat × Nat) × Notes :=
  r.apply s.mode (fun p => s.hoDraw p e) [x.1, x.2, y.1, y.2, e % 2 ^ 32, 0, 0, 0]

/-- The identity of a routine. -/
def Routine.identity (r : Routine) : Nat × Nat := (r.idlo.toNat, if r.w then r.idhi.toNat else 0)

/-- The notes of an element's index. -/
abbrev Tagged := List (Nat × Notes)

/-- Strict combination in index order, every prefix in turn (R58, ASSOC = 0). -/
def foldStrict (op : Nat → Nat × Nat → Nat × Nat → (Nat × Nat) × Notes) :
    Nat → Nat × Nat → List (Nat × Nat) → List (Nat × Nat) × Tagged
  | _, _, [] => ([], [])
  | i, acc, x :: r =>
    let y := op i acc x
    let z := foldStrict op (i + 1) y.1 r
    (y.1 :: z.1, (i, y.2) :: z.2)

/-- The complete pairs of one level of blocks. -/
def pairLevel (op : Nat → Nat × Nat → Nat × Nat → (Nat × Nat) × Notes) (d : Nat) :
    Nat → List (Nat × Nat) → List (Nat × Nat) × Tagged
  | i, x :: y :: r =>
    let z := pairLevel op d (i + 2) r
    let c := op ((i + 1) * d) x y
    (c.1 :: z.1, ((i + 1) * d, c.2) :: z.2)
  | _, _ => ([], [])

/-- The levels of aligned power-of-two blocks, level 0 the elements (R58). -/
def scanLevels (op : Nat → Nat × Nat → Nat × Nat → (Nat × Nat) × Notes) :
    Nat → Nat → List (Nat × Nat) → List (Array (Nat × Nat)) × Tagged
  | 0, _, l => ([l.toArray], [])
  | n + 1, d, l =>
    let x := pairLevel op d 0 l
    let y := scanLevels op n (2 * d) x.1
    (l.toArray :: y.1, x.2 ++ y.2)

/-- The combination of the first m elements by the digits of m, highest first: `j` the next digit, `pos` the elements covered. -/
def prefixOf (op : Nat → Nat × Nat → Nat × Nat → (Nat × Nat) × Notes) (lv : List (Array (Nat × Nat))) (m : Nat) :
    Nat → Nat → Option (Nat × Nat) → Option (Nat × Nat) × Tagged
  | 0, _, acc => (acc, [])
  | j + 1, pos, acc =>
    if natBit m j then
      let blk := (lv[j]?).bind fun a => a[pos / 2 ^ j]?
      match acc, blk with
      | none, b => prefixOf op lv m j (pos + 2 ^ j) b
      | some a, some b =>
        let y := op pos a b
        let z := prefixOf op lv m j (pos + 2 ^ j) (some y.1)
        (z.1, (pos, y.2) :: z.2)
      | a, none => (a, [])
    else prefixOf op lv m j pos acc

/-- Every prefix of the elements (R58). -/
def scanAll (op : Nat → Nat × Nat → Nat × Nat → (Nat × Nat) × Notes) (r : Routine) (xs : List (Nat × Nat)) :
    List (Nat × Nat) × Tagged :=
  if r.assoc then
    let lv := scanLevels op 14 1 xs
    let ps := (List.range xs.length).map fun i => prefixOf op lv.1 (i + 1) 15 0 none
    (ps.map fun p => p.1.getD (0, 0), lv.2 ++ (ps.map (·.2)).flatten)
  else foldStrict op 0 r.identity xs

/-- The combination of all elements (R58). -/
def foldAll (op : Nat → Nat × Nat → Nat × Nat → (Nat × Nat) × Notes) (r : Routine) (xs : List (Nat × Nat)) :
    (Nat × Nat) × Tagged :=
  if r.assoc then
    let t := treeFold op 14 1 (xs.map some)
    (t.1.getD r.identity, t.2)
  else
    let t := foldStrict op 0 r.identity xs
    (t.1.getLastD r.identity, t.2)

/-- The element index of element i's first application, to which its decoding flags are charged (R199): `n` the count. For a
`scan` with ASSOC = 1 that of an even element is at i + 1; an element without an application is charged at its own index, routine PC 0 (DESIGN
CHOICE, log 120). -/
def firstUse (zip assoc scan : Bool) (n i : Nat) : Nat :=
  if zip || !assoc then i
  else if scan then (if i % 2 = 0 ∧ i + 1 < n then i + 1 else i)
  else
    match (List.range 14).find? fun j => i % 2 ^ (j + 1) == 2 ^ j || (i % 2 ^ (j + 1) == 0 && decide (i + 2 ^ j < n)) with
    | some j => if i % 2 ^ (j + 1) = 2 ^ j then i else i + 2 ^ j
    | none => i

/-- What a command computes: its scalar result, its outputs and its notes. -/
structure HoResult where
  scalar : Word
  outs : List (Nat × Nat)
  notes : Tagged
  deriving DecidableEq, Repr

/-- The computation of a command on its decoded sources (R196). -/
def State.hoCompute (s : State) (h : HoForm) (r : Routine) (xs ys : List (Nat × Nat)) : HoResult :=
  let op := s.hoApply r
  if h.zip then
    let l := (xs.zip ys).zipIdx.map fun (p, i) => (i, op i p.1 p.2)
    ⟨0, l.map (·.2.1), l.map fun x => (x.1, x.2.2)⟩
  else if h.dest then
    let t := scanAll op r xs
    ⟨hoScalar r (t.1.getLastD r.identity), t.1, t.2⟩
  else
    let t := foldAll op r xs
    ⟨hoScalar r t.1, [], t.2⟩

/-! ### Issue and completion (R198-R201) -/

/-- POS moves on by the draws of a command. -/
def State.drawn (s : State) (n : Nat) : State := s.onMe fun x => { x with pos := x.pos + BitVec.ofNat 52 n }

/-- The flags charged to elements at routine PC 0. -/
def chargeFlags (use : Nat → Nat) (l : List Flags) : Tagged := (l.zipIdx.filter (·.1 != 0)).map fun (f, i) => (use i, [(0, f)])

/-- The lowest element with a flag that meets FTRAPEN, and its lowest routine PC (R199). -/
def firstNote (en : Flags) (l : Tagged) : Nat × Nat :=
  let hits := l.flatMap fun e => (e.2.filter fun n => n.2 &&& en != 0).map fun n => (e.1, n.1)
  hits.foldl (fun (b : Nat × Nat) x => if x.1 < b.1 ∨ (x.1 = b.1 ∧ x.2 < b.2) then x else b) (hits.headD (0, 0))

/-- The outputs of the task in focus have landed: its command is over and the instruction retires, into Held where a hold came meanwhile
(R201). -/
def State.hoLanded (s : State) : State :=
  if !s.allArrived s.focus then s
  else ((s.modCore s.myCore fun c => { c with rcmd := none }).onMe fun x => { x with
    engaged := false, life := if x.holdReq || x.holdDbg || x.holdSys then .held none else x.life }).retire 4

/-- The effect of a command (R196, R199, R200): reads, applications, writes, the scalar result; then its outputs land. -/
def hoFinish (d : Option Gpr) (h : HoForm) (p : HoPlan) (s : State) : Except Exit State := do
  let (xs, s1) := match p.srcs with
    | x :: _ => s.hoRead p.r p.idx p.n x
    | [] => ([], s)
  let (ys, s2) := match p.srcs with
    | _ :: y :: _ => s1.hoRead p.r p.idx p.n y
    | _ => ([], s1)
  let c := s2.hoCompute h p.r (xs.map (·.1)) (ys.map (·.1))
  let out := p.dst.map fun q => (q.1, hoBytes s2 p.r q.2 c.outs, q.2.span p.n)
  let use := firstUse h.zip p.r.assoc h.dest p.n
  let notes := c.notes ++ chargeFlags use (xs.map (·.2)) ++ chargeFlags use (ys.map (·.2)) ++
    chargeFlags use (out.elim [] (·.2.1.2.2))
  let raised := orFlags (notes.flatMap fun e => e.2.map (·.2))
  let low := firstNote s.me.ftrapen notes
  need (raised &&& s.me.ftrapen == 0) (.routine raised low.1 low.2)
  let draws := if s.mode = 5 then p.r.words.length + 1 else 0
  let fin (t : State) : Except Exit State :=
    let t := t.raise t.focus raised
    let t := match d with
      | some g => t.setG g c.scalar
      | none => t
    .ok ((t.drawn draws).modCore t.myCore fun k => { k with rcmd := k.rcmd.map fun q => { q with landing := true } }).hoLanded
  match out with
  | none => fin s2
  | some (l, b, size) => s2.issueWrites l (maskedWrites l size b.1 b.2.1) none (s2.routeOf l) (vectorCost size) fin

/-- A command at issue: it stalls while the unit is busy or an older task waits for it, else it holds its task until it completes (R198,
R201). -/
def hoIssue (i : Instr) (h : HoForm) (s : State) : Except Exit State := do
  let (p, t) ← s.hoPlan i h
  need ((s.core s.myCore).rcmd.isNone && s.mayClaim .routineUnit) (.stallFor .routineUnit)
  .ok ((t.modCore t.myCore fun c => { c with rcmd := some ⟨t.focus, i, p.r, false⟩ }).onMe fun x => { x with engaged := true })

/-- The form of `fold`. -/
def foldForm (x : BitVec 1) (sa : BitVec 2) (b : Gpr) : HoForm := ⟨sa, 0, x == 1, b, 61, false, false⟩

/-- The form of `scan`. -/
def scanForm (x : BitVec 1) (sd sa : BitVec 2) (b : Gpr) : HoForm := ⟨sa, sd, x == 1, b, 60, false, true⟩

/-- The form of `zip`. -/
def zipForm (sd sa : BitVec 2) (b : Gpr) : HoForm := ⟨sa, sd, false, b, 59, true, true⟩

/-- `fold` (R194-R196). -/
def execFold (d : Gpr) (x : BitVec 1) (a : BitVec 2) (b : Gpr) (s : State) : Host.Outcome State Fault Refusal :=
  run s (hoIssue (.fold d x a b) (foldForm x a b) s)

/-- `scan` (R194-R196). -/
def execScan (d : Gpr) (x : BitVec 1) (e a : BitVec 2) (b : Gpr) (s : State) : Host.Outcome State Fault Refusal :=
  run s (hoIssue (.scan d x e a b) (scanForm x e a b) s)

/-- `zip` (R194-R196). -/
def execZip (e a : BitVec 2) (b : Gpr) (s : State) : Host.Outcome State Fault Refusal :=
  run s (hoIssue (.zip e a b) (zipForm e a b) s)

/-- The destination register and the form of a command's instruction. -/
def hoOf : Instr → Option (Option Gpr × HoForm)
  | .fold d x a b => some (some d, foldForm x a b)
  | .scan d x e a b => some (some d, scanForm x e a b)
  | .zip e a b => some (none, zipForm e a b)
  | _ => none

/-- The command of a core's routine unit completes for its task, the task being in focus (R198, R201). -/
def hoComplete (q : RoutineCmd) (s : State) : State :=
  if q.landing then s.hoLanded
  else match hoOf q.instr with
  | none => s
  | some (d, h) =>
    match (do
        let p ← s.hoPlanWith q.instr h q.routine
        hoFinish d h p s) with
    | .ok t => t
    | .error e => (s.onMe fun x => { x with engaged := false }).takeExit e

/-- ROUTINE_COMMAND_COMPLETE (R198, R201): the command runs and its outputs begin to land, or all of them have landed; the unit is free again
once its task is no longer held. -/
def execRoutineCommandComplete (core : Nat) (s : State) : Host.Outcome State Fault Refusal :=
  match (s.core core).rcmd with
  | none => .next s
  | some q =>
    let t := { hoComplete q { s with focus := q.slot } with focus := s.focus }
    .next (if (t.task q.slot).engaged then t else t.modCore core fun c => { c with rcmd := none })

end Sys2Proof.Machine
end

