-- ==== Sys2Proof/Machine/Matrix.lean ====
section
/-! DEFINITION. The matrix engine at issue: ownership, the checks of each command against the submitted state, acceptance into the
queue, and `mstat` (R165-R182, R197). -/

namespace Sys2Proof.Machine

/-! ### The engine and its queue (R165-R167) -/

/-- The matrix engine of a core changed. -/
def State.modMx (s : State) (core : Nat) (f : MatrixEngine → MatrixEngine) : State := s.modCore core fun c => { c with mx := f c.mx }

/-- The matrix engine of a core. -/
def State.mx (s : State) (core : Nat) : MatrixEngine := (s.core core).mx

/-- An owner holds the engine: one that an abort has released is held until its release takes place, but not by the replay (R184). -/
def MatrixEngine.heldBy (e : MatrixEngine) (o : Bool × Nat) : Bool := e.owner == some o && !e.orphan

/-- A matrix instruction of a task whose owner does not hold the engine is ILLEGAL (R166). -/
def State.needOwner (s : State) (i : Instr) : Except Exit Unit := need ((s.mx s.myCore).heldBy s.me.owner) (s.illegalAt i)

/-- An `outer`. -/
def isOuter : Instr → Bool
  | .outer _ _ _ => true
  | _ => false

/-- The queue takes another command (R167, R197): it is not full and no `outer` runs. -/
def MatrixEngine.takes (e : MatrixEngine) : Bool := decide (e.queue.length < 16) && !e.queue.any fun c => isOuter c.instr

/-- A command of a task with what it reads at issue (R167). -/
def mkCmd (i : Instr) (a : Word) (x : Task) (sub : Submitted) : MCmd :=
  { instr := i, a := a, rows := [], cols := [], rnd := x.rnd, tid := x.tid, ord := x.ord, phase := x.phase, sub := sub, clrf := false, routine := none, target := none,
    known := x.view.known, token := false, failed := false, sent := none, askew := false, dropped := false }

/-- A command joins the queue; the submitted state is what it leaves (R167). -/
def MatrixEngine.accept (e : MatrixEngine) (c : MCmd) (sub : Submitted) : MatrixEngine := { e with queue := e.queue ++ [c], sub := sub }

/-- Acceptance: the task stalls while the queue does not take the command, then a release at `.core`, then the command is queued
and what follows is done (R167). -/
def State.submit (s : State) (mk : Task → MatrixEngine → MCmd) (sub : Submitted → Submitted) (k : State → Except Exit State) :
    Except Exit State := do
  need (s.mx s.myCore).takes .stall
  let fin (t : State) : Except Exit State := k (t.modMx t.myCore fun e => e.accept (mk t.me e) (sub e.sub))
  s.released 1 fin

/-! ### Operand conditions (R170) -/

/-- The width of an element along K in bits: 2 for a VQ8 weight (R170). -/
def kWidth (f : Nat) : Nat := if f = 27 then 2 else fmtWidth f

/-- The first byte of some rows that is not in Scratch (R170). -/
def Core.badRow (c : Core) (base stride n bytes : Nat) : Option Nat :=
  (List.range n).findSome? fun i => firstBad c.writable (base + i * stride) bytes

/-- The conditions of R170 on n rows or columns of K elements from a local offset. -/
def opCheck (c : Core) (ptr : Word) (f k kk stride n : Nat) (latch : Bool) : Except Exit Unit := do
  let bad : Exit := .trap 5 0 ptr none
  let base := va56 ptr
  need (kk * kWidth f % 8 == 0) bad
  need (!isBlock f || kk % blockLen f k == 0) bad
  match (List.range n).find? fun i => (base + i * stride) % (if isBlock f then 2 else 4) != 0 with
  | some i => .error (misalign (BitVec.ofNat 64 (base + i * stride)))
  | none => .ok ()
  match c.badRow base stride n (spanBytes f k kk) with
  | some o => .error (.trap 4 0 (BitVec.ofNat 64 o) none)
  | none => .ok ()
  need (!latch || decide (n * kk * kWidth f ≤ 8 * 65536)) bad

/-- The rows of an operand: 64, or 32 of FP64. -/
def operandRows (f : Nat) : Nat := if f = 1 then 32 else 64

/-! ### Checks against the submitted state (R172, R174, R175) -/

/-- A format of S, N or block-integer class (R172). -/
def isIntClass (f : Nat) : Bool := isInt f || (match blockElem f with | some ef => isInt ef | none => false)

/-- The submitted KIND of a tile. -/
def Submitted.kind (u : Submitted) (t : Nat) : BitVec 2 := (u.kinds[t]?).getD 0

/-- The submitted KIND of a tile set. -/
def Submitted.setKind (u : Submitted) (t : Nat) (k : BitVec 2) : Submitted := { u with kinds := lset u.kinds t k }

/-- FORMAT with a small number in TRAPVAL. -/
def formatNum (n : Nat) : Exit := .trap 5 0 (BitVec.ofNat 64 n) none

/-- The memory format of an A operand: a tag of 0 names the command's own (R44, R172). -/
def aFormat (ptr : Word) (fa : Nat) : Nat × Nat := if bits ptr 56 8 = 0 then (fa, 0) else (tagFmt ptr, tagBlog ptr)

/-- The checks of `mma` and `mma.f64` (R172). -/
def mmaCheck (c : Core) (u : Submitted) (t fa fb : Nat) (ptr : Word) (f64 : Bool) : Except Exit Unit := do
  let no (f : Nat) : Bool := f == 0 || f == 31 || (!f64 && f == 1)
  need (!no fa) (badFormat fa)
  need (!no fb) (badFormat fb)
  checkTag ptr true
  need (bits ptr 56 8 == 0 || tagFmt ptr == fa) (.trap 5 0 ptr none)
  need (!u.acc || (isIntClass fa && isIntClass fb)) (badFormat (if isIntClass fa then fb else fa))
  need (u.lvalid && u.lfmt.toNat == fb && u.lk == u.k) (badFormat fb)
  need (u.kind t == if f64 then 2 else if u.acc then 1 else 0) (formatNum t)
  opCheck c ptr fa (aFormat ptr fa).2 u.k u.astr (operandRows fa) false

/-- The checks of `mload.a` (R174). -/
def mloadCheck (c : Core) (ptr : Word) : Except Exit Unit := do
  need (va56 ptr % 64 == 0) (misalign (BitVec.ofNat 64 (va56 ptr)))
  match c.refused false (va56 ptr) 16384 with
  | some o => .error (.trap 4 0 (BitVec.ofNat 64 o) none)
  | none => .ok ()

/-- The checks of `msum` (R175). -/
def msumCheck (c : Core) (u : Submitted) (t : Nat) (ptr : Word) : Except Exit Unit := do
  checkTag ptr false
  let fa := tagFmt ptr
  let k := tagBlog ptr
  need (u.kind t == 1 && u.lvalid && isIntClass u.lfmt.toNat && isIntClass fa &&
    (!isBlock u.lfmt.toNat || blockLen u.lfmt.toNat u.lblog == u.k) && (!isBlock fa || blockLen fa k == u.k)) (.trap 5 0 ptr none)
  opCheck c ptr fa k u.k u.astr 64 false

/-- The checks of a command that names only its A register, and the submitted state it leaves (R172, R174, R175, R218). -/
def checkCmd (c : Core) (u : Submitted) (i : Instr) (a : Word) : Except Exit Submitted :=
  match i with
  | .mma t fa fb _ => do
    mmaCheck c u t.toNat fa.toNat fb.toNat a false
    .ok u
  | .mmaF64 t _ => do
    mmaCheck c u t.toNat 1 1 a true
    .ok u
  | .mzero k t => .ok (u.setKind t.toNat k)
  | .mloadA k t _ => do
    mloadCheck c a
    .ok (u.setKind t.toNat k)
  | .msum t _ => do
    msumCheck c u t.toNat a
    .ok u
  | _ => .ok u

/-- The draws a command takes from its task at issue (R55, R172). -/
def cmdDraws (i : Instr) (u : Submitted) (mode : Nat) : Nat :=
  if mode ≠ 5 then 0
  else match i with
    | .mma _ _ _ _ => if u.acc then 0 else (u.k + 31) / 32
    | .mmaF64 _ _ => u.k
    | _ => 0

/-- The body of the commands that name only their A register. -/
def simpleCmd (i : Instr) (a : Word) (s : State) : Except Exit State := do
  s.needOwner i
  let u := (s.mx s.myCore).sub
  let v ← checkCmd (s.core s.myCore) u i a
  let draws := cmdDraws i u s.mode
  let fin (t : State) : Except Exit State := .ok ((t.drawn draws).retire 4)
  s.submit (fun x e => mkCmd i a x e.sub) (fun _ => v) fin

/-! ### The commands (R169-R181) -/

/-- `mma` (R172): a format field of FP64 migrates first. -/
def execMma (t : BitVec 2) (fa fb : Fmt) (a : Gpr) (s : State) : Host.Outcome State Fault Refusal :=
  run s do
    if fa = 1 ∨ fb = 1 then needD s
    tagNeedsD s (s.g a)
    simpleCmd (.mma t fa fb a) (s.g a) s

/-- `mma.f64` (R172). -/
def execMmaF64 (t : BitVec 2) (a : Gpr) (s : State) : Host.Outcome State Fault Refusal :=
  run s do
    needD s
    simpleCmd (.mmaF64 t a) (s.g a) s

/-- `mzero` (R174). -/
def execMzero (k t : BitVec 2) (s : State) : Host.Outcome State Fault Refusal := run s (simpleCmd (.mzero k t) 0 s)

/-- `mload.a` (R174). -/
def execMloadA (k t : BitVec 2) (a : Gpr) (s : State) : Host.Outcome State Fault Refusal := run s (simpleCmd (.mloadA k t a) (s.g a) s)

/-- `msum` (R175). -/
def execMsum (t : BitVec 2) (a : Gpr) (s : State) : Host.Outcome State Fault Refusal :=
  run s do
    tagNeedsD s (s.g a)
    simpleCmd (.msum t a) (s.g a) s

/-- A claim of a free engine (R166). -/
def MatrixEngine.claim (e : MatrixEngine) (o : Bool × Nat) : MatrixEngine :=
  { MatrixEngine.reset with owner := some o, known := e.known, rel := e.rel }

/-- The must-be-zero bits of `mcfg` (R169). -/
def mcfgOk (ga gb : Word) : Bool := bits ga 15 48 == 0 && !ga.getLsbD 13 && !ga.getLsbD 11 && bits gb 53 11 == 0 && bits gb 21 11 == 0

/-- The configuration of `mcfg` (R169). -/
def Submitted.configure (u : Submitted) (ga gb : Word) : Submitted :=
  { u with k := bits ga 0 11 + 1, acc := ga.getLsbD 12, astr := bits gb 0 21, bstr := bits gb 32 21 }

/-- `mcfg` (R166, R169): the claim comes with the acceptance; the replay of an aborted owner waits until its engine is free (R184, DEDUCED,
log 97); while the owner's own RELEASE waits for the queue, its commands are still accepted, with status 2 (R166, DESIGN CHOICE, log 116). -/
def execMcfg (d a b : Gpr) (s : State) : Host.Outcome State Fault Refusal :=
  run s do
    let i := Instr.mcfg d a b
    let ga := s.g a
    let gb := s.g b
    let e := s.mx s.myCore
    need (mcfgOk ga gb) (illegal i)
    if e.owner.isSome && e.owner != some s.me.owner then .ok ((s.setG d 0).retire 4)
    else if e.orphan then .error .stall
    else if ga.getLsbD 63 then .ok (((s.modMx s.myCore fun e => { e with releasing := e.owner.isSome }).setG d 3).retire 4)
    else
      need e.takes .stall
      let mk (x : Task) (e : MatrixEngine) : MCmd := { mkCmd i ga x (e.sub.configure ga gb) with clrf := ga.getLsbD 14 }
      let fin (t : State) : Except Exit State :=
        let e := t.mx t.myCore
        let c := if e.owner.isNone then e.claim t.me.owner else e
        .ok (((t.modMx t.myCore fun _ => c.accept (mk t.me c) (c.sub.configure ga gb)).setG d (if e.owner.isNone then 1 else 2)).retire 4)
      s.released 1 fin

/-- `mlatch.b` (R171). -/
def execMlatchB (a : Gpr) (s : State) : Host.Outcome State Fault Refusal :=
  run s do
    let i := Instr.mlatchB a
    let ptr := s.g a
    tagNeedsD s ptr
    s.needOwner i
    checkTag ptr true
    let u := (s.mx s.myCore).sub
    let f := tagFmt ptr
    opCheck (s.core s.myCore) ptr f (tagBlog ptr) u.k u.bstr (operandRows f) true
    let fin (t : State) : Except Exit State := .ok (t.retire 4)
    s.submit (fun x e => mkCmd i ptr x e.sub)
      (fun v => { v with lvalid := true, lfmt := BitVec.ofNat 5 f, lk := u.k, lblog := tagBlog ptr }) fin

/-- `mring` (R177): a disabled ring ignores gb. -/
def execMring (a b : Gpr) (s : State) : Host.Outcome State Fault Refusal :=
  run s do
    let i := Instr.mring a b
    let ga := s.g a
    let gb := s.g b
    s.needOwner i
    let on := ga.getLsbD 63
    need (bits ga 10 53 == 0 && (!on || bits gb 10 54 == 0)) (illegal i)
    need (coreAt (bits ga 0 10)).isSome (s.badCoord ga)
    need (!on || (coreAt (bits gb 0 10)).isSome) (s.badCoord gb)
    let mk (x : Task) (e : MatrixEngine) : MCmd :=
      { mkCmd i ga x e.sub with target := if on then some ((coreAt (bits gb 0 10)).getD 0, 0, 0) else none }
    let fin (t : State) : Except Exit State := .ok (t.retire 4)
    s.submit mk (fun u => { u with ring := on }) fin

/-- `mrot` (R178). -/
def execMrot (s : State) : Host.Outcome State Fault Refusal :=
  run s do
    s.needOwner .mrot
    need (s.mx s.myCore).sub.ring (illegal .mrot)
    let fin (t : State) : Except Exit State := .ok (t.retire 4)
    s.submit (fun x e => mkCmd .mrot 0 x e.sub) id fin

/-- The scale bytes of the first 64 lanes (R176). -/
def scaleLanes (v : BitVec 8192) : List Byte := ((lanes v).take 64).map (BitVec.ofNat 8)

/-- `mscale`: its lanes are read at issue (R176); TRAPVAL of the FORMAT trap for an FP64 tile is the tile's number (DESIGN CHOICE,
log 59); the lease check of R16 comes before it (DESIGN CHOICE, log 119). -/
def execMscale (t : BitVec 2) (a b : Vr) (s : State) : Host.Outcome State Fault Refusal :=
  run s do
    let i := Instr.mscale t a b
    s.needOwner i
    s.checkLease [a, b]
    let u := (s.mx s.myCore).sub
    need (u.kind t.toNat != 2) (formatNum t.toNat)
    let va ← s.readV a
    let vb ← s.readV b
    let mk (x : Task) (e : MatrixEngine) : MCmd := { mkCmd i 0 x e.sub with rows := scaleLanes va, cols := scaleLanes vb }
    let draws := drawsIn s.mode
    let fin (y : State) : Except Exit State := .ok (y.retireV [a, b] draws 4)
    s.submit mk (·.setKind t.toNat 0) fin

/-- The format of a drain: raw, or a tag that may be written (R179). -/
def drainFormat (ptr : Word) (kind : BitVec 2) : Except Exit Unit := do
  checkTag ptr false
  let m := tagFmt ptr
  let ok := bits ptr 56 8 == 0 || m == 1 || isLaneForm m || (isBlock m && m != 27 && decide (tagBlog ptr ≤ if kind = 2 then 2 else 3))
  need ok (.trap 5 0 ptr none)

/-- The elements of a tile of a KIND. -/
def tileCount (kind : BitVec 2) : Nat := if kind = 2 then 1024 else 4096

/-- The bytes a drain writes (R179). -/
def drainBytes (ptr : Word) (kind : BitVec 2) : Nat :=
  if bits ptr 56 8 = 0 then 16384 else spanBytes (tagFmt ptr) (tagBlog ptr) (tileCount kind)

/-- The alignment of a drain's offset (R40, R158, R179). -/
def drainAligned (ptr : Word) : Bool := if bits ptr 56 8 = 0 then va56 ptr % 64 == 0 else elemAligned (tagFmt ptr) (va56 ptr)

/-- The local destination of a drain checked at issue (R179). -/
def drainLocal (c : Core) (ptr : Word) (kind : BitVec 2) : Except Exit Unit := do
  need (drainAligned ptr) (misalign (BitVec.ofNat 64 (va56 ptr)))
  match c.refused true (va56 ptr) (drainBytes ptr kind) with
  | some o => .error (.trap 4 1 (BitVec.ofNat 64 o) none)
  | none => .ok ()

/-- `mdrain` (R179, R181); a remote one is irrevocable, and the alignment of its place is checked at the target (DEDUCED, log 98); one that names
the issuing core by coordinates is a local one with a wake-up (R111, R121, R184, DEDUCED, log 107). -/
def execMdrain (t : BitVec 2) (a b : Gpr) (s : State) : Host.Outcome State Fault Refusal :=
  run s do
    let i := Instr.mdrain t a b
    let ptr := s.g a
    tagNeedsD s ptr
    s.needOwner i
    need (decide (b.toNat ≤ 61)) (illegal i)
    let kind := (s.mx s.myCore).sub.kind t.toNat
    drainFormat ptr kind
    let draws := if bits ptr 56 8 = 0 then 0 else drawsIn s.mode
    let fin (y : State) : Except Exit State := .ok ((y.drawn draws).retire 4)
    if b = 0 then
      drainLocal (s.core s.myCore) ptr kind
      s.submit (fun x e => mkCmd i ptr x e.sub) id fin
    else
      match coreAt (s.g b).toNat with
      | none => .error (.trap 4 1 (BitVec.ofNat 64 (va56 ptr)) (some (s.g b)))
      | some c =>
        let tgt := some (c, s.g (gprPlus b 1), s.g (gprPlus b 2))
        if c = s.myCore then
          drainLocal (s.core s.myCore) ptr kind
          s.submit (fun x e => { mkCmd i ptr x e.sub with target := tgt }) id fin
        else
        need (s.mx s.myCore).takes (if s.me.guarded then illegal i else .stall)
        let go (y : State) : Except Exit State := y.submit (fun x e => { mkCmd i ptr x e.sub with target := tgt, askew := !drainAligned ptr }) id fin
        s.irrevocable i go

/-! ### outer (R197) -/

/-- `outer`: it stalls until the queue is empty, and while an older task of the core stalls for it (R197, R198). -/
def execOuter (t : BitVec 2) (a b : Gpr) (s : State) : Host.Outcome State Fault Refusal :=
  run s do
    let i := Instr.outer t a b
    let ptr := s.g a
    tagNeedsD s ptr
    s.needOwner i
    let (r, s) ← s.useRoutine i (s.g b)
    need (!r.w && r.ty != 3) (.trap 5 0 (s.g b) none)
    let u := (s.mx s.myCore).sub
    let fa := tagFmt ptr
    let fb := u.lfmt.toNat
    let no (f : Nat) : Bool := f == 0 || f == 31 || f == 1
    need (!no fa) (badFormat fa)
    need (!u.lvalid || !no fb) (badFormat fb)
    checkTag ptr true
    need (u.lvalid && u.lk == u.k) (badFormat fb)
    opCheck (s.core s.myCore) ptr fa (tagBlog ptr) u.k u.astr 64 false
    need (u.kind t.toNat == if r.ty = 0 then 0 else 1) (formatNum t.toNat)
    need ((s.mx s.myCore).queue.isEmpty && s.mayClaim .outerUnit) (.stallFor .outerUnit)
    let draws := if s.mode = 5 then r.words.length * u.k + 1 else 0
    let fin (y : State) : Except Exit State := .ok ((y.drawn draws).retire 4)
    s.submit (fun x e => { mkCmd i ptr x e.sub with routine := some r }) id fin

/-! ### mstat (R182) -/

/-- The matrix gate holds a command at the head of the queue back, one that has not begun (R230). -/
def State.gateShut (s : State) (core : Nat) (c : MCmd) : Bool :=
  (s.core core).xbar.men && !c.token && c.sent.isNone && !(c.instr == .mrot && (s.mx core).streamAcked)

/-- An `mrot` at the head of the queue, in step 1 or 2 (R178): its gate is passed. -/
def State.rotating (s : State) (core : Nat) : Bool :=
  match (s.mx core).queue with
  | c :: _ => c.instr == .mrot && !s.gateShut core c
  | [] => false

/-- The latch bank of an index. -/
def MatrixEngine.bank (e : MatrixEngine) (b : Bool) : Latch := e.latch[b.toNat]'(by cases b <;> decide)

/-- The status word (R182); `rot` is ROTWAIT. -/
def MatrixEngine.status (e : MatrixEngine) (rot mine : Bool) : Word :=
  let b (x : Bool) (n : Nat) : Nat := if x then 2 ^ n else 0
  let l := e.bank e.cur
  BitVec.ofNat 64 (b e.owner.isSome 62 +
    if mine then
      2 ^ 63 + b e.fault 61 + b e.ringOn 56 + b rot 55 + b l.valid 54 + l.fmt.toNat * 2 ^ 49 + (l.k - 1) * 2 ^ 38 +
        pieces 2 (e.tiles.toList.map (·.kind.toNat)) * 2 ^ 30 + e.done.toNat * 2 ^ 14 + e.queue.length
    else 0)

/-- `mstat`: an acquire at `.core` that synchronises with the release of the last command DONE counts (R182, R282). -/
def execMstat (d : Gpr) (s : State) : Host.Outcome State Fault Refusal :=
  let e := s.mx s.myCore
  .next ((((s.acquireFrom s.focus e.rel).acquire s.focus 1).setG d
    (e.status (s.rotating s.myCore) (e.heldBy s.me.owner))).retire 4)

end Sys2Proof.Machine
end

