-- ==== Sys2Proof/Machine/Copies.lean ====
section
/-! DEFINITION. The copy instructions: descriptors and their checks, acceptance, watermark reads, resume and abort, batches,
streams (R202-R222). -/

namespace Sys2Proof.Machine

/-! ### The pattern (R202, R205) -/

/-- The runs of a pattern. -/
def Pattern.runs (p : Pattern) : Nat := (p.dims.map (·.1)).foldl (· * ·) 1

/-- The offset of a run, dimension 1 fastest (R202, R205). -/
def runOffset (src : Bool) : List (Nat × Int × Int) → Nat → Int
  | [], _ => 0
  | (e, ss, ds) :: l, r => ((r % e : Nat) : Int) * (if src then ss else ds) + runOffset src l (r / e)

/-- An address of the 56-bit space. -/
def addr56 (a : Int) : Nat := (a % (2 ^ 56 : Nat)).toNat

/-- The lowest and the highest destination offset of a run's start (R205). -/
def offsetBounds (dims : List (Nat × Int × Int)) : Int × Int :=
  dims.foldl (fun (lo, hi) (e, _, ds) =>
    let x := ((e - 1 : Nat) : Int) * ds
    (lo + min x 0, hi + max x 0)) (0, 0)

/-- The ordered patterns (R205): every dimension with an extent above 1 has DSTR ≥ the span below it. -/
def orderedFrom : Int → List (Nat × Int × Int) → Bool
  | _, [] => true
  | span, (e, _, ds) :: l => (e == 1 || decide (span ≤ ds)) && orderedFrom (((e - 1 : Nat) : Int) * ds + span) l

/-- A dense pattern (R216): every DSTR is the span below it. -/
def denseFrom : Int → List (Nat × Int × Int) → Bool
  | _, [] => true
  | span, (e, _, ds) :: l => ds == span && denseFrom (((e - 1 : Nat) : Int) * ds + span) l

/-- The width of a source element in bits: 4 bytes for a stream of BYTE (R219). -/
def Copy.srcWidth (k : Copy) : Nat := if k.stream = some 0 then 32 else fmtWidth k.sfmt.1

/-- The destination bytes of a run. -/
def Copy.runBytes (k : Copy) : Nat := spanBytes k.dfmt.1 k.dfmt.2 k.pat.run

/-- The destination bytes of the copy (R204). -/
def Copy.total (k : Copy) : Nat := k.runBytes * k.pat.runs

/-- The extent and source stride of the outermost dimension, and the runs of one of its indices. -/
def Pattern.top (p : Pattern) : Nat × Int × Nat :=
  match p.dims.getLast? with
  | some (e, ss, _) => (e, ss, p.runs / e)
  | none => (1, 0, 1)

/-- The source address of a run, for a receiver: its own part is taken from source index C + r of the outermost dimension (R202, R217). -/
def Copy.srcAt (k : Copy) (recv run : Nat) : Nat :=
  let t := k.pat.top
  let own := k.multi.any (·.own) && decide (run / t.2.2 = t.1 - 1)
  addr56 ((k.src : Int) + runOffset true k.pat.dims run + if own then (recv : Int) * t.2.1 else 0)

/-- The destination address of a run, for a receiver (R202, R217). -/
def Copy.dstAt (k : Copy) (recv run : Nat) : Nat :=
  addr56 ((k.dst : Int) + (recv : Int) * (k.multi.elim 0 (·.ostr)) + runOffset false k.pat.dims run)

/-- DLO and DHI of a receiver (R205, R217). -/
def Copy.range (k : Copy) (recv : Nat) : Nat × Nat :=
  let b := offsetBounds k.pat.dims
  let lo := addr56 ((k.dst : Int) + (recv : Int) * (k.multi.elim 0 (·.ostr)) + b.1)
  (lo, lo + (b.2 - b.1).toNat + k.runBytes)

/-- The watermark once some bytes have landed (R205): the start of the next unit; an unordered copy keeps DLO to its end. -/
def Copy.wmkAt (k : Copy) (recv pos : Nat) : Nat :=
  if k.total ≤ pos then (k.range recv).2
  else if k.ordered then k.dstAt recv (pos / k.runBytes) + pos % k.runBytes
  else (k.range recv).1

/-- The receivers of a copy: one that is no multicast counts as one. -/
def Copy.receivers (k : Copy) : List Nat := List.range (k.multi.elim 1 (·.cores.length))

/-! ### The descriptor (R202, R204) -/

/-- A descriptor. -/
structure Desc where
  dcoord : Nat
  scoord : Nat
  dsp : Nat
  ssp : Nat
  pat : Pattern
  deriving DecidableEq, Repr

/-- ILLEGAL with the byte offset of the first bad field (R204): that of its doubleword, 0, 8 or 16d, also where the field lies further inside
(DESIGN CHOICE, log 121). -/
def badField (i : Instr) (off : Nat) : Exit := illegalInfo i (BitVec.ofNat 64 off)

/-- A signed 32-bit stride. -/
def stride (v : Nat) : Int := toS 32 (v % 2 ^ 32)

/-- The outer dimensions from their doublewords, with the offset of the first bad extent's doubleword (log 121). -/
def dimsOf (i : Instr) : Nat → List Word → Except Exit (List (Nat × Int × Int))
  | off, e :: st :: r => do
    need (decide (1 ≤ e.toNat) && decide (e.toNat ≤ 2 ^ 24)) (badField i off)
    let l ← dimsOf i (off + 16) r
    .ok ((e.toNat, stride st.toNat, stride (st.toNat / 2 ^ 32)) :: l)
  | _, _ => .ok []

/-- A descriptor in its 16-byte pieces, wholly in Scratch (R204; its bad fields by their doublewords, log 121); it is read once, at issue (R202). -/
def State.readDesc (s : State) (i : Instr) (ga : Word) : Except Exit (Desc × State) := do
  let off := va56 ga
  let c := s.core s.myCore
  need (off % 16 == 0) (misalign (BitVec.ofNat 64 off))
  need (firstBad c.writable off 16).isNone (.trap 4 0 (BitVec.ofNat 64 off) none)
  let l : Loc := .bank s.myCore off
  let (b0, _) := s.loadBytes l 8
  let n := bits (leWord b0) 31 3 + 1
  need (firstBad c.writable off (16 * n)).isNone (.trap 4 0 (BitVec.ofNat 64 off) none)
  s.checkWater l (16 * n) accLoad
  s.checkSectors l (16 * n)
  let (bs, s) := s.loadBytes l (16 * n)
  let ws := dwordsOf (2 * n) bs
  let h := (ws[0]?).getD 0
  need (bits h 36 4 == 0 && bits h 24 7 == 0 && bits h 40 2 != 3 && bits h 34 2 != 3 && bits h 0 24 != 0) (badField i 0)
  need ((ws[1]?).getD 0 == 0) (badField i 8)
  let dims ← dimsOf i 16 (ws.drop 2)
  .ok (⟨bits h 54 10, bits h 44 10, bits h 42 2, bits h 40 2, ⟨bits h 0 24, bits h 34 2, dims⟩⟩, s)

/-! ### Formats and alignment (R203, R204) -/

/-- The formats of both sides, and whether elements are converted: a tag of 0 takes the other side's format (R203). -/
def copyFormats (src dst : Word) : (Nat × Nat) × (Nat × Nat) × Bool :=
  let s := (tagFmt src, tagBlog src)
  let d := (tagFmt dst, tagBlog dst)
  if bits src 56 8 = 0 then (d, d, false) else if bits dst 56 8 = 0 then (s, s, false) else (s, d, true)

/-- RUN fills whole bytes and whole blocks of a format (R203). -/
def runFits (run w : Nat) (f : Nat × Nat) : Bool := run * w % 8 == 0 && (!isBlock f.1 || run % blockLen f.1 f.2 == 0)

/-- The checks of the tags (R45, R203). -/
def checkCopyTags (src dst : Word) (p : Pattern) : Except Exit Unit := do
  let f := copyFormats src dst
  checkTag src false
  checkTag dst false
  need (f.2.2 || p.cvt == 0) (.trap 5 0 src none)
  need (!(f.2.2 && f.2.1.1 == 27)) (.trap 5 0 dst none)
  need (runFits p.run (fmtWidth f.1.1) f.1) (.trap 5 0 src none)
  need (runFits p.run (fmtWidth f.2.1.1) f.2.1) (.trap 5 0 dst none)

/-- An element may stand at an address: `w` overrides the format's width in bytes (R40, R158). -/
def standsAt (f w a : Nat) : Bool := if w = 0 then elemAligned f a else a % w == 0

/-- The first misaligned element address of one side, in enumeration order (R204). -/
def checkAligned (f w base : Nat) (strides : List (Nat × Int)) : Except Exit Unit := do
  need (standsAt f w base) (misalign (BitVec.ofNat 64 base))
  match strides.find? fun x => x.1 != 1 && !standsAt f w (addr56 ((base : Int) + x.2)) with
  | some x => .error (misalign (BitVec.ofNat 64 (addr56 ((base : Int) + x.2))))
  | none => .ok ()

/-- A range of the core's own banks refused, run by run: its first offset. -/
def Core.badRuns (c : Core) (store : Bool) (starts : List Nat) (n : Nat) : Option Nat := starts.findSome? fun o => c.refused store o n

/-- Two lists of ranges meet. -/
def rangesMeet (a : List Nat) (n : Nat) (b : List Nat) (m : Nat) : Bool :=
  a.any fun x => b.any fun y => decide (x < y + m) && decide (y < x + n)

/-! ### A copy from its descriptor (R204, R211, R217) -/

/-- A copy of the issuing task before its places are checked. -/
def State.copyOf (s : State) (d : Desc) (src dst : Word) (multi : Option Multicast) : Copy :=
  let x := s.me
  let f := copyFormats src dst
  { ident := 0, tid := x.tid, job := x.job, asid := s.asid x.job, src := va56 src, dst := va56 dst, sfmt := f.1, dfmt := f.2.1, conv := f.2.2,
    ssp := if d.ssp = 2 ∧ coreAt d.scoord = some s.myCore then 1 else d.ssp,
    dsp := if multi.isSome then 2 else if d.dsp = 2 ∧ coreAt d.dcoord = some s.myCore then 1 else d.dsp,
    scoord := (coreAt d.scoord).getD 0, dcoord := (coreAt d.dcoord).getD 0, pat := d.pat,
    rnd := x.rnd, flags := 0, dlo := 0, dhi := 0, ordered := true, landed := 0, ahead := [],
    cache := none, frozen := none, aborting := false, gated := false, requested := false, order := 0, mword := none, multi := multi,
    ring := none, stream := none, batch := x.batchSeq }

/-- The range and the order of a copy (R205); a multicast's range takes the lowest ends of its receivers' (R217). -/
def Copy.withRange (k : Copy) : Copy :=
  let r : List (Nat × Nat) := k.receivers.map k.range
  let low (l : List Nat) : Nat := l.foldl min ((l.head?).getD 0)
  { k with dlo := low (r.map (·.1)), dhi := low (r.map (·.2)), ordered := orderedFrom (k.runBytes : Int) k.pat.dims }

/-- The local parts of a copy (R204): destination, then source, then their overlap. -/
def State.checkLocal (s : State) (i : Instr) (k : Copy) : Except Exit Unit := do
  let c := s.core s.myCore
  let runs := List.range k.pat.runs
  let mine : List Nat := match k.multi with
    | some m => (m.cores.zipIdx.filter (·.1 == s.myCore)).map (·.2)
    | none => if k.dsp = 1 then [0] else []
  let dsts := mine.flatMap fun r => runs.map (k.dstAt r)
  match c.badRuns true dsts k.runBytes with
  | some o => .error (.trap 4 1 (BitVec.ofNat 64 o) none)
  | none => .ok ()
  if k.ssp = 1 then
    let srcs := runs.map (k.srcAt 0)
    let n := spanBytes k.sfmt.1 k.sfmt.2 k.pat.run
    match c.badRuns false srcs n with
    | some o => .error (.trap 4 0 (BitVec.ofNat 64 o) none)
    | none => .ok ()
    need (!rangesMeet srcs n dsts k.runBytes) (illegal i)

/-- A coordinate of a near part names a core (R121, R204). -/
def checkRow (sp coord addr kind : Nat) : Except Exit Unit :=
  need (sp != 2 || (coreAt coord).isSome) (.trap 4 kind (BitVec.ofNat 64 addr) (some (BitVec.ofNat 64 coord)))

/-- The ring that a copy fills: bound, a task ring, its pattern dense and its bytes whole slots (R216). -/
def State.checkRing (s : State) (i : Instr) (d : Desc) (k : Copy) (dst : Word) : Except Exit (Option RingRef) :=
  if d.dsp ≠ 3 then .ok none
  else do
    let h ← s.ringHandle (bits dst 0 4)
    let r := s.ringOf h
    need (!r.msg && denseFrom (k.runBytes : Int) d.pat.dims && k.total % 2 ^ r.slog == 0) (illegal i)
    .ok (some h)

/-- The checks of R204 that follow the descriptor's own, in their order: the copy; `p` is the pattern that each receiver lands (R217). -/
def State.checkCopy (s : State) (i : Instr) (d : Desc) (p : Pattern) (src dst : Word) (multi : Option Multicast) : Except Exit Copy := do
  let k := (s.copyOf { d with pat := p } src dst multi).withRange
  need (decide (k.total ≤ 2 ^ 32)) (badField i 0)
  checkCopyTags src dst d.pat
  checkAligned k.sfmt.1 0 k.src (d.pat.dims.map fun x => (x.1, x.2.1))
  if d.dsp ≠ 3 then
    let step : List (Nat × Int) := match multi with
      | some m => [(m.cores.length, m.ostr)]
      | none => []
    checkAligned k.dfmt.1 0 k.dst ((p.dims.map fun x => (x.1, x.2.2)) ++ step)
  let ring ← s.checkRing i d k dst
  s.checkLocal i k
  checkRow d.ssp d.scoord k.src 0
  checkRow d.dsp d.dcoord k.dst 1
  .ok { k with ring := ring }

/-! ### Acceptance and deferral (R111, R211) -/

/-- The rounding mode of a copy: SR in the `.sr` form, else the task's (R203). -/
def Copy.mode (k : Copy) : Nat := if k.pat.cvt = 2 then 5 else k.rnd.m

/-- The draws of a copy at issue (R55, R203). -/
def Copy.draws (k : Copy) : Nat := if k.conv && k.mode == 5 then 1 else 0

/-- A copy is deferred in a task that buffers (R211, R217). -/
def deferred (dsp : Nat) (multi : Option Multicast) (core : Nat) : Bool :=
  match multi with
  | some m => m.cores.any (· != core)
  | none => dsp == 0 || dsp == 2

/-- A copy slot is free, and this task has waited longest for one: else it stalls (R211). -/
def State.claimSlot (s : State) : Except Exit Unit := need ((s.core s.myCore).freeSlot.isSome && s.mayClaim .copySlot) (.stallFor .copySlot)

/-- A copy accepted (R211): it stalls until a slot is free; a release, then the slot is claimed. -/
def startCopy (d : Gpr) (draws : Nat) (k : Copy) (s : State) : Except Exit State := do
  s.claimSlot
  let fin (u : State) : Except Exit State :=
    match u.acceptCopy u.focus k with
    | none => .error .stall
    | some (ident, u) => .ok ((((u.drawn draws).onMe Task.joinBatch).setG d ident).retire 4)
  s.released (copyScope k.ssp k.dsp) fin

/-- A copy held for the commit: gd is 0, it counts in its batch (R211, R215). -/
def deferCopy (d : Gpr) (draws : Nat) (s : State) : Except Exit State :=
  .ok ((((s.drawn draws).onMe Task.joinBatch).setG d 0).retire 4)

/-- A checked copy is accepted, or held for the commit (R111, R211). -/
def State.issueCopy (s : State) (d : Gpr) (dsp draws : Nat) (k : Copy) : Except Exit State :=
  if deferred dsp k.multi s.myCore then s.hold 64 (.copy k) (startCopy d draws k) (deferCopy d draws) else startCopy d draws k s

/-! ### cpy, cpy.m, cmcast (R211, R217, R218) -/

/-- A pointer tagged FP64 migrates the task (R203). -/
def copyTags (s : State) (b : Gpr) : Except Exit Unit := do
  tagNeedsD s (s.g b)
  tagNeedsD s (s.g (gprPlus b 1))

/-- `cpy` (R211). -/
def execCpy (d a b : Gpr) (s : State) : Host.Outcome State Fault Refusal :=
  run s do
    let i := Instr.cpy d a b
    need (decide (b.toNat ≤ 62)) (illegal i)
    copyTags s b
    let (ds, s) ← s.readDesc i (s.g a)
    let k ← s.checkCopy i ds ds.pat (s.g b) (s.g (gprPlus b 1)) none
    s.issueCopy d ds.dsp k.draws k

/-- The matrix words that may follow a copy, as decoded; an extension-D word only on a core with D (R218). -/
def copyWord (core : Nat) (w : Half32) : Option Instr :=
  match decodeWord w with
  | .ok (.mma t fa fb a) => if (fa = 1 ∨ fb = 1) ∧ !hasD core then none else some (.mma t fa fb a)
  | .ok (.mmaF64 t a) => if hasD core then some (.mmaF64 t a) else none
  | .ok (.mloadA k t a) => some (.mloadA k t a)
  | .ok (.msum t a) => some (.msum t a)
  | .ok (.mzero k t) => some (.mzero k t)
  | _ => none

/-- `cpy.m` (R218): the rounding of its matrix command, and its draws, are taken at its issue (R47, R55, DEDUCED, log 50). -/
def execCpyM (d a b : Gpr) (s : State) : Host.Outcome State Fault Refusal :=
  run s do
    let i := Instr.cpyM d a b
    let w := s.g (gprPlus b 2)
    need (decide (b.toNat ≤ 60)) (illegal i)
    copyTags s b
    let (ds, s) ← s.readDesc i (s.g a)
    let k ← s.checkCopy i ds ds.pat (s.g b) (s.g (gprPlus b 1)) none
    need (ds.dsp == 1) (badField i 0)
    need (bits w 32 32 == 0) (illegal i)
    match copyWord s.myCore (w.extractLsb' 0 32) with
    | none => .error (illegalInfo i w)
    | some m =>
      s.needOwner i
      s.issueCopy d ds.dsp (k.draws + cmdDraws m (s.mx s.myCore).sub s.mode) { k with mword := some (m, s.g (gprPlus b 3), s.me.owner) }

/-- The extent of the outermost dimension set. -/
def setTop (n : Nat) : List (Nat × Int × Int) → List (Nat × Int × Int)
  | [] => []
  | [(_, ss, ds)] => [(n, ss, ds)]
  | x :: r => x :: setTop n r

/-- The pattern a receiver lands: the common part, and one index of its own where OWN is set (R217); without outer dimensions the index is
that of an element (DEDUCED, log 31). -/
def ownPattern (p : Pattern) (nr : Nat) : Option Pattern :=
  match p.dims with
  | [] => if nr < p.run then some { p with run := p.run - nr + 1 } else none
  | _ => if nr < p.top.1 then some { p with dims := setTop (p.top.1 - nr + 1) p.dims } else none

/-- The cores of a multicast's receivers, from their halfwords (R217). -/
def receiverCores (dst : Word) : Nat → List Byte → Except Exit (List Nat)
  | 0, _ => .ok []
  | n + 1, bs => do
    let v := leNat (bs.take 2)
    match coreAt v with
    | none => .error (.trap 4 1 (BitVec.ofNat 64 (va56 dst)) (some (BitVec.ofNat 64 v)))
    | some c =>
      let l ← receiverCores dst n (bs.drop 2)
      .ok (c :: l)

/-- `cmcast` (R217). -/
def execCmcast (d a b : Gpr) (s : State) : Host.Outcome State Fault Refusal :=
  run s do
    let i := Instr.cmcast d a b
    let src := s.g b
    let dst := s.g (gprPlus b 1)
    let m := s.g (gprPlus b 2)
    let list := s.g (gprPlus b 3)
    need (decide (b.toNat ≤ 60)) (illegal i)
    copyTags s b
    let (ds, s) ← s.readDesc i (s.g a)
    need (ds.ssp == 0 && ds.dsp == 1) (badField i 0)
    need (bits m 5 27 == 0) (illegal i)
    let nr := bits m 0 4 + 1
    let own := m.getLsbD 4
    need (list.toNat % 2 == 0) (misalign list)
    let l : Loc := .bank s.myCore (va56 list)
    s.checkAccess l (2 * nr) accLoad
    let (bs, s) := s.loadBytes l (2 * nr)
    let cores ← receiverCores dst nr bs
    let pat := if own then ownPattern ds.pat nr else some ds.pat
    match pat with
    | none => .error (illegal i)
    | some p =>
      let k ← s.checkCopy i ds p src dst (some ⟨own, stride (m.toNat / 2 ^ 32), cores, List.replicate nr 0⟩)
      s.issueCopy d 1 k.draws k

/-! ### wmk, cresume, cabort (R209, R214) -/

/-- The slot an identifier names, where its generation is current (R209, R211). -/
def State.slotOf (s : State) (ga : Word) : Option (Nat × Nat × CopySlot) :=
  (coreAt (bits ga 17 10)).bind fun c =>
    let k := vget (s.core c).slots (bits ga 0 3) CopySlot.reset
    if k.gen.toNat = bits ga 3 13 then some (c, bits ga 0 3, k) else none

/-- `wmk` (R209): an acquire at `.pkg`, which synchronises with the engine's release (R282). -/
def execWmk (d a : Gpr) (s : State) : Host.Outcome State Fault Refusal :=
  run s do
    let ga := s.g a
    need (ga.getLsbD 16 && bits ga 27 37 == 0) (illegalInfo (.wmk d a) ga)
    let v : Word := match s.slotOf ga with
      | some (_, _, k) => k.wmk.addr.setWidth 64
      | none => BitVec.allOnes 64
    let rel := (s.slotOf ga).bind fun x => (s.core x.1).copyRel
    .ok (((s.setG d v).acquireFrom s.focus rel).acquire s.focus 4 |>.retire 4)

/-- A copy slot of a core changed. -/
def State.modSlot (s : State) (core n : Nat) (f : CopySlot → CopySlot) : State :=
  s.modCore core fun c => { c with slots := vput c.slots n (f (vget c.slots n CopySlot.reset)) }

/-- The identifier checks of `cresume` and `cabort` (R214). -/
def checkIdent (i : Instr) (ga : Word) : Except Exit Unit :=
  need (ga.getLsbD 16 && bits ga 27 37 == 0 && (coreAt (bits ga 17 10)).isSome) (illegal i)

/-- The active copy of an identifier acted on; a stale one is left alone (R214). -/
def State.onCopy (s : State) (ga : Word) (f : CopySlot → CopySlot) : State :=
  match s.slotOf ga with
  | some (c, n, k) => if k.wmk.act && k.copy.isSome then s.modSlot c n f else s
  | none => s

/-- A frozen copy goes on (R214). -/
def CopySlot.resume (k : CopySlot) : CopySlot :=
  { k with wmk := { k.wmk with frz := false }, copy := k.copy.map fun y => { y with frozen := none } }

/-- `cresume` (R214). -/
def execCresume (a : Gpr) (s : State) : Host.Outcome State Fault Refusal :=
  run s do
    checkIdent (.cresume a) (s.g a)
    .ok ((s.onCopy (s.g a) CopySlot.resume).retire 4)

/-- `cabort` (R214): what follows is the completion as aborted. -/
def execCabort (a : Gpr) (s : State) : Host.Outcome State Fault Refusal :=
  run s do
    checkIdent (.cabort a) (s.g a)
    .ok ((s.onCopy (s.g a) CopySlot.abort).retire 4)

/-! ### Batches (R215) -/

/-- The task's shadow buffer holds a copy (R215). -/
def Task.holdsCopy (x : Task) : Bool := x.buffers && x.shadow.any fun h => match h with | .copy _ => true | _ => false

/-- The sequence number after another: it skips 0 (R215). -/
def nextSeq (n : Nat) : Nat := if (n + 1) % 2 ^ 32 = 0 then 1 else (n + 1) % 2 ^ 32

/-- The open batch sealed (R215); one without an unfinished copy is finished at once. -/
def Task.seal (x : Task) : Task :=
  { x with batches := if x.batchOpen = 0 then x.batches else x.batches ++ [(x.batchSeq, x.batchOpen)],
           batchOpen := 0, batchSeq := nextSeq x.batchSeq }

/-- `cseal` (R215): a 65th unfinished sealed batch stalls it. -/
def execCseal (d : Gpr) (s : State) : Host.Outcome State Fault Refusal :=
  run s do
    let x := s.me
    if 64 ≤ x.batches.length ∧ x.batchOpen ≠ 0 then
      need (!x.holdsCopy) (illegal (.cseal d))
      .error .stall
    else .ok (((s.onMe Task.seal).setG d (BitVec.ofNat 64 x.batchSeq)).retire 4)

/-- The releases of the copies of finished batches, and those that stay in the mailbox (R215, R282). -/
def Task.finishedMail (x : Task) : List Release × List (Nat × Release) :=
  let open_ (n : Nat) : Bool := n == x.batchSeq || x.batches.any (·.1 == n)
  ((x.mail.filter fun m => !open_ m.1).map (·.2), x.mail.filter fun m => open_ m.1)

/-- `cwait` (R215): an acquire at `.pkg` for every copy of every finished batch. -/
def execCwait (d a : Gpr) (s : State) : Host.Outcome State Fault Refusal :=
  run s do
    let x := s.me
    need (!x.holdsCopy) (illegal (.cwait d a))
    need (decide (x.batches.length ≤ (s.g a).toNat)) (.wait .watermark)
    let s := (s.onMe fun y => { y with aborted := 0, mail := x.finishedMail.2 }).setG d (BitVec.ofNat 64 x.aborted)
    .ok (((x.finishedMail.1.foldl (fun s r => s.acquireFrom s.focus (some r)) s).acquire s.focus 4).retire 4)

/-! ### Streams (R219, R220) -/

/-- The formats of a stream, FMT standing for the destination's tag; BYTE takes raw 4-byte elements (R203, R219). -/
def streamFormats (src : Word) (f : Nat) : (Nat × Nat) × (Nat × Nat) × Bool :=
  if bits src 56 8 = 0 then ((f, 0), (f, 0), false) else ((tagFmt src, tagBlog src), (f, 0), true)

/-- Any failure of a stream's checks traps ILLEGAL; a page that is absent is waited for (R106, R219). -/
def streamExit (i : Instr) : Exit → Exit
  | .trap _ _ _ _ => illegal i
  | e => e

/-- The copy of a stream after the checks of R204 that apply to its source (R219). -/
def State.checkStream (s : State) (i : Instr) (d : Desc) (src : Word) (f : Fmt) : Except Exit Copy := do
  let fs := streamFormats src f.toNat
  let k : Copy := { s.copyOf d src 0 none with sfmt := fs.1, dfmt := fs.2.1, conv := fs.2.2, dsp := 0, stream := some f, batch := 0 }
  need (decide (4 * d.pat.run * d.pat.runs ≤ 2 ^ 32)) (badField i 0)
  checkTag src false
  need (fs.2.2 || d.pat.cvt == 0) (.trap 5 0 src none)
  need (runFits d.pat.run k.srcWidth fs.1) (.trap 5 0 src none)
  checkAligned k.sfmt.1 (if f = 0 then 4 else 0) k.src (d.pat.dims.map fun x => (x.1, x.2.1))
  if k.ssp = 1 then
    match (s.core s.myCore).badRuns false ((List.range d.pat.runs).map (k.srcAt 0)) ((k.pat.run * k.srcWidth + 7) / 8) with
    | some o => .error (.trap 4 0 (BitVec.ofNat 64 o) none)
    | none => .ok ()
  checkRow d.ssp d.scoord k.src 0
  .ok k

/-- A stream accepted: its slot is claimed as a copy's is (R211, R219). -/
def startStream (k : Copy) (f : Fmt) (s : State) : Except Exit State := do
  s.claimSlot
  let fin (u : State) : Except Exit State :=
    match u.acceptCopy u.focus k with
    | none => .error .stall
    | some (ident, u) => .ok ((((u.drawn k.draws).onMe fun x => { x with
        stream := some ⟨ident.toNat % 8, f, [], 0, false, false, none⟩ })).retire 4)
  s.released (copyScope k.ssp 1) fin

/-- `stream.on` (R219). -/
def execStreamOn (a b : Gpr) (s : State) : Host.Outcome State Fault Refusal :=
  run s do
    let i := Instr.streamOn a b
    let src := s.g b
    let w := s.g (gprPlus b 1)
    need (decide (b.toNat ≤ 62)) (illegal i)
    tagNeedsD s src
    let f : Fmt := w.extractLsb' 0 5
    need (bits w 5 59 == 0 && (isLaneForm f.toNat || (f == 0 && bits src 56 8 == 0)) && s.me.leaseCls == 3 && s.me.stream.isNone) (illegal i)
    let (ds, s) ← s.readDesc i (s.g a)
    need (ds.dsp == 0 && ds.dcoord == 0 && ds.pat.dims.all fun x => x.2.2 == 0) (illegal i)
    let k ← (s.checkStream i ds src f).mapError (streamExit i)
    startStream k f s

/-- v24 to v31 set to zero. -/
def Task.clearStreamRegs (x : Task) : Task := (List.range 8).foldl (fun x n => x.setV (BitVec.ofNat 5 (24 + n)) 0) x

/-- `stream.off` (R220): the strips popped, END in bit 63. -/
def execStreamOff (d : Gpr) (s : State) : Host.Outcome State Fault Refusal :=
  .next (match s.me.stream with
    | none => (s.setG d 0).retire 4
    | some r =>
      let v : Word := BitVec.ofNat 64 (r.popped % 2 ^ 32 + if r.ended then 2 ^ 63 else 0)
      (((s.dropStream s.focus).onMe Task.clearStreamRegs).setG d v).retire 4)

end Sys2Proof.Machine
end

