-- ==== Sys2Proof/Machine/MatrixRun.lean ====
section
/-! DEFINITION. The matrix engine at work: what each queued command does, completion, the matrix gate, the rotation ring, release
and the wake-up of a remote drain (R57, R166, R167, R171-R183, R197, R199, R230). -/

namespace Sys2Proof.Machine

/-! ### Tiles and operands -/

/-- The element codes of a tile: 4,096 of 32 bits, or 1,024 of 64 (R165). -/
def Tile.codes (t : Tile) : List Nat := if t.kind = 2 then cut 64 t.data.toNat 1024 else cut 32 t.data.toNat 4096

/-- A tile from its element codes; the upper half of an FP64 tile reads as zero (R165). -/
def tileOf (kind : BitVec 2) (l : List Nat) : Tile := ⟨kind, BitVec.ofNat 131072 (pieces (if kind = 2 then 64 else 32) l)⟩

/-- A tile of the engine. -/
def MatrixEngine.tile (e : MatrixEngine) (t : BitVec 2) : Tile := e.tiles[t.toNat]

/-- A tile of the engine replaced. -/
def MatrixEngine.setTile (e : MatrixEngine) (t : BitVec 2) (x : Tile) : MatrixEngine := { e with tiles := e.tiles.set t.toNat x }

/-- Whether n rows of a core's banks lie below every watermark that covers them (R170, R207). -/
def State.rowsLanded (s : State) (core base stride n nb : Nat) : Bool :=
  (List.range n).all fun i => !s.watchedRange core (base + i * stride) nb

/-- n rows read by the engine, each as a number (R170). -/
def State.readRows (s : State) (core base stride nb : Nat) : Nat → List Nat × State
  | 0 => ([], s)
  | n + 1 =>
    let (l, s) := State.readRows s core base stride nb n
    let (v, s) := s.engineBytes (.matrix core) (.bank core (base + n * stride)) nb
    (l ++ [v], s)

/-- The values of a row, with the flags of decoding it (R32, R36, R41, R42). -/
def rowValues (f bl k data : Nat) : List FV × Flags :=
  let l := (List.range k).map (memElem f bl data)
  (l.map (·.1), orFlags (l.map (·.2)))

/-- The integer codes of a row (R171, R172). -/
def rowCodes (f bl k data : Nat) : List Int := (List.range k).map fun i => intOf ((blockElem f).getD f) (memCode f bl data i)

/-- The zero point of a row: of its one block, else 0 (R175). -/
def rowZero (f data : Nat) : Int := if isBlock f then toS 8 (byteOf data 1) else 0

/-- A row of a matrix with its index. -/
def outerPairs {α β : Type} (rows : List α) (cols : List β) : List (α × β) := rows.flatMap fun r => cols.map fun c => (r, c)

/-! ### mma (R57, R172) -/

/-- The exact sum of the products of a chunk (R57): infinities of opposite signs set NV wherever they stand. -/
def dotExact (mode : Nat) (l : List (FV × FV)) : FV × Flags :=
  let ps := l.map fun q => q.1.mul q.2
  let sum := match ps with
    | [] => .fin false 0 0
    | p :: r => r.foldl (fun acc x => (acc.add mode x.1).1) p.1
  let both := ps.any (fun x => x.1 == .inf false) && ps.any fun x => x.1 == .inf true
  (sum, orFlags (ps.map (·.2)) ||| flagIf both flagNV)

/-- An element of an FP32 tile after an `mma`: one rounding per chunk of 32 (R57, R172). -/
def mmaElem (r : Rnd) (e c : Nat) (a b : List FV) : Nat × Flags :=
  ((chunks 32 ((a.length + 31) / 32) (a.zip b)).zipIdx).foldl (fun acc (p, n) =>
    let s := dotExact r.m p
    let y := roundElem 2 r.m (if r.m = 5 then r.draw n e else 0) (FV.addTo r.m s (elemValue 2 acc.1))
    (y.1, acc.2 ||| y.2)) (c, 0)

/-- An element of an FP64 tile after an `mma.f64`: one rounding per step (R172). -/
def mma64Elem (r : Rnd) (e c : Nat) (a b : List FV) : Nat × Flags :=
  ((a.zip b).zipIdx).foldl (fun acc (p, n) =>
    let x := p.1.mul p.2
    let y := roundElem 1 r.m (if r.m = 5 then r.draw n e else 0) (FV.addTo r.m x (elemValue 1 acc.1))
    (y.1, acc.2 ||| y.2)) (c, 0)

/-- The new codes of a tile from a function of element index, old code, row and column, with all flags. -/
def mapTile {α β : Type} (f : Nat → Nat → α → β → Nat × Flags) (old : List Nat) (rows : List α) (cols : List β) : List Nat × Flags :=
  let l := ((old.zip (outerPairs rows cols)).zipIdx).map fun (p, e) => f e p.1 p.2.1 p.2.2
  (l.map (·.1), orFlags (l.map (·.2)))

/-- The latch that a command was checked against still stands in bank CUR (R172). -/
def MatrixEngine.latchOk (e : MatrixEngine) (c : MCmd) : Bool :=
  let l := e.bank e.cur
  l.valid && l.fmt == c.sub.lfmt && l.k == c.sub.lk

/-- What a performed command leaves: the state and its flags. -/
abbrev Performed := State × Flags

/-- A command that is not performed sets FAULT (R172, R218). -/
def State.skip (s : State) (core : Nat) : Performed := (s.modMx core fun e => { e with fault := true }, 0)

/-- `mma` and `mma.f64` at the engine (R172). -/
def State.doMma (s : State) (core : Nat) (c : MCmd) (t : BitVec 2) (fa : Nat) (f64 : Bool) : Option Performed :=
  let e := s.mx core
  let m := aFormat c.a fa
  let n := operandRows (if f64 then 1 else 0)
  let nb := spanBytes m.1 m.2 c.sub.k
  if !s.rowsLanded core (va56 c.a) c.sub.astr n nb then none
  else if !e.latchOk c then some (s.skip core)
  else
    let (rows, s) := s.readRows core (va56 c.a) c.sub.astr nb n
    let l := e.bank e.cur
    let old := (e.tile t).codes
    if c.sub.acc then
      let a := rows.map (rowCodes m.1 m.2 c.sub.k)
      let b := l.cols.map (rowCodes l.fmt.toNat l.blog c.sub.k)
      let r := mapTile (fun _ x a b => (ofS 32 ((x : Int) + ((a.zip b).map fun p => p.1 * p.2).foldl (· + ·) 0), 0)) old a b
      some (s.modMx core (·.setTile t (tileOf 1 r.1)), 0)
    else
      let a := rows.map (rowValues m.1 m.2 c.sub.k)
      let b := l.cols.map (rowValues l.fmt.toNat l.blog c.sub.k)
      let r := mapTile (if f64 then mma64Elem c.rnd else mmaElem c.rnd) old (a.map (·.1)) (b.map (·.1))
      some (s.modMx core (·.setTile t (tileOf (if f64 then 2 else 0) r.1)), r.2 ||| orFlags (a.map (·.2)) ||| orFlags (b.map (·.2)))

/-! ### Tiles, latch, zero points, scales (R171, R174-R176) -/

/-- `mload.a` at the engine (R174). -/
def State.doLoad (s : State) (core : Nat) (c : MCmd) (k t : BitVec 2) : Option Performed :=
  if s.watchedRange core (va56 c.a) 16384 then none
  else
    let (v, s) := s.engineBytes (.matrix core) (.bank core (va56 c.a)) 16384
    some (s.modMx core (·.setTile t ⟨k, BitVec.ofNat 131072 (if k = 2 then v % 2 ^ 65536 else v)⟩), 0)

/-- `mlatch.b` at the engine: bank CUR holds the codes as they stand in memory (R171). -/
def State.doLatch (s : State) (core : Nat) (c : MCmd) : Option Performed :=
  let f := tagFmt c.a
  let nb := spanBytes f (tagBlog c.a) c.sub.k
  if !s.rowsLanded core (va56 c.a) c.sub.bstr (operandRows f) nb then none
  else
    let (cols, s) := s.readRows core (va56 c.a) c.sub.bstr nb (operandRows f)
    let l : Latch := ⟨true, true, BitVec.ofNat 5 f, c.sub.k, tagBlog c.a, cols⟩
    some (s.modMx core fun e => { e with latch := vput e.latch e.cur.toNat l }, 0)

/-- `msum` at the engine (R175): CS_j over the K of the latch (R171), RS_i over the configured K. -/
def State.doSum (s : State) (core : Nat) (c : MCmd) (t : BitVec 2) : Option Performed :=
  let e := s.mx core
  let f := tagFmt c.a
  let nb := spanBytes f (tagBlog c.a) c.sub.k
  if !s.rowsLanded core (va56 c.a) c.sub.astr 64 nb then none
  else if !(e.latchOk c && (e.bank e.cur).blog == c.sub.lblog) then some (s.skip core)
  else
    let (rows, s) := s.readRows core (va56 c.a) c.sub.astr nb 64
    let l := e.bank e.cur
    let sum (x : List Int) : Int := x.foldl (· + ·) 0
    let a := rows.map fun d => (rowZero f d, sum (rowCodes f (tagBlog c.a) c.sub.k d))
    let b := l.cols.map fun d => (rowZero l.fmt.toNat d, sum (rowCodes l.fmt.toNat l.blog l.k d))
    let r := mapTile (fun _ x (a b : Int × Int) =>
      (ofS 32 ((x : Int) - a.1 * b.2 - b.1 * a.2 + (c.sub.k : Int) * a.1 * b.1), 0)) (e.tile t).codes a b
    some (s.modMx core (·.setTile t (tileOf 1 r.1)), 0)

/-- An element scaled by two E8 bytes (R176). -/
def scaleElem (r : Rnd) (s32 : Bool) (e x a b : Nat) : Nat × Flags :=
  if a = 255 ∨ b = 255 then (fp32.nanBits, 0)
  else
    let v := if s32 then ofInt (toS 32 x) else elemValue 2 x
    roundElem 2 r.m (if r.m = 5 then r.draw 0 e else 0) (v.scale ((a : Int) + b - 254), sigFlag v)

/-- `mscale` at the engine (R176). -/
def State.doScale (s : State) (core : Nat) (c : MCmd) (t : BitVec 2) : Performed :=
  let x := (s.mx core).tile t
  let r := mapTile (fun e v (a b : Nat) => scaleElem c.rnd (x.kind == 1) e v a b) x.codes (c.rows.map (·.toNat)) (c.cols.map (·.toNat))
  (s.modMx core (·.setTile t (tileOf 0 r.1)), r.2)

/-! ### outer (R187, R197, R199) -/

/-- An element of an operand as the routine's type (R195, R197). -/
def outerElem (r : Routine) (rnd : Rnd) (pos : Nat) (f bl data i e : Nat) : Nat × Flags :=
  let t := r.ty.toNat
  if isInt f && t != 0 then (ofS 32 (intOf f (memCode f bl data i)), 0)
  else
    let v := memElem f bl data i
    let y := toTy t rnd.m (if rnd.m = 5 then rnd.draw pos e else 0) v.1
    (y.1, y.2 ||| v.2)

/-- The flags of the notes of an application. -/
def noteFlags (n : Notes) : Flags := orFlags (n.map (·.2))

/-- One tile element through the routine for k = 0 to K - 1 (R197). -/
def outerAcc (r : Routine) (rnd : Rnd) (e c : Nat) (a b : List Nat) : Nat × Flags :=
  ((a.zip b).zipIdx).foldl (fun acc (p, k) =>
    let y := r.apply rnd.m (fun pc => if rnd.m = 5 then rnd.draw (r.words.length * k + pc) e else 0) [acc.1, 0, p.1, p.2, k, 0, 0, 0]
    (y.1.1, acc.2 ||| noteFlags y.2)) (c, 0)

/-- `outer` at the engine (R197). -/
def State.doOuter (s : State) (core : Nat) (c : MCmd) (t : BitVec 2) (r : Routine) : Option Performed :=
  let e := s.mx core
  let f := tagFmt c.a
  let k := c.sub.k
  let nb := spanBytes f (tagBlog c.a) k
  if !s.rowsLanded core (va56 c.a) c.sub.astr 64 nb then none
  else if !e.latchOk c then some (s.skip core)
  else
    let (rows, s) := s.readRows core (va56 c.a) c.sub.astr nb 64
    let l := e.bank e.cur
    let pos := r.words.length * k
    let ra := rows.zipIdx.map fun (d, i) => (List.range k).map fun n => outerElem r c.rnd pos f (tagBlog c.a) d n (64 * i + n)
    let rb := l.cols.zipIdx.map fun (d, j) => (List.range k).map fun n => outerElem r c.rnd pos l.fmt.toNat l.blog d n (64 * n + j)
    let x := mapTile (fun e v a b => outerAcc r c.rnd e v a b) (e.tile t).codes (ra.map (·.map (·.1))) (rb.map (·.map (·.1)))
    let fl := orFlags ((ra.flatten ++ rb.flatten).map (·.2))
    some (s.modMx core (·.setTile t (tileOf (e.tile t).kind x.1)), x.2 ||| fl)

/-! ### Draining (R179, R180) -/

/-- The bounds of a block's positive and negative values, and its zero point (R180). -/
def drainBounds (f : Nat) (xs : List FV) : (Nat × Int) × (Nat × Int) × Nat :=
  let q := elemMax f
  let neg := xs.any fun x => match x with | .fin true m _ => m != 0 | _ => false
  if (f = 25 ∨ f = 28) ∧ neg then
    let z := if f = 25 then 8 else 127
    ((q.1 - z, 0), (z, 0), z)
  else (q, q, 0)

/-- The scale byte of a drained block (R180). -/
def drainScale (p n : Nat × Int) (xs : List FV) : Nat :=
  if xs.all FV.isZero then 127
  else xs.foldl (fun acc x =>
    if x.isZero then acc else max acc (scaleFor (match x with | .fin true _ _ => n | _ => p) x)) 0

/-- A drained block: its bytes as a number, and its flags (R180). -/
def drainBlock (f mode : Nat) (draw : Nat → Nat) (xs : List FV) : Nat × Flags :=
  if xs.any FV.special then (255, orFlags (xs.map infFlag))
  else
    let b := drainBounds f xs
    let s := drainScale b.1 b.2.1 xs
    let cs := xs.zipIdx.map fun (x, i) => encodeBlock f s b.2.2 true mode (draw i) x
    (s + 2 ^ 8 * b.2.2 + 2 ^ 16 * pieces (fmtWidth f) (cs.map (·.1)), orFlags (cs.map (·.2)))

/-- The format of a tile's elements. -/
def tileFmt (kind : BitVec 2) : Nat := match kind.toNat with | 1 => 11 | 2 => 1 | _ => 2

/-- The bytes of a drained tile as a number, and the flags of its conversion (R179). -/
def drainData (x : Tile) (ptr : Word) (rnd : Rnd) : Nat × Flags :=
  let m := tagFmt ptr
  let f := tileFmt x.kind
  let dr (e : Nat) : Nat := if rnd.m = 5 then rnd.draw 0 e else 0
  let cols := if x.kind = 2 then 32 else 64
  let e (i : Nat) : Nat := 64 * (i / cols) + i % cols
  if bits ptr 56 8 = 0 then (x.data.toNat, 0)
  else if isBlock m then
    let per := blockLen m (tagBlog ptr)
    let bs := (chunks per (tileCount x.kind / per) x.codes).zipIdx.map fun (b, j) =>
      drainBlock m rnd.m (fun i => dr (e (j * per + i))) (b.map (elemValue f))
    (pieces (8 * blockBytes m (tagBlog ptr)) (bs.map (·.1)), orFlags (bs.map (·.2)))
  else
    let cs := x.codes.zipIdx.map fun (c, i) => convCode f m false rnd.m (dr (e i)) c
    (pieces (fmtWidth m) (cs.map (·.1)), orFlags (cs.map (·.2)))

/-- The near stores of a remote drain, one per aligned word, on their way at scope `.pkg`, with the phase and the ORD of the command's issue
(R181, R260, R264). -/
def State.sendDrain (s : State) (core target off : Nat) (c : MCmd) (v n : Nat) : List Nat × State :=
  let e := s.mx core
  (wordRuns (fun _ => true) off n).foldl (fun (ids, s) r =>
    let w : Write :=
      { id := s.nextId, party := .matrix core, loc := .bank target (off + r.1), bytes := natBytes (v / 2 ^ (8 * r.1)) r.2, mask := [],
        op := none, phase := c.phase, view := e.known, rel := e.rel.toList, cls := 4, xy := c.ord.getLsbD 4, old := [], preds := [], sent := s.nextId, arrivedAt := 0,
        settled := false, cover := decide ((off + r.1) % 64 = 60) && decide (60 ≤ r.1) && r.2 == 4, bad := false }
    (s.nextId :: ids, { s with nextId := s.nextId + 1, path := s.path ++ [w] })) ([], s)

/-- The head of the queue changed. -/
def MatrixEngine.modHead (e : MatrixEngine) (f : MCmd → MCmd) : MatrixEngine :=
  match e.queue with
  | c :: r => { e with queue := f c :: r }
  | [] => e

/-- A drain whose near stores have all been acknowledged (R181). -/
def State.drained (s : State) (ids : List Nat) : Bool := !(s.path ++ s.atSwitch).any fun w => ids.contains w.id

/-- A local drain: its words are written at once, the engine's knowledge gains them (R179, R182). -/
def State.doDrainLocal (s : State) (core : Nat) (c : MCmd) (t : BitVec 2) : Option Performed :=
  let x := (s.mx core).tile t
  let n := drainBytes c.a x.kind
  if s.watchedRange core (va56 c.a) n then none
  else
    let d := drainData x c.a c.rnd
    let e := s.mx core
    some ((s.engineWrite (.matrix core) e.known e.rel (.bank core (va56 c.a)) d.1 n).2, d.2)

/-- The wake-up record of a remote drain (R181). -/
def wakeRecord (c : MCmd) (h arg : Word) : List Word := [h, c.a, arg, c.tid, if c.dropped then 1 else 0, 0, 0, 0]

/-! ### Completion (R167, R183) -/

/-- Flags of a command go to its task wherever its context is, and up the trees (R51, R52, R183);
the replay of an aborted task, which keeps its TASKID, takes those of the commands that were still queued (DESIGN CHOICE, log 118). -/
def State.raiseFor (s : State) (tid : Word) (core : Nat) (f : Flags) : State :=
  if f = 0 then s
  else { s.modByTid tid (fun x => { x with fflags := x.fflags ||| f }) with raises := s.raises ++ [(core, f)] }

/-- The engine after its head command: the near stores of a remote drain are known to it, and a release at the command's scope goes before
DONE (R167, R282). -/
def MatrixEngine.finish (e : MatrixEngine) (core : Nat) (c : MCmd) : MatrixEngine :=
  let known := union (c.sent.getD []) e.known
  { e with queue := e.queue.drop 1, done := e.done + 1, known := known, rel := some ⟨if c.target.isSome then 4 else 1, known, .matrix core⟩ }

/-- The head command completes: flags, the engine's release, DONE, the crossbar's matrix-done input (R167, R228, R282). -/
def State.completeCmd (s : State) (core : Nat) (c : MCmd) (f : Flags) : State :=
  (((s.raiseFor c.tid core f).modMx core (·.finish core c))).pulse core 16

/-- The engine takes its head command with an acquire at `.core` that synchronises with the submitter's release (R167, R279, R280, R282). -/
def State.takeCmd (s : State) (core : Nat) (c : MCmd) : State :=
  s.learn (.matrix core) (union c.known (s.acquired (.matrix core) [] 1))

/-- The wake-up of a drain, once its bytes are at their target: a store-release at `.pkg` of what the engine knows (R181). -/
def State.wakeUp (s : State) (core : Nat) (c : MCmd) (ids : List Nat) : State :=
  match c.target with
  | some (tgt, h, arg) =>
    if h = 0 then s
    else s.sendMsgAs c.ord c.phase .wake tgt core c.tid (jobOfTid c.tid) (wakeRecord c h arg)
      (some ⟨4, union ids (s.mx core).known, .matrix core⟩) true
  | none => s

/-- A drain into another core (R179): one that names its own core is a local one (R121, R184). -/
def MCmd.remote (c : MCmd) (core : Nat) : Bool := c.target.any fun t => t.1 != core

/-- The new flags of the queue's head, kept until it completes: a remote drain raises them with its completion. -/
def State.drainFlags (s : State) (core : Nat) (c : MCmd) (t : BitVec 2) : Flags := (drainData ((s.mx core).tile t) c.a c.rnd).2

/-- What the head command does now: none while it waits (R167). An `mcfg` with CLRF clears FAULT here, as its command is performed, not at issue
(R169, DESIGN CHOICE, log 115). -/
def State.perform (s : State) (core : Nat) (c : MCmd) : Option Performed :=
  if c.failed then some (s.skip core)
  else match c.instr with
    | .mcfg _ _ _ => some (s.modMx core fun e => { e with
        k := c.sub.k, acc := c.sub.acc, astr := c.sub.astr, bstr := c.sub.bstr, fault := e.fault && !c.clrf }, 0)
    | .mzero k t => some (s.modMx core (·.setTile t ⟨k, 0⟩), 0)
    | .mloadA k t _ => s.doLoad core c k t
    | .mlatchB _ => s.doLatch core c
    | .mring _ _ => some (s.modMx core fun e => { e with
        ringOn := c.target.isSome, succ := (coreAt (bits c.a 0 10)).getD 0, pred := c.target.elim 0 (·.1) }, 0)
    | .msum t _ => s.doSum core c t
    | .mscale t _ _ => some (s.doScale core c t)
    | .mma t fa _ _ => s.doMma core c t fa.toNat false
    | .mmaF64 t _ => s.doMma core c t 1 true
    | .outer t _ _ => c.routine.bind fun r => s.doOuter core c t r
    | .mdrain t _ _ =>
      if c.remote core then c.sent.bind fun ids => if s.drained ids then some (s.wakeUp core c ids, s.drainFlags core c t) else none
      else (s.doDrainLocal core c t).map fun (s, f) => (s.wakeUp core c [], f)
    | _ => none

/-- A remote drain at the head sends its near stores (R181). -/
def State.startDrain (s : State) (core : Nat) (c : MCmd) : Option State :=
  match c.instr, c.target, c.sent with
  | .mdrain t _ _, some (tgt, _, _), none =>
    if c.failed || !c.remote core then none
    else
      let x := (s.mx core).tile t
      let d := drainData x c.a c.rnd
      let (ids, s) := s.sendDrain core tgt (va56 c.a) c d.1 (drainBytes c.a x.kind)
      some (s.modMx core (·.modHead fun m => { m with sent := some ids }))
  | _, _, _ => none

/-- MATRIX_COMMAND_COMPLETE (R167): the head command is performed and completes; a remote drain first sends its stores and
completes once they are acknowledged. -/
def execMatrixCommandComplete (core : Nat) (s : State) : Host.Outcome State Fault Refusal :=
  .next (match (s.mx core).queue with
    | [] => s
    | c :: _ =>
      if s.gateShut core c then s
      else
        let s := s.takeCmd core c
        match s.startDrain core c with
        | some t => t
        | none => match s.perform core c with
          | none => s
          | some (t, f) => t.completeCmd core c f)

/-! ### The gate, the ring, release, the wake-up (R166, R178, R181, R230) -/

/-- What an acquire at `.core` brings an engine of a core whose command a token starts (R230, R279): what has arrived from the core's
parties, and the releases of its engines' completions. -/
def State.tokenAcquire (s : State) (core : Nat) : List Nat :=
  let rels := (s.core core).copyRel.toList ++ (s.mx core).rel.toList
  rels.foldl (fun acc r => union r.snap acc) (s.acquired (.matrix core) [] 1)

/-- MATRIX_GATE (R230): a head command that has not begun takes a token from counter MCTR. -/
def execMatrixGate (core : Nat) (s : State) : Host.Outcome State Fault Refusal :=
  let x := (s.core core).xbar
  let n := vget x.counters x.mctr.toNat 0
  .next (match (s.mx core).queue with
    | [] => s
    | c :: _ =>
      if s.gateShut core c && n != 0 then
        ((s.modCore core fun k => { k with xbar := { k.xbar with counters := vput k.xbar.counters x.mctr.toNat (n - 1) } }).modMx core
          fun e => { e.modHead (fun m => { m with token := true }) with known := union (s.tokenAcquire core) e.known }).wakeWaiters core
      else s)

/-- LATCH_STREAM (R178): a core takes the stream of its configured predecessor into its empty non-CUR bank. -/
def execLatchStream (core : Nat) (s : State) : Host.Outcome State Fault Refusal :=
  let e := s.mx core
  let p := s.mx e.pred
  let ok := e.ringOn && !(e.bank (!e.cur)).full && s.rotating e.pred && p.ringOn && p.succ == core && !p.streamAcked
  .next (if ok then
      (s.modMx core fun e => { e with latch := vput e.latch (!e.cur).toNat { p.bank p.cur with full := true } }).modMx e.pred
        fun q => { q with streamAcked := true }
    else s)

/-- LATCH_FLIP (R178): its non-CUR bank full and its own stream acknowledged, the engine flips CUR and the `mrot` completes. -/
def execLatchFlip (core : Nat) (s : State) : Host.Outcome State Fault Refusal :=
  let e := s.mx core
  .next (match e.queue with
    | c :: _ =>
      if s.rotating core && e.streamAcked && (e.bank (!e.cur)).full then
        (s.modMx core fun e => { e with latch := vput e.latch e.cur.toNat Latch.empty, cur := !e.cur, streamAcked := false }).completeCmd
          core c 0
      else s
    | [] => s)

/-- ENGINE_RELEASE (R166): a release that waits takes place once the queue is empty, or at once before an `mrot` in step 1 or 2. -/
def execEngineRelease (core : Nat) (s : State) : Host.Outcome State Fault Refusal :=
  let e := s.mx core
  .next (if e.releasing && (e.queue.isEmpty || s.rotating core) then
    s.modMx core fun e => { MatrixEngine.reset with known := e.known, rel := e.rel } else s)

/-- MDRAIN_WAKEUP (R181): the wake-up message reaches the target's mailbox; a core outside the job's core set discards it (R388). -/
def execMdrainWakeup (m : Nat) (s : State) : Host.Outcome State Fault Refusal :=
  .next (match s.msgs.find? fun x => x.id == m && x.kind == .wake with
    | none => s
    | some g =>
      if !s.msgReady g then s
      else
      let s := s.deliverMsg g
      if !(s.job g.job).desc.quads.contains (quadOf g.core) then s
      else
        let (t, s) := s.accept (dieOf g.core) { Trigger.of g.dwords .message g.job with rel := g.rel }
        (s.modCore g.core fun c => { c with mailbox := c.mailbox ++ [t] }).pulse g.core 18)

end Sys2Proof.Machine
end

