-- ==== Sys2Proof/Machine/Rings.lean ====
section
/-! DEFINITION. Rings: binding, advancing, reading their state, and the messages placed in them (R128-R135). -/

namespace Sys2Proof.Machine

/-! ### qset (R128, R129) -/

/-- The entry a create names in B (R128, R129). -/
def newRing (b : Word) : Ring where
  base := bits b 0 21
  cap := bits b 24 15 + 1
  slog := bits b 40 4
  msg := b.getLsbD 44
  head := 0
  tail := 0
  nacks := 0
  handles := 1
  marks := []
  held := []
  rel := []

/-- B of a create: its must-be-zero bits, BASE a multiple of 64, SLOG 3-10, and 6 for a message ring (R128). -/
def ringFieldsOk (b : Word) : Bool :=
  let r := newRing b
  bits b 21 3 == 0 && bits b 39 1 == 0 && bits b 45 19 == 0 && r.base % 64 == 0 && decide (3 ≤ r.slog) && decide (r.slog ≤ 10) &&
    (!r.msg || r.slog == 6)

/-- Whether a byte of the banks may hold a ring: a FIFO bank that is no deque bank (R128). -/
def Core.ringByte (c : Core) (off : Nat) : Bool :=
  decide (off < bankBytes) && c.role (off / 4096) == 2 && !(decide (c.dequeBase ≤ off / 4096) && decide (off / 4096 < c.dequeBase + c.dequeBanks))

/-- The first byte of a range that may not hold a ring: the range is tested bank by bank. -/
def Core.badRingByte (c : Core) (base n : Nat) : Option Nat :=
  ((base :: (List.range ((base % 4096 + n - 1) / 4096)).map fun i => (base / 4096 + i + 1) * 4096)).find? fun o => !c.ringByte o

/-- The binding of a handle of the issuing task released (R129). -/
def State.unbindRing (s : State) (explicit : Bool) (q : Nat) : State :=
  match vget s.me.q q none with
  | none => s
  | some r => (s.modRing r (dropHandle explicit)).onMe fun x => { x with q := vput x.q q none }

/-- A handle of the issuing task bound to an entry of its core. -/
def State.bindRing (s : State) (q entry : Nat) : State :=
  s.onMe fun x => { x with q := vput x.q q (some ⟨s.myCore, entry⟩) }

/-- `qset`, all of whose forms the registers select; the old binding of the handle is released before the entry is tested (R129, DEDUCED,
log 9), and a B that must be zero and is not traps ILLEGAL (DESIGN CHOICE, log 122). -/
def qsetBody (i : Instr) (q : BitVec 4) (a b : Gpr) (s : State) : Except Exit State := do
  let va := s.g a
  let vb := s.g b
  let entry := bits va 0 5
  let me : RingRef := ⟨s.myCore, entry⟩
  need (bits va 7 57 == 0 && !(va.getLsbD 5 && va.getLsbD 6)) (illegal i)
  if va.getLsbD 6 then do
    need (vb == 0) (illegal i)
    need (vget s.me.q q.toNat none).isSome (unbound false q.toNat)
    .ok ((s.unbindRing true q.toNat).retire 4)
  else if va.getLsbD 5 then do
    let s1 := s.unbindRing false q.toNat
    need ((s1.ring me).isNone && ringFieldsOk vb) (illegal i)
    let r := newRing vb
    match (s1.core s1.myCore).badRingByte r.base (r.cap * 2 ^ r.slog) with
    | some o => .error (.trap 4 s.openSub (BitVec.ofNat 64 o) none)
    | none => .ok (((s1.modRing me fun _ => some r).bindRing q.toNat entry).retire 4)
  else do
    need (vb == 0) (illegal i)
    let s1 := s.unbindRing false q.toNat
    need (s1.ring me).isSome (unbound false q.toNat)
    .ok (((s1.modRing me fun r => r.map fun r => { r with handles := r.handles + 1 }).bindRing q.toNat entry).retire 4)

/-- `qset` with an operand register in B: the create form (R129). -/
def execQsetCreate (q : BitVec 4) (a b : Gpr) (s : State) : Host.Outcome State Fault Refusal :=
  run s (qsetBody (.qsetCreate q a b) q a b s)

/-- `qset` with g0 in A and B: the attach form (R129). -/
def execQsetAttach (q : BitVec 4) (a b : Gpr) (s : State) : Host.Outcome State Fault Refusal :=
  run s (qsetBody (.qsetAttach q a b) q a b s)

/-- `qset` with g0 in B: the release form (R129). -/
def execQsetRelease (q : BitVec 4) (a b : Gpr) (s : State) : Host.Outcome State Fault Refusal :=
  run s (qsetBody (.qsetRelease q a b) q a b s)

/-! ### TAIL and its releases; messages (R133, R280) -/

/-- Tasks that wait at a ring test it again. -/
def State.wakeRing (s : State) (r : RingRef) : State := s.wakeWhere .ring fun _ x => x.q.toList.any (· == some r)

/-- TAIL carries a release beside those it carries; a newer release of one writer stands for its older ones (R131, R276, R280). -/
def Ring.carry (r : Ring) (rel : Option Release) : Ring :=
  { r with rel := rel.toList ++ r.rel.filter fun x => !rel.any fun y => y.writer == x.writer && y.scope == x.scope }

/-- TAIL moves on with a release (R131, R280). -/
def Ring.produce (r : Ring) (n : Nat) (rel : Option Release) : Ring := { r.carry rel with tail := r.tail + BitVec.ofNat 32 n }

/-- A message is refused: it leaves the network, and a negative acknowledgement goes to its sender. -/
def State.refuse (s : State) (m : Msg) : State :=
  ({ s with msgs := s.msgs.filter (·.id != m.id) } : State).sendMsg (.nack m.tid) m.fromCore m.core m.tid m.job [] none false

/-- Where a message of m slots goes in a ring now: the slots of its pad record and its first slot; none when it must wait. -/
def Ring.room (r : Ring) (m : Nat) : Option (Nat × BitVec 32) :=
  let t := r.cap - r.tail.toNat % r.cap
  if m ≤ t ∧ m ≤ r.free then some (0, r.tail)
  else if t < m ∧ t + m ≤ r.free then some (t, r.tail + BitVec.ofNat 32 t)
  else none

/-- A message placed (R133): its slots are written by the ring logic, the marks note its record and its pad, TAIL moves on with its release. -/
def State.placeMessage (s : State) (e : Msg) (h : RingRef) (r : Ring) (pad : Nat) (at_ : BitVec 32) : State :=
  let m := e.dwords.length / 8
  let view := (e.rel.map (·.snap)).getD []
  let s := (List.range m).foldl (fun (s : State) i =>
    s.hwWrite (.task e.tid e.fromCore) view e.rel (.bank h.core (r.slot (at_.toNat + i)))
      (bytesOfDwords ((e.dwords.drop (8 * i)).take 8)) []) s
  let pads := if pad = 0 then [] else [(r.tail, pad, true)]
  let r' : Ring := { r.carry e.rel with
    tail := at_ + BitVec.ofNat 32 m, marks := r.marks ++ pads ++ [(at_, m, false)], held := r.held.filter (·.1 != e.id) }
  ((s.deliverMsg e).modRing h fun _ => some r').wakeRing h

/-- A refusal by a ring (R133): NACKS goes up by 1. -/
def State.ringRefuses (s : State) (e : Msg) (h : RingRef) : State :=
  (s.refuse e).modRing h fun r => r.map fun r => { r with nacks := r.nacks + 1, held := r.held.filter (·.1 != e.id) }

/-- The ring a message is for, and its entry where it is a message ring. -/
def State.ringFor (s : State) (e : Msg) (entry : Nat) : Option Ring := (s.ring ⟨e.core, entry⟩).filter (·.msg)

/-- The oldest held messages of a ring tested again, in arrival order (R133): one whose time is over is refused, one that fits is placed, and the
first that must wait holds back those behind it. -/
def State.testHeld (h : RingRef) : List (Nat × Nat) → State → State
  | [], s => s
  | (id, since) :: l, s =>
    match s.msgs.find? (·.id == id), s.ring h with
    | some e, some r =>
      if since + (s.core h.core).ringwait.toNat ≤ s.cycle then State.testHeld h l (s.ringRefuses e h)
      else match r.room (e.dwords.length / 8) with
        | some (pad, at_) => State.testHeld h l (s.placeMessage e h r pad at_)
        | none => s
    | _, _ => s

/-- The messages held for a ring are tested (R133). -/
def State.retestRing (s : State) (h : RingRef) : State := State.testHeld h (((s.ring h).map (·.held)).getD []) s

/-! ### qadv (R131, R216) -/

/-- The marks of a message ring after n records have been passed, and the new HEAD (R131). -/
def passRecords : Nat → BitVec 32 → List (BitVec 32 × Nat × Bool) → BitVec 32 × List (BitVec 32 × Nat × Bool)
  | 0, h, l => (h, l)
  | _, h, [] => (h, [])
  | n + 1, _, (st, m, pad) :: r =>
    if pad then passRecords (n + 1) (st + BitVec.ofNat 32 m) r else passRecords n (st + BitVec.ofNat 32 m) r

/-- HEAD of a ring moves over n slots or n records (R131). -/
def Ring.advance (n : Nat) (r : Ring) : Ring :=
  if r.msg then
    let p := passRecords n r.head r.marks
    { r with head := p.1, marks := p.2 }
  else { r with head := r.head + BitVec.ofNat 32 n }

/-- `qadv.c` (R131): the messages held for the ring are tested at the HEAD change (R133). -/
def execQadvC (q : BitVec 4) (b : Gpr) (s : State) : Host.Outcome State Fault Refusal :=
  run s do
    let h ← s.ringHandle q.toNat
    let r := s.ringOf h
    let n := (s.g b).toNat
    need (decide (1 ≤ n) && decide (n ≤ r.cap)) (unbound false q.toNat)
    need (decide (n ≤ if r.msg then r.records.length else r.filled)) (.wait .ring)
    .ok ((((s.modRing h fun _ => some (r.advance n)).wakeRing h).retestRing h).retire 4)

/-- `qadv.p`: a release at `.quad` precedes the new TAIL; a copy that fills the ring holds it back (R131, R216). -/
def execQadvP (q : BitVec 4) (b : Gpr) (s : State) : Host.Outcome State Fault Refusal :=
  run s do
    let h ← s.ringHandle q.toNat
    let r := s.ringOf h
    let n := (s.g b).toNat
    need (decide (1 ≤ n) && decide (n ≤ r.cap)) (unbound false q.toNat)
    need (!r.msg) (illegal (.qadvP q b))
    need (decide (n ≤ r.free) && !s.ringBusy h) (.wait .ring)
    let fin (u : State) : Except Exit State :=
      .ok (((u.modRing h fun r => r.map (·.produce n u.me.view.rel)).wakeRing h).retire 4)
    s.released 2 fin

/-! ### qstat (R132) -/

/-- The status word of a ring (R132). -/
def Ring.status (r : Ring) : Word :=
  BitVec.ofNat 64 (min r.nacks 255 * 2 ^ 56 + r.filled % 2 ^ 16 * 2 ^ 40 + r.free % 2 ^ 16 * 2 ^ 24 + r.slot r.readSlot % 2 ^ 21)

/-- `qstat` (R132). -/
def execQstat (d : Gpr) (q : BitVec 4) (s : State) : Host.Outcome State Fault Refusal :=
  run s do
    let h ← s.ringHandle q.toNat
    .ok ((s.setG d (s.ringOf h).status).retire 4)

end Sys2Proof.Machine
end

