-- ==== Sys2Proof/Machine/CopyRun.lean ====
section
/-! DEFINITION. The copy engine at work: units, watermarks, freezes, completion and abort, inbound entries, strips and multicasts
(R205-R219, R222, R230, R271, R282). -/

namespace Sys2Proof.Machine

/-! ### The next unit (R205, R216, R219) -/

/-- The slot of a core. -/
def State.copySlot (s : State) (core n : Nat) : CopySlot := vget (s.core core).slots n CopySlot.reset

/-- A part of a run: its number, and the destination bytes, or a stream's elements, from a first to before a last. -/
structure Piece where
  run : Nat
  lo : Nat
  hi : Nat
  deriving DecidableEq, Repr

/-- n places from one on, cut at the ends of the runs. -/
def splitRuns (per : Nat) : Nat → Nat → Nat → List Piece
  | 0, _, _ => []
  | f + 1, n, pos =>
    if n = 0 then []
    else
      let m := min n (per - pos % per)
      ⟨pos / per, pos % per, pos % per + m⟩ :: splitRuns per f (n - m) (pos + m)

/-- The elements of a stream (R219). -/
def Copy.elements (k : Copy) : Nat := k.pat.run * k.pat.runs

/-- The strips that hold a stream's elements. -/
def Copy.strips (k : Copy) : Nat := (k.elements + 255) / 256

/-- The unit at a place of the enumeration: a slot of a ring, a strip of a stream, or the part of a run within one aligned 64-byte block
(R205, R216, R219). -/
def State.unitAt (s : State) (k : Copy) (pos : Nat) : List Piece :=
  match k.stream, k.ring with
  | some _, _ => splitRuns k.pat.run 256 (min 256 (k.elements - 256 * pos)) (256 * pos)
  | none, some r => splitRuns k.runBytes (2 ^ (s.ringOf r).slog) (2 ^ (s.ringOf r).slog) pos
  | none, none =>
    let off := pos % k.runBytes
    let run := pos / k.runBytes
    [⟨run, off, min k.runBytes (off + 64 - (k.dstAt 0 run + off) % 64)⟩]

/-- Whether every unit has landed. -/
def Copy.finished (k : Copy) : Bool := if k.stream.isSome then decide (k.strips ≤ k.landed) else decide (k.total ≤ k.landed)

/-- The bits a destination takes at once: a block, else an element (R203). -/
def groupBits (f : Nat × Nat) : Nat := if isBlock f.1 then 8 * blockBytes f.1 f.2 else fmtWidth f.1

/-- The elements encoded at once (R203). -/
def groupLen (f : Nat × Nat) : Nat := if isBlock f.1 then blockLen f.1 f.2 else 1

/-- The groups that meet the destination bytes of a piece. -/
def Copy.groups (k : Copy) (p : Piece) : Nat × Nat :=
  let w := groupBits k.dfmt
  (8 * p.lo / w, (8 * p.hi + w - 1) / w)

/-- The source elements of a piece: those that meet it, whole blocks of a block-scaled destination (R203). -/
def Copy.elemRange (k : Copy) (p : Piece) : Nat × Nat :=
  if k.stream.isSome then (p.lo, p.hi)
  else
    let g := k.groups p
    (g.1 * groupLen k.dfmt, min k.pat.run (g.2 * groupLen k.dfmt))

/-- The first source byte of some elements of a run, and how many bytes hold them (R30, R40). -/
def Copy.srcSpan (k : Copy) (e0 e1 : Nat) : Nat × Nat :=
  let f := k.sfmt
  if isBlock f.1 && k.stream != some 0 then
    let l := blockLen f.1 f.2
    let b := blockBytes f.1 f.2
    (e0 / l * b, (e1 + l - 1) / l * b - e0 / l * b)
  else
    let w := k.srcWidth
    (w * e0 / 8, (w * e1 + 7) / 8 - w * e0 / 8)

/-- The source bytes of a piece within its run: its own bytes where nothing is converted (R203). -/
def Copy.srcBytes (k : Copy) (p : Piece) : Nat × Nat :=
  if k.conv || k.stream.isSome then
    let e := k.elemRange p
    k.srcSpan e.1 e.2
  else (p.lo, p.hi - p.lo)

/-- A piece holds a receiver's own part: a run of the last outer index, or the last element where there is no outer dimension (R217). -/
def Copy.ownPiece (k : Copy) (p : Piece) : Bool :=
  k.multi.any (·.own) &&
    if k.pat.dims.isEmpty then decide (k.pat.run ≤ (k.elemRange p).2) else decide (p.run / k.pat.top.2.2 = k.pat.top.1 - 1)

/-- The source element that a receiver takes in place of the last one (R217, DEDUCED, log 31). -/
def Copy.ownElem (k : Copy) (recv : Nat) (p : Piece) : Option Nat :=
  if k.pat.dims.isEmpty && k.ownPiece p then some (k.pat.run - 1 + recv) else none

/-- The byte ranges of a run of the source that a piece reads. -/
def Copy.srcParts (k : Copy) (recv : Nat) (p : Piece) : List (Nat × Nat) :=
  k.srcBytes p :: ((k.ownElem recv p).map fun e => k.srcSpan e (e + 1)).toList

/-- A byte of a run of the source. -/
def Copy.srcLoc (k : Copy) (core recv run off : Nat) : Loc :=
  let a := (k.srcAt recv run + off) % 2 ^ 56
  if k.ssp = 0 then .glob (spaceOf k.asid a) a else if k.ssp = 1 then .bank core a else .bank k.scoord a

/-- The core of a receiver, or of a local or near destination. -/
def Copy.dstCore (k : Copy) (core recv : Nat) : Nat :=
  match k.multi with
  | some m => (m.cores[recv]?).getD core
  | none => if k.dsp = 1 then core else k.dcoord

/-- A byte of a run of the destination, for a receiver. -/
def Copy.dstLoc (k : Copy) (core recv run off : Nat) : Loc :=
  let a := (k.dstAt recv run + off) % 2 ^ 56
  if k.dsp = 0 then .glob (spaceOf k.asid a) a else .bank (k.dstCore core recv) a

/-! ### What holds a unit back (R207, R210, R212, R216, R230, R271) -/

/-- KIND and address of a failed access of the engine: an invalid page is KIND 2 (R212, R327). -/
def freezeOf (missing : Nat) (r : Except Exit Unit) : Option (Nat × Nat) :=
  match r with
  | .ok _ => none
  | .error (.absent _ va _ _) => some (missing, va % 2 ^ 56)
  | .error (.trap 6 _ v _) => some (3, v.toNat)
  | .error (.mismatch l _) => some (3, l.addr / 64 * 64)
  | .error (.trap _ _ v _) => some (2, v.toNat)
  | .error _ => none

/-- A part of the source of a piece fails: page, permission or role, and, where the data is consumed, integrity (R204, R212, R333). -/
def State.srcFault (s : State) (core : Nat) (k : Copy) (recv run : Nat) (b : Nat × Nat) : List (Option (Nat × Nat)) :=
  let l := k.srcLoc core recv run b.1
  let place : Option (Nat × Nat) := match l with
    | .glob a va => freezeOf 0 (s.checkPages core a true false false 0 va b.2)
    | .bank c off => ((s.core c).refused false off b.2).map fun o => (2, o)
  [place, if (k.conv || k.stream.isSome) && k.multi.isNone then freezeOf 0 (s.checkSectors l b.2) else none]

/-- The global destination of a piece fails (R212). -/
def State.dstFault (s : State) (core : Nat) (k : Copy) (p : Piece) : Option (Nat × Nat) :=
  if k.stream.isSome then none
  else match k.dstLoc core 0 p.run p.lo with
    | .glob a va => freezeOf 1 (s.checkPages core a false true false 1 va (p.hi - p.lo))
    | .bank _ _ => none

/-- The receivers whose source differs: those of a multicast's own part, else one (R217). -/
def Copy.readers (k : Copy) (p : Piece) : List Nat := if k.ownPiece p then k.receivers else [0]

/-- What a unit reads: each reader's part of a run. -/
def Copy.reads (k : Copy) (ps : List Piece) : List (Nat × Nat × (Nat × Nat)) :=
  ps.flatMap fun p => (k.readers p).flatMap fun r => (k.srcParts r p).map fun b => (r, p.run, b)

/-- Every failure of a unit. -/
def State.unitFaults (s : State) (core : Nat) (k : Copy) (ps : List Piece) : List (Nat × Nat) :=
  ((k.reads ps).flatMap (fun x => s.srcFault core k x.1 x.2.1 x.2.2) ++ ps.map (s.dstFault core k)).filterMap id

/-- KIND and address where a unit fails (R212). -/
def State.unitFault (s : State) (core : Nat) (k : Copy) (ps : List Piece) : Option (Nat × Nat) := (s.unitFaults core k ps).head?

/-- Every receiver has its inbound entry (R207). -/
def State.granted (s : State) (core n : Nat) (k : Copy) : Bool :=
  k.targets.all fun r => (s.core r.1).inbound.any fun e => e.core == core && e.slot == n && e.recv == r.2

/-- A source byte of the unit waits for another copy's watermark (R207). -/
def State.srcWaits (s : State) (core : Nat) (k : Copy) (ps : List Piece) : Bool :=
  (k.reads ps).any fun x =>
    match k.srcLoc core x.1 x.2.1 x.2.2.1 with
    | .bank c off => s.watchedRange c off x.2.2.2
    | .glob _ _ => false

/-- Two destinations lie in one space. -/
def sameSpace : Loc → Loc → Bool
  | .glob a _, .glob b _ => a == b
  | .bank c _, .bank d _ => c == d
  | _, _ => false

/-- The unit meets bytes of an earlier active copy of its engine that the earlier copy has not passed (R210). -/
def State.overlaps (s : State) (core : Nat) (k : Copy) (ps : List Piece) : Bool :=
  (s.core core).slots.toList.any fun z => z.copy.any fun y =>
    decide (y.order < k.order) && y.stream.isNone && y.ring.isNone && k.ring.isNone && k.stream.isNone &&
      ps.any fun p => k.receivers.any fun r => y.receivers.any fun q =>
        let a := (k.dstLoc core r p.run p.lo).addr
        sameSpace (k.dstLoc core r p.run p.lo) (y.dstLoc core q 0 0) && decide (a < (y.range q).2) &&
          decide (y.wmkAt q y.landed < a + (p.hi - p.lo))

/-- The first unit from a place on that has not landed and that no earlier copy holds back; else the one at the watermark: a unit held back
does not delay the others (R210). -/
def State.firstFree (s : State) (core : Nat) (k : Copy) : Nat → Nat → Nat × List Piece
  | 0, _ => (k.landed, s.unitAt k k.landed)
  | n + 1, pos =>
    let ps := s.unitAt k pos
    if k.total ≤ pos then (k.landed, s.unitAt k k.landed)
    else if k.ahead.any (·.1 == pos) || s.overlaps core k ps then
      s.firstFree core k n (pos + (ps.map fun p => p.hi - p.lo).foldl (· + ·) 0)
    else (pos, ps)

/-- What the copy lands next, and its place (R205, R210, R216, R219). -/
def State.nextUnit (s : State) (core : Nat) (k : Copy) : Nat × List Piece :=
  s.firstFree core k (if k.stream.isSome || k.ring.isSome then 0 else k.total) k.landed

/-- A store of the core's own tasks to the unit's destination, issued before the copy was accepted, has not arrived: the copy's value wins
(R210). -/
def State.olderStores (s : State) (core : Nat) (k : Copy) (ps : List Piece) : Bool :=
  k.stream.isNone && k.ring.isNone && (s.path ++ (s.tasks.filter fun e => coreOf e.1 == core).flatMap (·.2.sb)).any fun w =>
    decide (w.id < k.order) && (match w.party with | .task _ c => c == core | _ => false) &&
      ps.any fun p => k.receivers.any fun r => w.meets (k.dstLoc core r p.run p.lo) (p.hi - p.lo)

/-- A unit may be read and land: the gate and the request are passed, entries granted, no wait, room in the ring (R207, R210, R216,
R217, R230, R271). -/
def State.unitReady (s : State) (core n : Nat) (k : Copy) (ps : List Piece) : Bool :=
  !k.finished && k.frozen.isNone && !k.gated && k.requested && s.granted core n k && !s.srcWaits core k ps && !s.overlaps core k ps &&
    !s.olderStores core k ps && k.ring.all fun r => (s.ringOf r).free != 0

/-! ### Reading and converting a unit (R203, R211) -/

/-- Source bytes of a run read by the engine, as a number. -/
def State.copyRead (s : State) (core : Nat) (k : Copy) (recv run off n : Nat) : Nat × State :=
  let l := k.srcLoc core recv run off
  let s := match l with
    | .glob a va => s.fillPages core a va n
    | .bank _ _ => s
  s.engineBytes (.copy core) l n

/-- The draw bits of an element: e is its index within its run (R203). -/
def Copy.draw (k : Copy) (e : Nat) : Nat := if k.mode = 5 then k.rnd.draw 0 e else 0

/-- Elements [e0, ..) of a run from their source bytes: the bytes and the index of the first as a decoder takes them. -/
def Copy.aligned (k : Copy) (e0 data : Nat) : Nat × Nat :=
  if isBlock k.sfmt.1 then (data, e0 % blockLen k.sfmt.1 k.sfmt.2) else (data / 2 ^ (k.srcWidth * e0 % 8), 0)

/-- One converted element of a destination that is not block-scaled, from its bytes and its index in them (R53, R203). -/
def Copy.convElem (k : Copy) (d : Nat × Nat) (e : Nat) : Nat × Flags :=
  convMem k.sfmt.1 k.sfmt.2 d.1 d.2 k.dfmt.1 (k.pat.cvt == 1) k.mode (k.draw e)

/-- One encoded group of the destination: an element, or a block as `vst` encodes it (R160, R203); past the run's end there is nothing.
`src` gives the bytes of an element and its index in them. -/
def Copy.convGroup (k : Copy) (src : Nat → Nat × Nat) (g : Nat) : Nat × Flags :=
  if isBlock k.dfmt.1 then
    let n := groupLen k.dfmt
    let xs := (List.range n).map fun j =>
      if k.pat.run ≤ g * n + j then (FV.fin false 0 0, 0) else memElem k.sfmt.1 k.sfmt.2 (src (g * n + j)).1 (src (g * n + j)).2
    let b := storeBlock k.dfmt.1 k.mode (fun j => k.draw (g * n + j)) (xs.map (·.1))
    (b.1, orFlags b.2 ||| orFlags (xs.map (·.2)))
  else if k.pat.run ≤ g then (0, 0)
  else k.convElem (src g) g

/-- The groups of a run, numbered over the copy. -/
def Copy.groupNum (k : Copy) (run g : Nat) : Nat := run * (8 * k.runBytes + 1) + g

/-- What a piece lands: its bytes as a number, the flags, and the last group encoded. -/
structure PieceData where
  val : Nat
  flags : Flags
  cache : Option (Nat × Nat)
  deriving DecidableEq, Repr

/-- The element that stands in the last one's place for a receiver: its bytes and its index in them (R217). -/
def State.ownRead (s : State) (core : Nat) (k : Copy) (recv : Nat) (p : Piece) : Option (Nat × Nat) × State :=
  match k.ownElem recv p with
  | none => (none, s)
  | some e =>
    let b := k.srcSpan e (e + 1)
    let (v, s) := s.copyRead core k recv p.run b.1 b.2
    (some (k.aligned e v), s)

/-- The bit of a run at which the code of an element stands (R30, R40). -/
def codeBit (f bl i : Nat) : Nat :=
  if isBlock f then 8 * (i / blockLen f bl * blockBytes f bl + 2) + fmtWidth f * (if f = 27 then i % blockLen f bl / 8 else i % blockLen f bl)
  else fmtWidth f * i

/-- The bytes of a raw piece with the last element's code replaced by a receiver's own (R217). -/
def Copy.withOwn (k : Copy) (p : Piece) (v : Nat) (own : Option (Nat × Nat)) : Nat :=
  match own with
  | none => v
  | some d =>
    let b := codeBit k.dfmt.1 k.dfmt.2 (k.pat.run - 1)
    (v * 2 ^ (8 * p.lo) % 2 ^ b + memCode k.sfmt.1 k.sfmt.2 d.1 d.2 * 2 ^ b) / 2 ^ (8 * p.lo) % 2 ^ (8 * (p.hi - p.lo))

/-- The bytes of a converted piece: the group that the last unit ended in is not encoded again. -/
def State.convPiece (s : State) (core : Nat) (k : Copy) (recv : Nat) (p : Piece) : PieceData × State :=
  let w := groupBits k.dfmt
  let g := k.groups p
  let held := k.cache.filter fun c => c.1 == k.groupNum p.run g.1
  let g0 := if held.isSome then g.1 + 1 else g.1
  let e0 := g0 * groupLen k.dfmt
  let e1 := min k.pat.run (g.2 * groupLen k.dfmt)
  let sp := k.srcSpan e0 e1
  let (data, s) := if e0 < e1 then s.copyRead core k recv p.run sp.1 sp.2 else (0, s)
  let d := k.aligned e0 data
  let (own, s) := s.ownRead core k recv p
  let src (e : Nat) : Nat × Nat := if e = k.pat.run - 1 then own.getD (d.1, d.2 + (e - e0)) else (d.1, d.2 + (e - e0))
  let cs := (List.range (g.2 - g0)).map fun j => k.convGroup src (g0 + j)
  let all := (held.map (·.2)).toList ++ cs.map (·.1)
  (⟨pieces w all / 2 ^ (8 * p.lo - w * g.1) % 2 ^ (8 * (p.hi - p.lo)), orFlags (cs.map (·.2)),
    all.getLast?.map fun c => (k.groupNum p.run (g.2 - 1), c)⟩, s)

/-- The data of a piece for a reader: converted, or the bytes as they are; whether it lands poisoned (R203, R211, R333). -/
def State.pieceData (s : State) (core : Nat) (k : Copy) (recv : Nat) (p : Piece) : PieceData × Bool × State :=
  let b := k.srcBytes p
  let (bad, s) := (k.srcParts recv p).foldl (fun (bad, s) b =>
    let (x, s) := s.takeUnsound (k.srcLoc core recv p.run b.1) b.2
    (bad || x, s)) (false, s)
  if k.conv then
    let (d, s) := s.convPiece core k recv p
    (d, bad, s)
  else
    let (v, s) := s.copyRead core k recv p.run b.1 b.2
    let (own, s) := s.ownRead core k recv p
    (⟨k.withOwn p v own, 0, none⟩, bad, s)

/-! ### Landing (R205, R208, R333) -/

/-- The engine writes bytes; in a core's banks they follow what has landed there before (R208, R282). -/
def State.copyWrite (s : State) (core : Nat) (l : Loc) (v n : Nat) (bad : Bool) : State :=
  let c := s.core core
  let before := match l with
    | .bank _ _ => (s.meeting l n).map (·.id)
    | .glob _ _ => []
  let s := (s.engineWrite (.copy core) (union before c.copyKnown) c.copyRel l v n).2
  if bad then s.poisonRange l n else s

/-- Bytes land at a location; a near place that refuses them drops them (R123, R204). -/
def State.landAt (s : State) (core : Nat) (k : Copy) (l : Loc) (v n : Nat) (bad : Bool) : State :=
  match l with
  | .bank c off => if c ≠ core ∧ ((s.core c).refused true off n).isSome then s.nearDrop c k.tid else s.copyWrite core l v n bad
  | .glob _ _ => s.copyWrite core l v n bad

/-- A piece lands for every receiver; a common piece is read once (R217). -/
def State.landPiece (s : State) (core : Nat) (k : Copy) (p : Piece) : PieceData × State :=
  let rs := k.readers p
  let place (s : State) (r : Nat) (d : PieceData) (bad : Bool) : State :=
    s.landAt core k (k.dstLoc core r p.run p.lo) d.val (p.hi - p.lo) bad
  if rs.length = 1 then
    let (d, bad, s) := s.pieceData core k 0 p
    (d, k.receivers.foldl (fun s r => place s r d bad) s)
  else
    let (f, s) := rs.foldl (fun (f, s) r =>
      let (d, bad, s) := s.pieceData core k r p
      (f ||| d.flags, place s r d bad)) ((0 : Flags), s)
    (⟨0, f, none⟩, s)

/-- The watermark register of a slot moves; its crossing is pulsed and waits are tested again (R206, R228). -/
def State.moveWmk (s : State) (core n a : Nat) : State :=
  let old := (s.copySlot core n).wmk.addr
  let new := BitVec.ofNat 56 a
  let x := vget (s.core core).xbar.cross n 0
  let s := s.modSlot core n fun k => { k with wmk := { k.wmk with addr := new } }
  let s := if n < 8 ∧ old.ult x ∧ x.ule new then s.pulse core (8 + n) else s
  s.wakeWhere .watermark fun _ _ => true

/-- The inbound entries of a copy moved on (R207). -/
def State.moveInbound (s : State) (core n : Nat) (k : Copy) : State :=
  k.targets.foldl (fun s r => s.modCore r.1 fun c => { c with inbound := c.inbound.map fun e =>
    if e.core = core ∧ e.slot = n ∧ e.recv = r.2 then { e with wmk := k.wmkAt r.2 k.landed } else e }) s

/-- The copy of a slot replaced. -/
def State.setCopy (s : State) (core n : Nat) (k : Copy) : State := s.modSlot core n fun z => { z with copy := some k }

/-- The landed bytes pass over the units that landed ahead (R210). -/
def Copy.passAhead : Nat → Copy → Copy
  | 0, k => k
  | n + 1, k => match k.ahead.find? (·.1 == k.landed) with
    | none => k
    | some a => Copy.passAhead n { k with landed := k.landed + a.2, ahead := k.ahead.filter (·.1 != a.1) }

/-- A unit of n bytes at a place has landed (R205, R210). -/
def Copy.count (k : Copy) (pos n : Nat) : Copy :=
  if pos = k.landed then Copy.passAhead k.ahead.length { k with landed := k.landed + n } else { k with ahead := (pos, n) :: k.ahead }

/-- The lines that a unit of a multicast reads (R271). -/
def State.unitLines (s : State) (core : Nat) (k : Copy) : List Nat :=
  if k.multi.isNone || k.finished then []
  else ((k.reads (s.nextUnit core k).2).flatMap fun x =>
    match k.srcLoc core x.1 x.2.1 x.2.2.1 with
    | .glob a va => (List.range ((va % 256 + x.2.2.2 + 255) / 256)).map fun i => lineKey a (va + 256 * i)
    | .bank _ _ => []).eraseDups

/-- A copy leaves the merge entries of its lines but those it goes on with; an entry with none left closes (R271). -/
def State.leaveMerges (s : State) (core n : Nat) (keep : List Nat) : State :=
  { s with merges := s.merges.map fun e => (e.1, (e.2.map fun m =>
      if keep.contains m.1 then m else (m.1, m.2.filter (· != (core, n)))).filter (!·.2.isEmpty)) }

/-- A multicast that goes on to another line needs it requested (R271). -/
def State.nextLines (s : State) (core n : Nat) (had : List Nat) (k : Copy) : State :=
  if k.multi.isNone then s
  else
    let l := s.unitLines core k
    (s.leaveMerges core n (l.filter had.contains)).setCopy core n { k with requested := l.all had.contains }

/-- A unit of memory lands; while the copy is aborted its watermark stays (R205, R214). -/
def State.landUnit (s : State) (core n : Nat) (k : Copy) (pos : Nat) (p : Piece) : State :=
  let had := s.unitLines core k
  let (d, s) := s.landPiece core k p
  let k := { k with flags := k.flags ||| d.flags, cache := d.cache }.count pos (p.hi - p.lo)
  let s := (s.setCopy core n k).nextLines core n had k
  if k.aborting then s
  else
    let s := s.moveInbound core n k
    if k.multi.isSome then s.wakeWhere .watermark fun _ _ => true else s.moveWmk core n (k.wmkAt 0 k.landed)

/-- A slot of a ring lands whole, then TAIL moves with a release at `.quad` (R131, R216, R280). -/
def State.landSlot (s : State) (core n : Nat) (k : Copy) (r : RingRef) (ps : List Piece) : State :=
  let ring := s.ringOf r
  let size := 2 ^ ring.slog
  let (v, bad, f, _, s) := ps.foldl (fun (v, bad, f, at_, s) p =>
    let (d, b, s) := s.pieceData core k 0 p
    (v + d.val * 2 ^ (8 * at_), bad || b, f ||| d.flags, at_ + (p.hi - p.lo), s)) (0, false, (0 : Flags), 0, s)
  let s := s.copyWrite core (.bank r.core (ring.slot ring.tail.toNat)) v size bad
  let k := { k with landed := k.landed + size, flags := k.flags ||| f }
  let rel : Release := ⟨2, (s.core core).copyKnown, .copy core⟩
  let s := (s.setCopy core n k).modRing r fun x => x.map (·.produce 1 (some rel))
  (s.wakeRing r).moveWmk core n (k.landed / size)

/-- UNIT_LAND (R205): the next unit of an active copy is read, converted and lands; a replicated line is withdrawn first, and
what the package sent before to a peer page goes before it (R270, R342). -/
def execUnitLand (core slot : Nat) (s : State) : Host.Outcome State Fault Refusal :=
  .next (match (s.copySlot core slot).copy with
    | none => s
    | some k =>
      let u := s.nextUnit core k
      if k.stream.isSome || !s.unitReady core slot k u.2 || (s.unitFault core k u.2).isSome then s
      else match k.ring, u.2 with
        | some r, ps => if k.aborting then s else s.landSlot core slot k r ps
        | none, [p] =>
          let l := k.dstLoc core 0 p.run p.lo
          if s.replicated l then s.withdrawLoc l else if s.behindSwitch l then s else s.landUnit core slot k u.1 p
        | none, _ => s)

/-! ### Gate, request and inbound entries (R207, R217, R230, R271) -/

/-- COPY_GATE (R229, R230): the copy takes a token from counter CCTR, after the matrix gate, and acquires the completions it stands for. -/
def execCopyGate (core slot : Nat) (s : State) : Host.Outcome State Fault Refusal :=
  let x := (s.core core).xbar
  let n := vget x.counters x.cctr.toNat 0
  .next (match (s.copySlot core slot).copy with
    | none => s
    | some k =>
      if k.gated && n != 0 && !(s.core core).matrixWants x.cctr.toNat then
        ((s.modCore core fun c => { c with
          xbar := { c.xbar with counters := vput c.xbar.counters x.cctr.toNat (n - 1) },
          copyKnown := union (s.tokenAcquire core) c.copyKnown }).setCopy core slot { k with gated := false }).wakeWaiters core
      else s)

/-- A request for a line at its home slice joins the line's open merge entry, or opens one while fewer than 16 are open; else it is served
separately (R271). -/
def State.joinMerge (s : State) (core n key : Nat) : State :=
  let sl := s.homeSlice (keyAsid key) (keyVa key)
  let es := tget s.merges sl []
  if es.any (·.1 == key) then
    { s with merges := tput s.merges sl (es.map fun m => if m.1 = key ∧ !m.2.contains (core, n) then (m.1, m.2 ++ [(core, n)]) else m) }
  else if es.length < 16 then { s with merges := tput s.merges sl (es ++ [(key, [(core, n)])]) }
  else s

/-- MULTICAST_REQUEST (R271): the fetch of the next unit's lines reaches their home slices, one request for all receivers; joining changes
no byte. -/
def execMulticastRequest (core slot : Nat) (s : State) : Host.Outcome State Fault Refusal :=
  .next (match (s.copySlot core slot).copy with
    | some k => if k.multi.isSome && !k.requested then
        ((s.unitLines core k).foldl (fun s key => s.joinMerge core slot key) s).setCopy core slot { k with requested := true } else s
    | none => s)

/-- MULTICAST_ACKNOWLEDGEMENT (R217): the submitter's watermark is the lowest of the receivers'. -/
def execMulticastAcknowledgement (core slot receiver : Nat) (s : State) : Host.Outcome State Fault Refusal :=
  .next (match (s.copySlot core slot).copy with
    | none => s
    | some k => match k.multi with
      | none => s
      | some m =>
        if k.aborting || (m.acked[receiver]?).all (· == k.landed) then s
        else
          let m := { m with acked := lset m.acked receiver k.landed }
          let ws := m.acked.zipIdx.map fun (a, r) => k.wmkAt r a
          (s.setCopy core slot { k with multi := some m }).moveWmk core slot (ws.foldl min ((ws.head?).getD 0)))

/-- The range an inbound entry watches. -/
def State.inboundOf (s : State) (w : Nat × Nat × Nat) : Option Inbound :=
  (s.copySlot w.1 w.2.1).copy.map fun k => ⟨w.1, w.2.1, w.2.2, (k.range w.2.2).1, (k.range w.2.2).2, k.wmkAt w.2.2 k.landed⟩

/-- INBOUND_ENTRY_GRANT (R207): the oldest request takes one of the core's eight entries. -/
def execInboundEntryGrant (core : Nat) (s : State) : Host.Outcome State Fault Refusal :=
  let c := s.core core
  .next (match c.inboundWait with
    | [] => s
    | w :: r =>
      if 8 ≤ c.inbound.length then s
      else s.modCore core fun c => { c with inboundWait := r, inbound := c.inbound ++ (s.inboundOf w).toList })

/-- The inbound entries and requests of a slot's copy are gone. -/
def State.dropInbound (s : State) (core n : Nat) (k : Copy) : State :=
  k.targets.foldl (fun s r => s.modCore r.1 fun c => { c with
    inbound := c.inbound.filter fun e => !(e.core == core && e.slot == n && e.recv == r.2),
    inboundWait := c.inboundWait.filter fun e => !(e.1 == core && e.2.1 == n && e.2.2 == r.2) }) s

/-! ### Completion and abort (R211, R214, R215, R218) -/

/-- A release joins a task's mailbox: a newer one of its writer stands for the older ones of its batch. -/
def Task.mailed (x : Task) (batch : Nat) (r : Release) : Task :=
  { x with mail := (batch, r) :: x.mail.filter fun m => !(m.1 == batch && m.2.writer == r.writer && m.2.scope == r.scope) }

/-- A copy leaves its batch, aborted or not, with the engine's release (R215, R282). -/
def Task.finishCopy (k : Copy) (aborted : Bool) (rel : Release) (x : Task) : Task :=
  if k.batch = 0 then x
  else
    let x := x.mailed k.batch rel
    let x := if aborted then { x with aborted := min (x.aborted + 1) 65535 } else x
    if k.batch = x.batchSeq then { x with batchOpen := x.batchOpen - 1 }
    else { x with batches := (x.batches.map fun b => if b.1 = k.batch then (b.1, b.2 - 1) else b).filter (·.2 != 0) }

/-- The matrix command of a copy (R218): checked now against the submitted state; none while the queue does not take it. It rounds as the
`cpy.m` did at its issue (R47, R55, DEDUCED, log 50). -/
def State.submitWord (s : State) (core : Nat) (k : Copy) (aborted : Bool) : Option State :=
  match k.mword with
  | none => some s
  | some (i, a, o) =>
    let e := s.mx core
    if e.owner.isNone then some s
    else if !e.takes then none
    else
      let v := if aborted || !e.heldBy o then none else (checkCmd (s.core core) e.sub i a).toOption
      let c : MCmd := { mkCmd i a Task.empty e.sub with
        rnd := { k.rnd with pos := k.rnd.pos + BitVec.ofNat 52 k.draws }, tid := k.tid, known := (s.core core).copyKnown,
        failed := v.isNone }
      some (s.modMx core fun e => e.accept c (v.getD e.sub))

/-- A copy leaves its slot, which keeps its last value; the engine makes a release at the copy's scope (R206, R211, R214, R282). -/
def State.leaveSlot (s : State) (core n : Nat) (k : Copy) (aborted : Bool) : State :=
  let s := (s.dropInbound core n k).leaveMerges core n []
  let rel : Release := ⟨copyScope k.ssp k.dsp, s.knownOf (.copy core), .copy core⟩
  let s := s.modCore core fun c => { c with copyRel := some rel }
  let s := s.modSlot core n fun z => { z with copy := none, wmk := { z.wmk with act := false, frz := false, abt := aborted } }
  let s := (s.modByTid k.tid (Task.finishCopy k aborted rel)).raiseFor k.tid core k.flags
  let s := match k.ring with
    | some r => s.wakeRing r
    | none => s
  (s.refillStreams core).wakeWhere .watermark fun _ _ => true

/-- COPY_COMPLETE (R211): every unit has landed, every receiver has acknowledged it. -/
def execCopyComplete (core slot : Nat) (s : State) : Host.Outcome State Fault Refusal :=
  .next (match (s.copySlot core slot).copy with
    | none => s
    | some k =>
      if k.aborting || k.stream.isSome || !k.finished || k.multi.any (fun m => m.acked.any (· != k.landed)) then s
      else match s.submitWord core k false with
        | none => s
        | some s =>
          let s := if k.ring.isSome then s else s.moveWmk core slot k.dhi
          (s.leaveSlot core slot k false).pulse core slot)

/-- The stream that an aborted copy of a slot served fills no further strip (R214, R219); a stream that its task has started since, or whose
copy is saved, is another. -/
def State.stopStream (s : State) (core slot : Nat) (tid : Word) : State :=
  match s.findTid tid with
  | some t =>
    if coreOf t ≠ core then s
    else s.modTask t fun x => { x with stream := x.stream.map fun r => if r.slot = slot ∧ r.saved = none then { r with stopped := true } else r }
  | none => s

/-- COPY_ABORT_COMPLETE (R214): ABT is set and WMK.ADDR is DHI, so that every waiting access proceeds. -/
def execCopyAbortComplete (core slot : Nat) (s : State) : Host.Outcome State Fault Refusal :=
  .next (match (s.copySlot core slot).copy with
    | none => s
    | some k =>
      if !k.aborting then s
      else match s.submitWord core k true with
        | none => s
        | some s =>
          let s := if k.ring.isSome || k.stream.isSome then s else s.moveWmk core slot k.dhi
          let s := if k.stream.isSome then s.stopStream core slot k.tid else s
          s.leaveSlot core slot k true)

/-! ### Freezes (R212, R213) -/

/-- The submitter can take an interrupt: it is in a slot or saved, not ended, and its job has a trap entry (R213). -/
def State.takesIrq (s : State) (k : Copy) : Bool :=
  (s.job k.job).desc.trapEntry != 0 &&
    ((s.tasks.any fun e => e.2.tid == k.tid && e.2.life != .free && e.2.life != .retired) || s.swaps.any fun w => w.task.tid == k.tid)

/-- What a failed unit leaves where it read: malformed entries are reported, and a sector whose check fails is poisoned (R322, R333). -/
def State.noteUnit (s : State) (core : Nat) (k : Copy) (kind : Nat) (ps : List Piece) : State :=
  let page (s : State) (l : Loc) (n : Nat) : State := match l with
    | .glob a va => s.notePages a va n
    | .bank _ _ => s
  let s := (k.reads ps).foldl (fun s x =>
    let l := k.srcLoc core x.1 x.2.1 x.2.2.1
    if kind = 3 then (s.takeUnsound l x.2.2.2).2 else page s l x.2.2.2) s
  if k.stream.isSome || kind = 3 then s else ps.foldl (fun s p => page s (k.dstLoc core 0 p.run p.lo) (p.hi - p.lo)) s

/-- COPY_FREEZE (R212): the next unit fails; the engine raises an ENGINE interrupt for the submitter. -/
def execCopyFreeze (core slot : Nat) (s : State) : Host.Outcome State Fault Refusal :=
  .next (match (s.copySlot core slot).copy with
    | none => s
    | some k =>
      let u := s.nextUnit core k
      if k.aborting || u.1 != k.landed || !s.unitReady core slot k u.2 then s
      else match s.unitFault core k u.2 with
        | none => s
        | some (kind, v) =>
          let s := (s.noteUnit core k kind u.2).modSlot core slot fun z => { z with
            wmk := { z.wmk with frz := true }, copy := some { k with frozen := some (kind, v) } }
          if s.takesIrq k then s.modByTid k.tid fun x => { x with irqs := x.irqs ++ [⟨8 * kind + slot, BitVec.ofNat 64 v, k.ident⟩] }
          else s)

/-- A copy of a slot lands in a run of a quad's banks: a receiver's range meets it (R217, R222). -/
def Copy.landsIn (k : Copy) (core quad bank n : Nat) : Bool :=
  (if k.dsp = 1 then [(core, 0)] else k.targets).any fun r => quadOf r.1 == quad &&
    decide ((k.range r.2).1 < (bank + n) * 4096) && decide (bank * 4096 < (k.range r.2).2)

/-- A team's swap waits for a copy: every live task of the team is halted, and the copy lands in its banks (R222). -/
def State.swapWaits (s : State) (core : Nat) (k : Copy) : Bool :=
  s.teams.any fun e => !e.2.swapped && k.landsIn core e.2.quad e.2.bank e.2.scr &&
    s.tasks.all fun x => !(x.2.team.any (·.1 == e.1) && x.2.life != .free && x.2.life != .retired) || x.2.halt.any (·.halted)

/-- FREEZE_SERVED_BY_TARDAR (R213, R222): with no submitter to take it, or for a team's swap, the unit's missing pages are asked for and the
copy resumes once they are resident; another freeze is aborted with a notification. -/
def execFreezeServedByTardar (core slot : Nat) (s : State) : Host.Outcome State Fault Refusal :=
  .next (match (s.copySlot core slot).copy with
    | none => s
    | some k => match k.frozen with
      | none => s
      | some (kind, v) =>
        if s.takesIrq k && !s.swapWaits core k then s
        else if kind < 2 then
          match (s.unitFaults core k (s.unitAt k k.landed)).filter fun f => decide (f.1 < 2) with
          | [] => s.modSlot core slot CopySlot.resume
          | l => l.foldl (fun s f => s.askPage k.asid f.2 f.1) s
        else (s.modSlot core slot CopySlot.abort).notify (.copyFault k.ident (BitVec.ofNat 64 v)))

/-! ### Strips (R219) -/

/-- One element of a strip in the lane form of FMT; with BYTE, or where the formats agree, it is moved as it is (R219). -/
def Copy.stripElem (k : Copy) (f : Nat) (d : Nat × Nat) (e0 e : Nat) : Nat × Flags :=
  if k.conv then
    let c := k.convElem (d.1, d.2 + (e - e0)) e
    (laneForm f c.1, c.2)
  else (laneForm f (packedCode k.srcWidth d.1 (e - e0)), 0)

/-- The lanes of the elements of a piece. -/
def State.stripPiece (s : State) (core : Nat) (k : Copy) (f : Nat) (p : Piece) : List (Nat × Flags) × State :=
  let sp := k.srcSpan p.lo p.hi
  let (data, s) := s.copyRead core k 0 p.run sp.1 sp.2
  let d := k.aligned p.lo data
  ((List.range (p.hi - p.lo)).map fun j => k.stripElem f d p.lo (p.lo + j), s)

/-- STRIP_FILL (R219): the next strip of a stream that has room among v24 to v31. -/
def execStripFill (core slot : Nat) (s : State) : Host.Outcome State Fault Refusal :=
  .next (match (s.copySlot core slot).copy with
    | none => s
    | some k => match k.stream with
      | none => s
      | some f =>
        let full := (s.findTid k.tid).all fun t => (s.task t).stream.all fun r => decide (8 ≤ r.strips.length)
        let ps := s.unitAt k k.landed
        if full || k.aborting || !s.unitReady core slot k ps || (s.unitFault core k ps).isSome then s
        else
          let (ls, s) := ps.foldl (fun (ls, s) p =>
            let (l, s) := s.stripPiece core k f.toNat p
            (ls ++ l, s)) (([] : List (Nat × Flags)), s)
          let k := { k with landed := k.landed + 1, flags := k.flags ||| orFlags (ls.map (·.2)) }
          let strip := BitVec.ofNat 8192 (pieces 32 (ls.map (·.1)))
          let s := s.modByTid k.tid fun x => { x with stream := x.stream.map fun r =>
            { r with strips := r.strips ++ [strip], ended := k.finished } }
          (s.setCopy core slot k).moveWmk core slot k.landed)

end Sys2Proof.Machine
end

