-- ==== Sys2Proof/Machine/Arrivals.lean ====
section
/-! DEFINITION. The moves of the ordering machine that the network makes: drain, arrival, atomics at home, settling, drops of cached
copies, and the root switch of a peer page (R263, R270, R276, R281, R345, R346). -/

namespace Sys2Proof.Machine

/-! ### Drain (R276) -/

/-- The 256-byte line of a location. -/
def Loc.line (l : Loc) : Loc :=
  match l with
  | .glob a va => .glob a (va / 256)
  | .bank c off => .bank c (off / 256)

/-- DRAIN (R276): the oldest store-buffer entry of a line enters the path. -/
def execDrain (t w : Nat) (s : State) : Host.Outcome State Fault Refusal :=
  .next (match (s.task t).sb.find? (·.id == w) with
    | none => s
    | some e =>
      if ((s.task t).sb.find? fun x => x.loc.line == e.loc.line).all (·.id == w) then
        (s.modTask t fun x => { x with sb := x.sb.filter (·.id != w) }).toPath e
      else s)

/-! ### Arrival (R263, R276) -/

/-- No packet sent earlier on the same ordered route to the same place is still on its way, a store or a message (R263). -/
def State.deliverable (s : State) (w : Write) : Bool :=
  !s.inOrderRoute w ||
    (!((s.path.takeWhile (·.id != w.id)).any fun p =>
      p.party.source == w.party.source && p.cls == w.cls && s.destination p.loc == s.destination w.loc && s.inOrderRoute p) &&
    !s.msgs.any fun m => decide (m.id < w.sent) && m.fromCore == w.party.source && m.cls == w.cls &&
      1000 + m.core == s.destination w.loc && s.orderedMsg m)

/-- Tasks that watch a word read it again (R96, R99). -/
def State.wakeWatchers (s : State) : State := (s.wakeWhere .join fun _ _ => true).wakeWhere .value fun _ _ => true

/-- A write reaches the root switch of its page (R345); while it is there `arrivedAt` is the time of that, in ns. -/
def State.toSwitch (s : State) (w : Write) : State :=
  { s with atSwitch := s.atSwitch ++ [{ w with arrivedAt := (s.die 0).dieclk.toNat }] }

/-- A write on the path reaches its home: an update by the hardware is tried again, a peer page's goes to the root switch and has not arrived yet, one for a replicated line starts the
withdrawal and waits, any other arrives (R270, R276, R345). -/
def State.deliverWrite (s : State) (w : Write) : State :=
  let off (s : State) : State := { s with path := s.path.filter (·.id != w.id) }
  if w.update then (s.arriveUpdate w).wakeWatchers
  else match w.loc with
  | .glob a va =>
    if (s.peerOf a va).isSome then (off s).toSwitch w
    else if s.replicated w.loc then s.startWithdraw a va
    else ((off s).arriveOrDrop w).wakeWatchers
  | .bank _ _ => (off s).arriveOrDrop w

/-- ARRIVE (R276): a write on the path arrives where R263 permits it. -/
def execArrive (w : Nat) (s : State) : Host.Outcome State Fault Refusal :=
  .next (match s.path.find? (·.id == w) with
    | none => s
    | some e => if s.deliverable e then s.deliverWrite e else s)

/-- ATOMIC_AT_HOME (R125): a `red.*` on the path is performed at its home; an atomic with a result is performed by its own
instruction (DEDUCED, log 7). -/
def execAtomicAtHome (w : Nat) (s : State) : Host.Outcome State Fault Refusal :=
  .next (match s.path.find? fun x => x.id == w && x.op.isSome with
    | none => s
    | some e => if s.deliverable e then s.deliverWrite e else s)

/-- Every write that arrived before one comes to precede it (R276 Settle). -/
def settleIn (w : Nat) : List Write → List Write
  | [] => []
  | x :: r =>
    if x.id = w then { x with settled := true, preds := union ((r.filter fun y => y.meets x.loc x.bytes.length).map (·.id)) x.preds } :: r
    else x :: settleIn w r

/-- SETTLE (R276): a write that has been in its history for 4,096 cycles joins every view. -/
def execSettle (w : Nat) (s : State) : Host.Outcome State Fault Refusal :=
  .next (if s.hist.any fun x => x.id == w && decide (x.arrivedAt + 4096 ≤ s.cycle) then { s with hist := settleIn w s.hist } else s)

/-- CACHE_COPY_DROP (R281): the copies of a line in a core's Cache banks and in its quad's Annex. -/
def execCacheCopyDrop (core line : Nat) (s : State) : Host.Outcome State Fault Refusal :=
  .next ((s.modCore core fun c => { c with cacheLines := c.cacheLines.filter (·.key != line) }).modQuad (quadOf core) fun q =>
    { q with annex := q.annex.filter (·.key != line) })

/-! ### The root switch (R345, R346, R349) -/

/-- The package a write comes from. -/
def State.packageOf (s : State) (w : Write) : Nat := match w.party with
  | .remote p => p
  | _ => s.pkg

/-- The oldest write of its package at its root switch: between two packages class 0 keeps the order of sending (R342). -/
def State.switchFirst (s : State) (w : Write) : Bool :=
  (s.atSwitch.find? fun x => s.packageOf x == s.packageOf w && s.destination x.loc == s.destination w.loc).all (·.id == w.id)

/-- The switch forwards a write to every member's home, where it arrives; one that no member can take is dropped, and Tardar is told (R345,
R349). -/
def State.forward (s : State) (w : Write) : State :=
  let s : State := { s with atSwitch := s.atSwitch.filter (·.id != w.id) }
  if s.unserved w.loc then (s.countArrival w).notifyLost w.loc else (s.arriveAt w).wakeWatchers

/-- ROOT_SWITCH_ORDER (R345): the switch orders the next write of a package; one for a replicated line waits for its withdrawal (R270). -/
def execRootSwitchOrder (w : Nat) (s : State) : Host.Outcome State Fault Refusal :=
  .next (match s.atSwitch.find? (·.id == w) with
    | none => s
    | some e => if !s.switchFirst e then s else if s.replicated e.loc then s.withdrawLoc e.loc else s.forward e)

/-- A write of another package to a peer page reaches its root switch (R345, R347): `rel` carries a release at `.pod` of what that package has
written before. Nothing comes from a package that cannot be reached. -/
def State.remoteWrite (s : State) (pkg asid va : Nat) (bs mask : List Byte) (op : Option (BitVec 4)) (rel : Bool) : State :=
  let l : Loc := .glob (spaceOf asid va) (va % 2 ^ 56)
  let p : Party := .remote pkg
  let earlier := ((s.hist ++ s.atSwitch).filter (·.party == p)).map (·.id)
  let w : Write := { s.hardWrite p earlier (if rel then [⟨5, earlier, p⟩] else []) l bs mask with op := op }
  let sized := if op.isSome then (bs.length == 4 || bs.length == 8) && va % bs.length == 0 else decide (0 < bs.length) && decide (bs.length ≤ 64)
  if (s.peerOf asid va).isSome && pkg != s.pkg && decide (pkg < 1024) && !s.unreachable.contains pkg && sized then
    ({ s with nextId := s.nextId + 1 } : State).toSwitch w
  else s

/-- The operations that the switch combines (R346). -/
def combines (op : BitVec 4) : Bool := op != 8 && op != 9 && decide (op.toNat ≤ 11)

/-- Two operands combined into one of the same effect; a NaN has none (R127, R346). -/
def combined (op : BitVec 4) (a b : List Byte) : List Byte :=
  let x := leNat a
  let y := leNat b
  if 10 ≤ op.toNat ∧ isNan32 x then b
  else if 10 ≤ op.toNat ∧ isNan32 y then a
  else natBytes (amoResult op (8 * a.length) x y 0) a.length

/-- The writes at the switch from one on, without it, up to another. -/
def between (w1 w2 : Nat) (l : List Write) : List Write := ((l.dropWhile (·.id != w1)).drop 1).takeWhile (·.id != w2)

/-- Two reductions that the switch may make one (R346): of several packages, to one word, of one OP and SZ, within 256 ns of each other, the
second after the first and no other write to the word between them. -/
def State.mayCombine (s : State) (a b : Write) : Bool :=
  s.packageOf a != s.packageOf b && a.op == b.op && a.op.any combines && a.loc == b.loc && a.bytes.length == b.bytes.length &&
    decide (b.arrivedAt ≤ a.arrivedAt + 256) && ((s.atSwitch.map (·.id)).takeWhile (· != b.id)).contains a.id &&
    !(between a.id b.id s.atSwitch).any (·.meets b.loc b.bytes.length)

/-- SWITCH_COMBINE (R346): the earlier of two reductions to one word takes the combined operand; the later adds nothing more and is
acknowledged after it. -/
def execSwitchCombine (w1 w2 : Nat) (s : State) : Host.Outcome State Fault Refusal :=
  .next (match s.atSwitch.find? (·.id == w1), s.atSwitch.find? (·.id == w2) with
    | some a, some b => match a.op with
      | some p =>
        if s.mayCombine a b then
          { s with atSwitch := s.atSwitch.map fun x =>
              if x.id = w1 then { x with bytes := combined p a.bytes b.bytes }
              else if x.id = w2 then { x with op := some 6, bytes := List.replicate b.bytes.length 0 } else x }
        else s
      | none => s
    | _, _ => s)

/-- NO_PATH (R349): the package is unreachable; writes that no other member can take are dropped and awaited no more, and Tardar is told. -/
def execNoPath (pkg : Nat) (s : State) : Host.Outcome State Fault Refusal :=
  let s := ({ s with unreachable := insertNat s.unreachable pkg } : State).notify (.unreachable pkg)
  .next ((s.atSwitch.filter fun w => s.unserved w.loc).foldl State.forward s)

end Sys2Proof.Machine
end

