-- ==== Sys2Proof/Machine/Ordering.lean ====
section
/-! DEFINITION. Fences, acquires, releases, phases and barriers (R278-R286, R255, R343). -/

namespace Sys2Proof.Machine

/-- The release part of `rel` and `fence`: nothing at `.task`, a 16-byte marker in a task that buffers, else a release (R278,
R284). -/
def State.relPart (s : State) (scope : Nat) (k : State → Except Exit State) : Except Exit State :=
  if scope = 0 then k s else s.hold 16 (.release scope) (fun s => s.released scope k) k

/-- `fence.scope`: a release, then an acquire (R284). -/
def execFence (scope : BitVec 3) (s : State) : Host.Outcome State Fault Refusal :=
  run s (s.relPart scope.toNat fun s => .ok ((s.acquire s.focus scope.toNat).retire 4))

/-- `acq.scope` (R279, R284). -/
def execAcq (scope : BitVec 3) (s : State) : Host.Outcome State Fault Refusal :=
  .next ((s.acquire s.focus scope.toNat).retire 4)

/-- `rel.scope` (R278, R284). -/
def execRel (scope : BitVec 3) (s : State) : Host.Outcome State Fault Refusal :=
  run s (s.relPart scope.toNat fun s => .ok (s.retire 4))

/-- `phase gd`: it stalls while the next phase is incomplete; gd is the old PHASE (R285). -/
def execPhase (d : Gpr) (s : State) : Host.Outcome State Fault Refusal :=
  run s do
    match s.me.advancePhase with
    | none => .error .stall
    | some x => .ok (((s.setTask s.focus x).setG d (zx s.me.phase)).retire 4)

/-! ### Barriers (R286) -/

/-- The barrier instances of a scope: the core's, the quad's, the die's, the package's, the pod's (R286). -/
def State.barrierAt (s : State) (scope index inst : Nat) : Barrier :=
  match scope with
  | 1 => vget (s.core index).bars inst Barrier.reset
  | 2 => vget (s.quad index).bars inst Barrier.reset
  | 3 => vget (s.die index).bars inst Barrier.reset
  | 4 => vget s.pkgBars inst Barrier.reset
  | _ => vget (tget s.podBars index (Vector.replicate 16 Barrier.reset)) inst Barrier.reset

/-- A barrier instance replaced. -/
def State.setBarrier (s : State) (scope index inst : Nat) (b : Barrier) : State :=
  match scope with
  | 1 => s.modCore index fun c => { c with bars := vput c.bars inst b }
  | 2 => s.modQuad index fun c => { c with bars := vput c.bars inst b }
  | 3 => s.modDie index fun c => { c with bars := vput c.bars inst b }
  | 4 => { s with pkgBars := vput s.pkgBars inst b }
  | _ => { s with podBars := tput s.podBars index (vput (tget s.podBars index (Vector.replicate 16 Barrier.reset)) inst b) }

/-- The network of a scope that a task of a job on a core belongs to; the fabric's is the job's (R286, R343). -/
def scopeIndex (scope core job : Nat) : Nat :=
  match scope with
  | 1 => core
  | 2 => quadOf core
  | 3 => dieOf core
  | 4 => 0
  | _ => job

/-- The oldest arrival of a task at an instance that no generation has completed gets its completion. -/
def passOne (scope inst : Nat) (snap : List Nat) : List BarWait → List BarWait
  | [] => []
  | b :: r => if b.scope = scope ∧ b.inst = inst ∧ b.passed = none then { b with passed := some snap } :: r else b :: passOne scope inst snap r

/-- A participant whose generation is complete has the completion in its context, wherever that is (R286). A task that waits in the `bar`
goes on, and leaves it at its next boundary; any other does so when it is Running again at its `bar` (R24, R213). -/
def Task.passBarrier (scope inst : Nat) (snap : List Nat) (x : Task) : Task :=
  let y := { x with bars := passOne scope inst snap x.bars }
  if y.life = .waiting .event ∧ (y.barHere.any (·.passed.isSome)) then { y with life := .running } else y

/-- The die of a task, in a slot or swapped. -/
def State.dieOfTid (s : State) (tid : Word) : Option Nat :=
  match s.findTid tid with
  | some t => some (dieOf (coreOf t))
  | none => (s.swaps.find? (·.task.tid == tid)).map fun w => dieOf w.core

/-- The greater of two LAMPORT values. -/
def laterStamp (a b : BitVec 32) : BitVec 32 := if a.ult b then b else a

/-- A generation's completion is delivered to every participant's die with the highest value its arrivals carried (R351). -/
def State.stampBarrier (s : State) (b : Barrier) : State :=
  ((b.arrivals.filterMap fun e => s.dieOfTid (BitVec.ofNat 64 e.1)).eraseDups).foldl (fun s d => s.lamportRecv d b.stamp) s

/-- A complete generation releases its participants; the instance starts a new generation (R286). -/
def State.openBarrier (s : State) (scope index inst : Nat) : State :=
  let b := s.barrierAt scope index inst
  let snap := b.arrivals.foldl (fun acc e => union e.2 acc) []
  let s := (s.stampBarrier b).setBarrier scope index inst ⟨0, [], b.gen + 1, 0⟩
  b.arrivals.foldl (fun s e => s.modByTid (BitVec.ofNat 64 e.1) (Task.passBarrier scope inst snap)) s

/-- The arrival of the issuing task at an instance (R286): N must be the generation's; the last arrival completes it. -/
def State.arriveBarrier (s : State) (i : Instr) (ga : Word) (scope n inst : Nat) : Except Exit State := do
  let ix := scopeIndex scope s.myCore s.me.job
  let full (b : Barrier) : Bool := !b.arrivals.isEmpty && b.arrivals.length == b.n
  let s := if full (s.barrierAt scope ix inst) then s.openBarrier scope ix inst else s
  let b := s.barrierAt scope ix inst
  need (b.arrivals.isEmpty || b.n == n) (illegalInfo i ga)
  let (v, s) := s.lamportSend (dieOf s.myCore)
  let b' : Barrier := ⟨n, b.arrivals ++ [(s.me.tid.toNat, s.me.view.known)], b.gen, laterStamp b.stamp v⟩
  .ok ((s.setBarrier scope ix inst b').onMe fun x => { x with
    bars := x.bars ++ [⟨scope, inst, x.here, x.nest, none⟩], life := .waiting .event })

/-- A join or a barrier cannot be satisfied in a task that buffers its forks and stores (R97, R286). -/
def State.noJoin (s : State) : Bool := s.me.buffers || s.me.guarded

/-- `bar.scope` (R286): its checks, a release at the scope, the arrival; the task waits for the generation. A task that has arrived and left
its wait does not issue it again (R213). -/
def execBar (a : Gpr) (scope : BitVec 3) (s : State) : Host.Outcome State Fault Refusal :=
  run s do
    let ga := s.g a
    let i := Instr.bar a scope
    need (bits ga 32 32 == 0 && bits ga 4 12 == 0 && bits ga 16 16 != 0) (illegalInfo i ga)
    need (scope != 2 || s.me.team.isSome) (illegalInfo i ga)
    need (!s.noJoin) (illegalInfo i ga)
    s.released scope.toNat fun s => s.arriveBarrier i ga scope.toNat (bits ga 16 16) (bits ga 0 4)

/-- BARRIER_RELEASE: an instance whose generation is complete releases it; a pod instance, whose other arrivals lie in other
packages, releases when the fabric says so (R286, R343). -/
def execBarrierRelease (scope inst index : Nat) (s : State) : Host.Outcome State Fault Refusal :=
  let b := s.barrierAt scope index inst
  .next (if !b.arrivals.isEmpty && (b.arrivals.length == b.n || scope == 5) then s.openBarrier scope index inst else s)

end Sys2Proof.Machine
end

