-- ==== Sys2Proof/Machine/TaskCtl.lean ====
section
/-! DEFINITION. Fork, spawn, join, waits, yield, commit and end (R90-R102, R103). -/

namespace Sys2Proof.Machine

/-- The record `fork` and `spawn` build (R91). -/
def State.childRecord (s : State) (d a b : Gpr) : List Word :=
  let arg (n : Nat) : Word := s.g (gprPlus b n)
  let head : Word := (s.g a) &&& 0x00FFFFFFFFFFFFFC
  if d = 0 then [head, arg 0, arg 1, arg 2, arg 3, arg 4, arg 5, arg 6]
  else [head ||| 1, arg 0, arg 1, arg 2, arg 3, arg 4, arg 5, s.g d]

/-- The operand checks of `fork` and `spawn`, in their order (R90). -/
def State.checkChild (s : State) (i : Instr) (d a b : Gpr) : Except Exit Unit := do
  need (decide (b.toNat ≤ if d = 0 then 57 else 58)) (illegal i)
  need ((s.g a).toNat % 4 == 0) (misalign (s.g a))
  if d = 0 then .ok ()
  else do
    need ((s.g d).toNat % 8 == 0) (misalign (s.g d))
    s.checkPages (unitOf s.focus) (s.asid s.me.job) false true false 1 (va56 (s.g d)) 8

/-- The body of `fork` and `spawn` (R92, R93): deferred with 72 bytes in a task that buffers, else a release at `.pkg`, the counter
add and the record's placement. -/
def childBody (i : Instr) (d a b : Gpr) (spawn : Bool) (s : State) : Except Exit State := do
  s.checkChild i d a b
  let counter := if d = 0 then none else some (s.g d)
  let rec_ := s.childRecord d a b
  s.hold 72 (.fork (Trigger.of rec_ .record s.me.job) counter spawn s.me.ord)
    (fun s => s.released 4 fun s => .ok ((s.placeChild s.focus rec_ counter spawn s.me.ord).retire 4))
    (fun s => .ok (s.retire 4))

/-- `fork` (R90-R93). -/
def execFork (d a b : Gpr) (s : State) : Host.Outcome State Fault Refusal := run s (childBody (.fork d a b) d a b false s)

/-- `spawn` (R90-R93). -/
def execSpawn (d a b : Gpr) (s : State) : Host.Outcome State Fault Refusal := run s (childBody (.spawn d a b) d a b true s)

/-- A doubleword of global memory read for a wait, after its checks: aligned, translated as a scalar load (R96, R99). -/
def State.waitWord (s : State) (a : Word) : Except Exit (Word × State) := do
  need (a.toNat % 8 == 0) (misalign a)
  let l := Loc.glob (spaceOf (s.asid s.me.job) (va56 a)) (va56 a)
  s.checkAccess l 8 accLoad
  let (bs, s) := s.loadBytes l 8
  .ok (leWord bs, s.acquire s.focus 4)

/-- The task waits at this instruction (R23). -/
def State.waitFor (s : State) (w : WaitReason) : State := s.onMe fun x => { x with life := .waiting w }

/-- COUNT of a join counter (R94). -/
def countOf (c : Word) : Nat := bits c 0 63

/-- POISON of a join counter (R94). -/
def poisonOf (c : Word) : Bool := c.getLsbD 63

/-- `join`: 0 when all children ended normally, 1 when poison was seen; it waits while COUNT ≠ 0 (R96, R97). -/
def execJoin (d a : Gpr) (s : State) : Host.Outcome State Fault Refusal :=
  run s do
    need (!s.noJoin) (illegal (.join d a))
    let (c, s1) ← s.waitWord (s.g a)
    if countOf c ≠ 0 then .ok (s1.waitFor .join)
    else .ok ((s1.setG d (if poisonOf c then 1 else 0)).retire 4)

/-- `join.t`: as `join`, but poison traps KILL with A and the counter (R96). -/
def execJoinT (d a : Gpr) (s : State) : Host.Outcome State Fault Refusal :=
  run s do
    need (!s.noJoin) (illegal (.joinT d a))
    let (c, s1) ← s.waitWord (s.g a)
    if countOf c ≠ 0 then .ok (s1.waitFor .join)
    else do
      need (!poisonOf c) (.trap 13 0 (s.g a) (some c))
      .ok ((s1.setG d 0).retire 4)

/-- `waitv`: waits until the doubleword differs from B (R99). -/
def execWaitv (d a b : Gpr) (s : State) : Host.Outcome State Fault Refusal :=
  run s do
    let (v, s1) ← s.waitWord (s.g a)
    if v = s.g b then .ok (s1.waitFor .value) else .ok ((s1.setG d v).retire 4)

/-- The waiters of a core without one task. -/
def Crossbar.leave (x : Crossbar) (t : Nat) : Crossbar := { x with waiters := x.waiters.filter (·.1 != t) }

/-- Whether a counter can serve a task: nonzero, and no task waits on it since earlier (R98). A waiter that is Held keeps its place and
holds back the later ones (DESIGN CHOICE, log 92). -/
def Crossbar.serves (x : Crossbar) (t n : Nat) : Bool :=
  vget x.counters n 0 != 0 && ((x.waiters.filter (·.2 == n)).head?).all (·.1 == t)

/-- `wait`: one atomic step takes a nonzero counter down by 1 and gives its value before; else the task waits its turn (R98), after the gates
of the engines (R229). -/
def execWait (d a : Gpr) (s : State) : Host.Outcome State Fault Refusal :=
  let n := bits (s.g a) 0 4
  let x := (s.core s.myCore).xbar
  if x.serves s.focus n && !(s.core s.myCore).gatesWant n then
    let v := vget x.counters n 0
    .next ((((s.modCore s.myCore fun c => { c with xbar := { c.xbar.leave s.focus with
      counters := vput c.xbar.counters n (v - 1) } }).setG d (v.setWidth 64)).retire 4).wakeWaiters s.myCore)
  else
    .next ((s.modCore s.myCore fun c => { c with xbar := if c.xbar.waiters.any (·.1 == s.focus) then c.xbar
      else { c.xbar with waiters := c.xbar.waiters ++ [(s.focus, n)] } }).waitFor .event)

/-- The other Running tasks of the core, which issue before a task that yields (R100). -/
def State.issuesFirst (s : State) : List Nat :=
  (s.tasks.filter fun e => e.1 != s.focus && unitOf e.1 == unitOf s.focus && e.2.life == .running).map (·.1)

/-- `yield`: it retires at once; the task then issues after every other Running task of its core has, or after 16 cycles (R100). -/
def execYield (s : State) : Host.Outcome State Fault Refusal :=
  .next ((s.retire 4).onMe fun x => { x with yielded := if s.issuesFirst = [] then none else some (s.cycle, s.issuesFirst) })

/-- `nop` (R100). -/
def execNop (s : State) : Host.Outcome State Fault Refusal := .next (s.retire 4)

/-- `commit`: hands the shadow buffer over; a `nop` in a task that does not buffer (R101). -/
def execCommit (s : State) : Host.Outcome State Fault Refusal := run s (s.irrevocable .commit fun s => .ok (s.retire 4))

/-- `end`: the task goes to Retired; what follows is the way from Retired to Free (R102). -/
def execEndTask (s : State) : Host.Outcome State Fault Refusal :=
  .next (s.endTask s.focus 0 (match s.me.guard with | some (_, _, _, .check) => 2 | _ => 1))

end Sys2Proof.Machine
end

