-- ==== Sys2Proof/Machine/System.lean ====
section
/-! DEFINITION. Control registers, trap instructions, translation maintenance, bank roles, pooling, trace and idle (R73, R110,
R116-R120, R256, R257, R326, R355, R356). -/

namespace Sys2Proof.Machine

/-! ### Control registers (R15, R52, R73) -/

/-- VLEASE (R16). -/
def Task.vlease (x : Task) : Word := BitVec.ofNat 64 (x.leaseBase % 128 * 4 + x.leaseCls.toNat)

/-- WMKn (R206). -/
def WmkReg.word (w : WmkReg) : Word :=
  BitVec.ofNat 64 ((if w.act then 2 ^ 63 else 0) + (if w.frz then 2 ^ 62 else 0) + (if w.uno then 2 ^ 61 else 0) +
    (if w.abt then 2 ^ 60 else 0) + (if w.strm then 2 ^ 59 else 0) + w.addr.toNat)

/-- EVCFG (R231). -/
def Crossbar.evcfg (x : Crossbar) : Word :=
  BitVec.ofNat 64 (x.ovf.toNat * 2 ^ 48 + bitsNat (x.terms.toList.map (·.en)))

/-- The control register of a number, none where the number is unlisted (R73). -/
def State.readCr (s : State) (n : Nat) : Option Word :=
  let x := s.me
  let c := s.core s.myCore
  match n with
  | 0 => some x.tid
  | 1 => some (x.lcn.setWidth 64)
  | 2 => some x.seed
  | 3 => some (x.round.setWidth 64)
  | 4 => some (x.fflags.setWidth 64)
  | 5 => some (x.ftrapen.setWidth 64)
  | 6 => some (x.gtol.setWidth 64)
  | 7 => some x.vlease
  | 8 => some (if hasD s.myCore then 1 else 0)
  | 9 => some c.xbar.evcfg
  | 10 => some ((s.quad (quadOf s.myCore)).qpool.setWidth 64)
  | 11 => some (x.cls.setWidth 64)
  | 12 => some (x.phase.setWidth 64)
  | 13 => some ((s.quad (quadOf s.myCore)).qflags.setWidth 64)
  | 14 => some ((s.die (dieOf s.myCore)).dflags.setWidth 64)
  | 24 => some x.trapPc
  | 25 => some x.trapCause
  | 26 => some x.trapVal
  | 27 => some x.trapInfo
  | 28 => some (c.ringwait.setWidth 64)
  | 29 => some ((s.die (dieOf s.myCore)).lamport.setWidth 64)
  | 30 => some (s.die (dieOf s.myCore)).dieclk
  | n => if 16 ≤ n ∧ n ≤ 23 then some (vget c.slots (n - 16) CopySlot.reset).wmk.word else none

/-- The bits of TRAPCAUSE that a write keeps: [62:16] are reserved (R104). -/
def trapCauseMask : Word := 0x800000000000FFFF

/-- The write of a control register, none where a task may not write it (R15, R47, R52, R73). -/
def State.writeCr (s : State) (n : Nat) (v : Word) : Option State :=
  match n with
  | 3 => if bits v 0 3 ≤ 5 then some (s.onMe fun x => { x with round := v.extractLsb' 0 3 }) else none
  | 4 => some (s.onMe fun x => { x with fflags := v.extractLsb' 0 7 })
  | 5 => some (s.onMe fun x => { x with ftrapen := v.extractLsb' 0 7 })
  | 6 => some (s.onMe fun x => { x with gtol := v.extractLsb' 0 32 })
  | 13 => some (s.modQuad (quadOf s.myCore) fun q => { q with qflags := q.qflags &&& ~~~(v.extractLsb' 0 7) })
  | 14 => some (s.modDie (dieOf s.myCore) fun d => { d with dflags := d.dflags &&& ~~~(v.extractLsb' 0 7) })
  | 24 => some (s.onMe fun x => { x with trapPc := BitVec.ofNat 64 (va56 v) })
  | 25 => some (s.onMe fun x => { x with trapCause := v &&& trapCauseMask })
  | 26 => some (s.onMe fun x => { x with trapVal := v })
  | 27 => some (s.onMe fun x => { x with trapInfo := v })
  | _ => none

/-- `mfc`: the number stands in the B field; an unlisted one is ILLEGAL (R73). -/
def execMfc (d b : Gpr) (s : State) : Host.Outcome State Fault Refusal :=
  run s (match s.readCr b.toNat with
    | some v => .ok ((s.setG d v).retire 4)
    | none => .error (illegal (.mfc d b)))

/-- `mtc`: ILLEGAL for an unlisted number, a register tasks only read, and ROUND with 6 or 7 (R47, R73). -/
def execMtc (a b : Gpr) (s : State) : Host.Outcome State Fault Refusal :=
  run s (match s.writeCr b.toNat (s.g a) with
    | some s => .ok (s.retire 4)
    | none => .error (illegal (.mtc a b)))

/-! ### Traps (R110) -/

/-- `trap`: delivers SYS with SUB 0 and A; TRAPPC names the next instruction. -/
def execTrap (a : Gpr) (s : State) : Host.Outcome State Fault Refusal := .next (s.deliverNext 11 0 (s.g a))

/-- `bkpt`: delivers BKPT with SUB 0 and the PC; TRAPPC names the next instruction. -/
def execBkpt (s : State) : Host.Outcome State Fault Refusal := .next (s.deliverNext 10 0 s.me.pc)

/-- `sys`: the trap registers are written only outside the trap entry; the task is Held for its service core, its PC past the
instruction. -/
def Task.sysHold (v : Word) (x : Task) : Task :=
  let y := if x.nest then x else { x with
    trapPc := pcPlus x.pc 4, trapCause := causeWord x.nest 11 1 0, trapVal := v }
  { y.next 4 with life := .held none, holdSys := true }

/-- `sys` (R110): request A[7:0] goes to the quadrant service core. -/
def execSys (a : Gpr) (s : State) : Host.Outcome State Fault Refusal :=
  .next ((s.onMe (Task.sysHold (s.g a))).notify (.sysRequest s.me.tid ((s.g a).extractLsb' 0 8)))

/-- `eret` (R110): ILLEGAL with NEST = 0; a misaligned TRAPPC traps MISALIGN with NEST still 1; else back to the trapped code. -/
def execEret (s : State) : Host.Outcome State Fault Refusal :=
  run s do
    need s.me.nest (illegal .eret)
    need (s.me.trapPc.toNat % 4 == 0) (misalign (BitVec.ofNat 64 (va56 s.me.trapPc)))
    .ok (s.onMe Task.leaveTrap)

/-! ### Translation maintenance (R326) -/

/-- The context is a quadrant service core. -/
def State.service (s : State) : Bool := decide (10240 ≤ s.focus)

/-- What a `tlbi` drops: one page, an address space, everything, or the class-3 entries (R326). -/
def tlbiHits (mode asid va : Nat) (easid ecls evpn : Nat) : Bool :=
  match mode with
  | 0 => easid == spaceOf asid va && ecls == pageClass va && evpn == va % 2 ^ 56 / 2 ^ pageShift va
  | 1 => easid == asid
  | 2 => true
  | _ => ecls == 3

/-- Entries dropped in every TLB and every attribute cache of the package (R326). -/
def State.dropTranslations (s : State) (mode asid va : Nat) : State :=
  { s with
    tlbs := s.tlbs.map fun e => (e.1, e.2.filter fun t => !tlbiHits mode asid va t.asid t.cls t.vpn),
    attrs := s.attrs.map fun e => (e.1, e.2.filter fun t => !tlbiHits mode asid va t.asid t.cls t.vpn) }

/-- `tlbi`: only on a service core; a release at `.pkg` first (R326). -/
def execTlbi (a b : Gpr) (s : State) : Host.Outcome State Fault Refusal :=
  run s do
    need s.service (illegal (.tlbi a b))
    need (bits (s.g b) 18 46 == 0) (illegal (.tlbi a b))
    s.released 4 fun s => .ok ((s.dropTranslations (bits (s.g b) 16 2) (bits (s.g b) 0 16) (va56 (s.g a))).retire 4)

/-- Every task of the package is halted (R23, R268): no task holds a slot but as Held or Parked, or Retired. -/
def State.allHalted (s : State) : Bool := s.tasks.all fun e => decide (10240 ≤ e.1) || match e.2.life with
  | .free => true
  | .held _ => true
  | .parked _ _ _ _ => true
  | .retired => true
  | _ => e.2.halt.any (·.halted)

/-- The lines a flush takes from L2: those homed on one die, or all (R267, R326). -/
def State.flushLines (s : State) (all : Bool) (die : Nat) : State :=
  let ks := (s.l2.map (·.1)).filter fun k => all || s.homeSlice (keyAsid k) (keyVa k) / 96 == die
  ks.foldl (fun s k => s.dropLine (keyAsid k) (keyVa k)) s

/-- The Cache banks of some cores and the Annexes of some quads invalidated. -/
def State.flushCopies (s : State) (annex all : Bool) (die : Nat) : State :=
  { s with
    cores := s.cores.map fun e => if all || dieOf e.1 == die then (e.1, { e.2 with cacheLines := [] }) else e,
    quads := s.quads.map fun e => if annex && (all || e.1 / 40 == die) then (e.1, { e.2 with annex := [] }) else e }

/-- `flush`: only on a service core; LEVEL selects what is invalidated, MODE the L2 mode afterwards (R268, R326). -/
def execFlush (d a : Gpr) (s : State) : Host.Outcome State Fault Refusal :=
  run s do
    let i := Instr.flush d a
    let v := s.g a
    let level := bits v 0 2
    let mode := bits v 16 2
    need s.service (illegal i)
    need (bits v 2 14 == 0 && bits v 18 46 == 0) (illegal i)
    need (mode != 1 && (mode == 0 || (level == 3 && s.allHalted))) (illegal i)
    s.released 4 fun s =>
      let die := dieOf s.myCore
      let s1 := s.flushCopies (decide (1 ≤ level)) (level == 3) die
      let s2 := if 2 ≤ level then s1.flushLines (level == 3) die else s1
      let s3 : State := if mode = 0 then s2 else { s2 with l2Partitioned := mode == 3 }
      .ok ((s3.setG d (if s3.l2Partitioned then 1 else 0)).retire 4)

/-! ### bmap (R118, R119) -/

/-- A bank's role changed (R116). -/
def setRole (m : BitVec 768) (bank role : Nat) : BitVec 768 :=
  (m &&& ~~~((3 : BitVec 768) <<< (2 * bank))) ||| (BitVec.ofNat 768 (role % 4)) <<< (2 * bank)

/-- The roles of banks from one on, two bits each (R118). -/
def Core.rolesFrom (c : Core) (first : Nat) : Nat → Nat
  | 0 => 0
  | n + 1 => c.role first + 4 * c.rolesFrom (first + 1) n

/-- A byte range meets a bank. -/
def meetsBank (lo n bank : Nat) : Bool := decide (lo < bank * 4096 + 4096) && decide (bank * 4096 < lo + n)

/-- Units of 1 KiB held by live shadow buffers on a core (R22, R119). -/
def State.shadowUnits (s : State) (core : Nat) : Nat :=
  s.tasks.foldl (fun n e => if e.1 / 16 = core ∧ e.2.life ≠ .free then n + e.2.shadowKiB else n) 0

/-- The Shadow banks of a core. -/
def Core.shadowBanks (c : Core) : Nat := (List.range 384).foldl (fun n b => if c.role b = 3 then n + 1 else n) 0

/-- A copy of a slot of one core lands in a bank of another, a receiver of a multicast at its own place (R119, R217). -/
def Copy.landsAt (y : Copy) (at_ core bank : Nat) : Bool :=
  if y.multi.isSome then y.targets.any fun r =>
    r.1 == core && meetsBank (((y.dlo : Int) + (r.2 : Int) * y.multi.elim 0 (·.ostr)) % 2 ^ 56).toNat (y.dhi - y.dlo) bank
  else ((y.dsp == 1 && at_ == core) || y.targets.any fun r => r.1 == core) && meetsBank y.dlo (y.dhi - y.dlo) bank

/-- A transition of a bank that R119 refuses: a team's or a copy's Scratch bank, a ring's or the deque's FIFO bank, a Shadow bank in which a
live buffer holds a unit, the units in use being the lowest (DEDUCED, log 24). -/
def State.bankRefused (s : State) (core bank : Nat) : Bool :=
  let c := s.core core
  match c.role bank with
  | 0 => (s.teams.any fun e => e.2.quad == quadOf core && e.2.alive != 0 && decide (e.2.bank ≤ bank) && decide (bank < e.2.bank + e.2.scr)) ||
      (s.cores.any fun e => e.2.slots.toList.any fun k => k.copy.any (·.landsAt e.1 core bank))
  | 2 => (c.rings.toList.any fun r => r.any fun r => meetsBank r.base (r.cap * 2 ^ r.slog) bank) ||
      (decide (c.dequeBase ≤ bank) && decide (bank < c.dequeBase + c.dequeBanks))
  | 3 => decide (4 * ((List.range bank).filter fun b => c.role b == 3).length < s.shadowUnits core)
  | _ => false

/-- `Transition` (R119): what the bank held is discarded, a Scratch or FIFO bank starts with zeros; the cached copies go of every bank that
leaves the local cache or the Annex or moves between them (R256). -/
def State.transition (s : State) (core bank role : Nat) : State :=
  if (s.core core).role bank = role then s
  else
    let s := s.modCore core fun c => { c with
      bankmap := setRole c.bankmap bank role, cacheLines := c.cacheLines.filter (·.bank != bank),
      mem := c.mem.banks (· != bank) }
    let s := s.modQuad (quadOf core) fun q => { q with annex := q.annex.filter (·.bank != 512 * quadIndex core + bank) }
    let s := { s with hist := s.hist.filter fun w => match w.loc with
        | .bank c o => !(c == core && o / 4096 == bank)
        | .glob _ _ => true }
    { s with
      cores := s.cores.map fun e => if e.1 = core then
        (e.1, { e.2 with cacheLines := e.2.cacheLines.filter fun l => (s.localWays core).contains l.bank }) else e
      quads := s.quads.map fun e => if e.1 = quadOf core then
        (e.1, { e.2 with annex := e.2.annex.filter fun l => (s.annexWays (quadOf core)).contains l.bank }) else e }

/-- The new roles `bmap` names, by bank: those that change (R118, R119). -/
def Core.changes (c : Core) (first count : Nat) (b : Word) : List (Nat × Nat) :=
  (List.range count).filterMap fun i => if c.role (first + i) = bits b (2 * i) 2 then none else some (first + i, bits b (2 * i) 2)

/-- A store of a task of a core to one of some of its banks is on its way (R118). -/
def State.bankStores (s : State) (core : Nat) (banks : List Nat) : Bool :=
  let hits (w : Write) : Bool := match w.loc, w.party with
    | .bank c o, .task _ p => c == core && p == core && banks.contains (o / 4096)
    | _, _ => false
  s.path.any hits || s.tasks.any fun e => coreOf e.1 == core && e.2.sb.any hits

/-- `bmap`: reads the roles; with W = 1 it needs BANKCTL, checks every refusal, and runs the transitions once the stores of the
core's tasks to the banks have arrived (R118, R119); a release at `.core`. -/
def execBmap (d a b : Gpr) (s : State) : Host.Outcome State Fault Refusal :=
  run s do
    let i := Instr.bmap d a b
    let v := s.g a
    let first := bits v 0 9
    let count := bits v 16 4 + 1
    need (bits v 20 11 == 0 && bits v 9 7 == 0 && decide (first + count ≤ 384)) (illegal i)
    let old := (s.core s.myCore).rolesFrom first count
    if v.getLsbD 31 then do
      need s.myJob.desc.bankctl (illegal i)
      let ch := (s.core s.myCore).changes first count (s.g b)
      let fin (u : State) : Except Exit State := do
        need (!u.bankStores u.myCore (ch.map (·.1))) .stall
        .ok (((ch.foldl (fun (u : State) e => u.transition u.myCore e.1 e.2) u).setG d (BitVec.ofNat 64 old)).retire 4)
      match ch.find? fun e => s.bankRefused s.myCore e.1 with
      | some e => .error (.trap 4 1 (BitVec.ofNat 64 (4096 * e.1)) none)
      | none => s.released 1 fin
    else .ok ((s.setG d (BitVec.ofNat 64 old)).retire 4)

/-! ### qpool (R256, R257) -/

/-- `qpool`: gd is the old QPOOL; with W = 1 it needs BANKCTL, writes QPOOL, empties the Annex and invalidates the banks that move (R257); a release at
`.quad`. -/
def execQpool (d a : Gpr) (s : State) : Host.Outcome State Fault Refusal :=
  run s do
    let i := Instr.qpool d a
    let v := s.g a
    let q := quadOf s.myCore
    need (bits v 33 31 == 0) (illegal i)
    let old : Word := (s.quad q).qpool.setWidth 64
    if v.getLsbD 32 then do
      need s.myJob.desc.bankctl (illegal i)
      need (bits v 28 3 == 0) (illegal i)
      s.released 2 fun s =>
        let s := s.modQuad q fun k => { k with qpool := v.extractLsb' 0 32, annex := [] }
        let s := [0, 1, 2, 3].foldl (fun s k => s.modCore (quadCore q k) fun c =>
          { c with cacheLines := c.cacheLines.filter fun l => (s.localWays (quadCore q k)).contains l.bank }) s
        .ok ((s.setG d old).retire 4)
    else .ok ((s.setG d old).retire 4)

/-! ### trace and idle (R355, R356) -/

/-- `trace`: a USER record with A, B and its address; it stalls while the core's places are full; a `nop` when tracing of USER
records is off (R355). -/
def execTrace (a b : Gpr) (s : State) : Host.Outcome State Fault Refusal :=
  run s do
    if (s.die (dieOf s.myCore)).collects 1 then do
      need (decide ((s.traceOf (traceSource s.focus)).length < 8)) .stall
      .ok ((s.emitTask s.focus 1 [s.g a, s.g b, s.me.here]).retire 4)
    else .ok (s.retire 4)

/-- `idle`: completes once DIECLK has reached the deadline, with DIECLK in gd (R356). -/
def execIdle (d a : Gpr) (s : State) : Host.Outcome State Fault Refusal :=
  run s do
    need (!(s.clock s.myCore).ult (s.g a)) (.wait .time)
    .ok ((s.setG d (s.clock s.myCore)).retire 4)

end Sys2Proof.Machine
end

