-- ==== Sys2Proof/Machine/L2Events.lean ====
section
/-! DEFINITION. The events of L2 slices and stack ports: fills, evictions, translations with their access counters, attribute
queries, owed notifications, replication and its withdrawal (R266, R269, R270, R323, R324, R328-R330). -/

namespace Sys2Proof.Machine

/-! ### Fills and evictions (R266) -/

/-- SECTOR_FILL (R266): a sector of a line, named by VA[55:8], is filled from HBM. -/
def execSectorFill (asid line sector : Nat) (s : State) : Host.Outcome State Fault Refusal :=
  .next (if sector < 4 then s.fillSector asid (line * 256 + 64 * sector) else s)

/-- EVICTION (R266): a line present in L2 is written back and leaves its slice. -/
def execEviction (asid line : Nat) (s : State) : Host.Outcome State Fault Refusal :=
  .next (if (tfind s.l2 (lineKey asid (line * 256))).isSome then s.dropLine asid (line * 256) else s)

/-! ### Notifications (R328-R330) -/

/-- Entries of the notification queue in use (R329). -/
def State.mqUsed (s : State) : Nat := s.mqTail - s.mqHead

/-- The entries a HOT notification may fill: one is reserved for PINNED (R330). -/
def mqHotRoom : Nat := 4095

/-- A notification record (R330): `type` 0 is HOT, 1 PINNED. -/
def State.mqRecord (s : State) (asid va req count type : Nat) : List Word :=
  let stack := homeStack va
  [BitVec.ofNat 64 (pageBase va % 2 ^ 56),
   BitVec.ofNat 64 (spaceOf asid va % 65536 + req % 1024 * 2 ^ 16 + count % 65536 * 2 ^ 32 + stack * 2 ^ 48 + type * 2 ^ 52),
   (s.die (stack / 3)).dieclk, 0]

/-- The place of an entry of the notification queue: 4,096 of 32 bytes in class-3 memory (R329, DESIGN CHOICE, log 110). -/
def mqPlace (n : Nat) : Loc :=
  let va := 3 * 2 ^ 54 + Config.mqBase * 131072 % 2 ^ 54 + 32 * (n % 4096)
  .glob (spaceOf 0 va) va

/-- The queue's record takes its entry, written by the curator of the port's die, and the hardware advances MQTAIL (R329); `false`: it waits for the
queue's page (R327, DESIGN CHOICE, log 108). -/
def State.mqPush (s : State) (stack : Nat) (r : List Word) : Bool × State :=
  let p := Party.curator (stack / 3)
  match s.askLeave p true (mqPlace s.mqTail) 32 with
  | (.now, s) => (true, { s.hwWrite p [] none (mqPlace s.mqTail) (bytesOfDwords r) [] with mqTail := s.mqTail + 1 })
  | (.later, s) => (false, s)
  | (.never, s) => (true, { s with mqTail := s.mqTail + 1 })

/-- COUNT of an access-counter record (R328). -/
def recCount (r : Word) : Nat := bits r 48 16

/-- REQ of an access-counter record (R328). -/
def recReq (r : Word) : Nat := bits r 38 10

/-- PEND of an access-counter record (R328). -/
def recPend (r : Word) : Nat := bits r 36 2

/-- An access-counter record (R328). -/
def recOf (count req pend : Nat) : Word :=
  BitVec.ofNat 64 (count % 65536 * 2 ^ 48 + req % 1024 * 2 ^ 38 + pend % 4 * 2 ^ 36)

/-- The number of the 64 KiB frame whose record counts a page (R328). -/
def frameNo (pte : Word) : Nat := frameOf pte / 65536

/-- A remote allocation is counted (R328, R329): at MIGTHR a HOT notification is queued, or owed when the queue has no room. A pinned
page only counts (R347). What waits for the queue's page has no effect yet. -/
def State.countRemote (s : State) (asid va : Nat) (pte : Word) (pkg : Nat) : State :=
  let f := frameNo pte
  let r := s.counterOf f
  let n := min 65535 (recCount r + 1)
  if pte.getLsbD 61 || decide (n < s.conf.migthr) || decide (recPend r ≠ 0) then
    s.putRecord f (recOf n pkg (if pte.getLsbD 61 then 0 else recPend r))
  else if s.mqUsed < mqHotRoom then
    match s.mqPush (homeStack va) (s.mqRecord asid va pkg n 0) with
    | (true, s) => s.putRecord f (recOf n pkg 1)
    | (false, s) => s
  else
    { s.putRecord f (recOf n pkg 2) with
      mqOvf := if s.mqOvf = BitVec.allOnes 32 then s.mqOvf else s.mqOvf + 1
      owed := tput s.owed f (spaceOf asid va, pageBase va) }

/-- PEND_SCAN for one record (R329): an owed notification is queued while there is room; a record reset meanwhile is skipped. -/
def State.payOwed (s : State) (e : Nat × Nat × Nat) : State :=
  let r := s.counterOf e.1
  if recPend r ≠ 2 then { s with owed := tdel s.owed e.1 }
  else if s.mqUsed < mqHotRoom then
    match s.mqPush (homeStack e.2.2) (s.mqRecord e.2.1 e.2.2 (recReq r) (recCount r) 0) with
    | (true, s) => { s.putRecord e.1 (recOf (recCount r) (recReq r) 1) with owed := tdel s.owed e.1 }
    | (false, s) => s
  else s

/-- PEND_SCAN (R329): once occupancy is 2,048 or fewer, a stack's owed notifications in ascending frame order. -/
def execPendScan (stack : Nat) (s : State) : Host.Outcome State Fault Refusal :=
  let mine := (s.owed.filter fun e => homeStack e.2.2 == stack).mergeSort fun a b => decide (a.1 ≤ b.1)
  .next (if s.mqUsed ≤ 2048 then mine.foldl State.payOwed s else s)

/-! ### Translation (R323, R324) -/

/-- SLICE_TRANSLATION (R324, R328): a translation for a line's allocation or write-back, made on behalf of a package; a leaf that
counts is counted for another package; a page that is not there is reported. -/
def execSliceTranslation (asid va pkg : Nat) (s : State) : Host.Outcome State Fault Refusal :=
  let w := s.translate asid va
  let s := s.sliceAsk asid va
  .next (if w.kind = 2 ∧ pkg ≠ s.pkg ∧ w.pte.getLsbD 60 then s.countRemote asid va w.pte pkg else s)

/-- ATTRIBUTE_QUERY (R323): the home stack's port answers a miss of a page-attribute cache. -/
def execAttributeQuery (unit asid va : Nat) (s : State) : Host.Outcome State Fault Refusal :=
  .next ((s.noteMalformed (s.translate asid va)).fillAttr unit asid va)

/-! ### Replication and withdrawal (R269, R270) -/

/-- A line is being withdrawn. -/
def State.lineWithdrawn (s : State) (key : Nat) : Bool := s.dies.any fun e => e.2.withdrawing.any (·.1 == key)

/-- A line's loads of the last 4,096 cycles at its home, by core (R269). -/
def State.hotLoads (s : State) (key : Nat) : List Nat :=
  ((tget s.hot key []).filter fun e => decide (s.cycle < e.2 + 4096)).map (·.1)

/-- At least 64 loads from at least two quadrants (R269). -/
def State.hotLine (s : State) (key : Nat) : Bool :=
  let l := s.hotLoads key
  let place (c : Nat) : Nat := 4 * dieOf c + quadrantOf c
  decide (64 ≤ l.length) && l.any fun a => l.any fun b => place a != place b

/-- A line had no write and no `cinv` within the last 4,096 cycles (R269). -/
def State.quietLine (s : State) (asid va : Nat) : Bool :=
  (tfind s.invalidated (lineKey asid va)).all (fun n => decide (n + 4096 ≤ s.cycle)) && s.hist.all fun w => decide (w.arrivedAt + 4096 ≤ s.cycle) || !(w.loc.line == .glob (spaceOf asid va) (va / 256))

/-- A redirect joins the 32 of a core's interface, the oldest replaced (R269, DESIGN CHOICE, log 27). -/
def Core.redirect (c : Core) (key : Nat) : Core := { c with redirects := (key :: c.redirects.filter (· != key)).take 32 }

/-- REPLICATION (R269): a hot line goes to one helper slice in each other quadrant of its home die, and a redirect to the interface of every
core that read it. With 256 lines replicated the die evicts the oldest (DESIGN CHOICE, log 27). -/
def execReplication (asid line : Nat) (s : State) : Host.Outcome State Fault Refusal :=
  let va := line * 256
  let key := lineKey asid va
  let home := s.homeSlice asid va
  let d := home / 96
  let q := home % 96 / 24
  .next (if (tfind s.l2 key).isSome ∧ !s.replicated (.glob (spaceOf asid va) va) ∧ !s.lineWithdrawn key ∧
      s.hotLine key ∧ s.quietLine asid va then
    let s := match (s.die d).replicas with
      | [] => s
      | o :: _ => if (s.die d).replicas.length < 256 then s else s.dropReplicas o.1
    let s := s.modDie d fun k => { k with replicas := k.replicas ++ [(key, [0, 1, 2, 3].filter (· != q))] }
    (s.hotLoads key).eraseDups.foldl (fun s c => s.modCore c fun k => k.redirect key) s
  else s)

/-- A unit drops its redirect or its replica of a line: cores by number, the helper of quadrant h of die d as 1000 + 4 * d + h. -/
def State.dropAt (s : State) (key unit : Nat) : State :=
  if unit < 1000 then s.modCore unit fun c => { c with redirects := c.redirects.filter (· != key) }
  else s.modDie ((unit - 1000) / 4) fun d => { d with
    replicas := d.replicas.map fun r => if r.1 = key then (r.1, r.2.filter (· != (unit - 1000) % 4)) else r }

/-- A unit drops what it holds of a line and acknowledges; after the last one the line is no longer replicated (R270). -/
def State.withdrawAck (s : State) (asid line unit : Nat) : State :=
  let va := line * 256
  let key := lineKey asid va
  let d := s.homeSlice asid va / 96
  match (s.die d).withdrawing.find? (·.1 == key) with
  | none => s
  | some e =>
    if !e.2.contains unit then s
    else
      let left := e.2.filter (· != unit)
      let s := s.dropAt key unit
      if left = [] then
        (s.modDie d fun k => { k with withdrawing := k.withdrawing.filter (·.1 != key) }).dropReplicas key
      else s.modDie d fun k => { k with withdrawing := k.withdrawing.map fun r => if r.1 = key then (key, left) else r }

end Sys2Proof.Machine
end

