-- ==== Sys2Proof/Machine/HostPort.lean ====
section
/-! DEFINITION. The host port, the start sequence and the module's sensors (R272, R332-R341). -/

namespace Sys2Proof.Machine

/-! ### Quadrant windows (R272, R335) -/

/-- The service core of a window, a party of die 0 (R272, R282). -/
def windowParty (q : Nat) : Party := .service q

/-- The address space of a host function (R5, R335): the PF's is Tardar's management space, of number 0 (DESIGN CHOICE, log 111). -/
def hostAsid (fn : Nat) : Nat := if fn = 0 then 0 else Config.hostSpace fn % 65536

/-- WBASE of a window of a host function: 0 is the PF, 1-8 the VFs (R335). -/
def State.wbaseOf (s : State) (fn q : Nat) : Word := tget s.wbase (4 * fn + q) 0

/-- The virtual address of an offset of a window (R335). -/
def State.windowVa (s : State) (fn q off : Nat) : Nat := ((s.wbaseOf fn q).toNat + off) % 2 ^ 56

/-- The pieces of a byte string that lie in one 64-byte sector each: offset and length. -/
def sectorPieces (a n : Nat) : List (Nat × Nat) :=
  let cuts := sectorStarts a n
  cuts.zipIdx.map fun (o, i) => (o, (cuts[i + 1]?).getD n - o)

/-- Bytes written to global memory by a hardware party, sector by sector, each carrying what the party knows and its release (R276). -/
def State.partyWrite (s : State) (p : Party) (rel : Option Release) (asid va : Nat) (bs : List Byte) : State :=
  (sectorPieces va bs.length).foldl (fun s e =>
    s.hwWrite p [] rel ((Loc.glob (spaceOf asid va) va).plus e.1) ((bs.drop e.1).take e.2) []) s

/-- A release of a hardware party at `.pkg`: what it knows (R278, R282). -/
def State.releaseOf (s : State) (p : Party) : Option Release := some ⟨4, s.knownOf p, p⟩

/-- A reply to the host. -/
def State.reply (s : State) (r : HostReply) : State := { s with hostReplies := s.hostReplies ++ [r] }

/-- A posted write of the host (R272, R335): performed and visible at `.pkg`, the data of a poisoned one poisoned in memory (R331); refused, it is
dropped and Tardar is told. `false`: it waits, for a page or for the withdrawal of a replicated line (R270). -/
def State.hostWrite (s : State) (fn q off : Nat) (data : List Byte) (ep : Bool) : Bool × State :=
  let a := hostAsid fn
  let va := s.windowVa fn q off
  if !s.boot.done then (true, s)
  else match s.askLeave (windowParty q) true (.glob (spaceOf a va) va) data.length with
    | (.now, s) =>
      let s := s.partyWrite (windowParty q) (s.releaseOf (windowParty q)) a va data
      (true, (if ep then s.poisonRange (.glob (spaceOf a va) va) data.length else s).wakeWatchers)
    | (.later, s) => (false, s)
    | (.never, s) => (true, s)

/-- A read of the host (R272, R333, R335): EP = 1 where a sector is bad; Completer Abort where the page refuses it or before stage 6. -/
def State.hostRead (s : State) (fn q off n : Nat) : Bool × State :=
  let a := hostAsid fn
  let va := s.windowVa fn q off
  let l := Loc.glob (spaceOf a va) va
  if !s.boot.done then (true, s.reply .completerAbort)
  else match s.askLeave (windowParty q) false l n with
    | (.now, s) =>
      let (ep, s) := s.takeUnsound l n
      let (bs, s) := s.engineRead (windowParty q) l n
      (true, s.reply (.data bs ep))
    | (.later, s) => (false, s)
    | (.never, s) => (true, s.reply .completerAbort)

/-- One request of a window is begun (R272, R335): is it done? -/
def State.hostDo (s : State) (q : Nat) : HostReq → Bool × State
  | .write fn off data ep => s.hostWrite fn q off data ep
  | .read fn off n => s.hostRead fn q off n
  | .wbase fn (some v) => (true, { s with wbase := tput s.wbase (4 * fn + q) v })
  | .wbase fn none => (true, s.reply (.data (natBytes (s.wbaseOf fn q).toNat 8) false))

/-- A window's service core performs its requests in the order they arrived, until one waits (R272). -/
def State.serveWindow (q : Nat) : List HostReq → State → State
  | [], s => { s with windows := tdel s.windows q }
  | r :: l, s =>
    match s.hostDo q r with
    | (true, s) => State.serveWindow q l s
    | (false, s) => { s with windows := tput s.windows q (r :: l) }

/-- A request that the host port takes (R335): of the PF or one of 8 VFs, within the window's 64 MiB, a write of at most 256 bytes, a read of at
most 4 KiB. -/
def HostReq.fits : HostReq → Bool
  | .write fn off data _ => decide (fn ≤ 8) && decide (off + data.length ≤ 2 ^ 26) && decide (data.length ≤ 256)
  | .read fn off n => decide (fn ≤ 8) && decide (off + n ≤ 2 ^ 26) && decide (n ≤ 4096)
  | .wbase fn _ => decide (fn ≤ 8)

/-- A request arrives in a window (R272): behind those that wait. There are four windows (R335). -/
def State.hostAsks (s : State) (q : Nat) (r : HostReq) : State :=
  if 4 ≤ q ∨ !r.fits then s
  else match tget s.windows q [] with
    | [] => State.serveWindow q [r] s
    | l => { s with windows := tput s.windows q (l ++ [r]) }

/-- A page is there, or declared invalid: the requests that waited in a window go on (R335). -/
def State.serveWindows (s : State) : State :=
  [0, 1, 2, 3].foldl (fun s q => match tget s.windows q [] with
    | [] => s
    | l => State.serveWindow q l s) s

/-- HOST_WINDOW_WRITE (R272, R335). -/
def execHostWindowWrite (fn q off : Nat) (data : List Byte) (s : State) : Host.Outcome State Fault Refusal :=
  .next (s.hostAsks q (.write fn off data false))

/-- HOST_WINDOW_READ (R272, R333, R335): the read returns after the window's earlier writes. -/
def execHostWindowRead (fn q off n : Nat) (s : State) : Host.Outcome State Fault Refusal := .next (s.hostAsks q (.read fn off n))

/-- WBASE (R335): ordered with the other requests of its window. -/
def execWbase (fn q : Nat) (v : Word) (s : State) : Host.Outcome State Fault Refusal := .next (s.hostAsks q (.wbase fn (some v)))

/-- WITHDRAW_ACK (R270): after the last acknowledgement the writes that wait at the line's home may arrive, the host's among them. -/
def execWithdrawAck (asid line unit : Nat) (s : State) : Host.Outcome State Fault Refusal := .next (s.withdrawAck asid line unit).serveWindows

/-- Tardar raises an MSI-X vector of a function, 32 for each (R335). -/
def State.msix (s : State) (fn vector : Nat) : State := if fn ≤ 8 ∧ vector < 32 then s.reply (.interrupt fn vector) else s

/-! ### The start sequence (R336-R340) -/

/-- A start is under way. -/
def Boot.running (b : Boot) : Bool := b.stage != 0 && !b.done && !b.fail

/-- The machine as a start begins (R336): registers at their reset values, stage 1; the SRAM arrays with their valid bits and the L2 mode stay until
stage 4 and HBM until stage 3. What lies outside the device, the stored images, the configuration in force and what drives the model stay. -/
def State.beginStart (s : State) (warm retry : Bool) (starts : BitVec 32) : State :=
  { State.reset with
    cores := s.cores.map fun e => (e.1, { Core.reset with mem := e.2.mem, rings := e.2.rings, cacheLines := e.2.cacheLines })
    quads := s.quads.map fun e => (e.1, { Quad.reset with annex := e.2.annex, cas := e.2.cas })
    l2 := s.l2
    l2Partitioned := s.l2Partitioned
    tlbs := s.tlbs
    attrs := s.attrs
    peers := s.peers
    hbm := s.hbm
    image := s.image
    conf := s.conf
    rollback := s.rollback
    tardar := s.tardar
    peerMem := s.peerMem
    pkg := s.pkg
    links := s.links
    unreachable := s.unreachable
    halfClock := s.halfClock
    hostReplies := s.hostReplies
    nextId := s.nextId
    boot := { Boot.reset with
      stage := 1, warm := warm, retry := retry, starts := starts, trained := s.boot.trained, requests := s.boot.requests }
    cycle := s.cycle
    focus := s.focus
    schedule := s.schedule
    choices := s.choices
    tick := s.tick }

/-- A cold start begins (R336, R337); STARTS counts from power-on. -/
def State.coldStart (s : State) : State := s.beginStart false false (if s.boot.fail then 1 else s.boot.starts + 1)

/-- COLD_START (R336, R339): by BOOTCMD, or by power-on where no start was made since or the last one stopped; ignored while a start
runs. -/
def execColdStart (s : State) : Host.Outcome State Fault Refusal :=
  .next (if s.boot.running then s else s.coldStart)

/-- A write of BOOTCMD (R339): CMD 1 asks for a warm start, which with no retained parameters runs as a cold one (R336), 2 for a cold start;
ignored while a start runs; before power-on and after FAIL nothing takes it. -/
def State.bootCmd (s : State) (v : Word) : State :=
  if s.boot.running ∨ s.boot.stage = 0 ∨ s.boot.fail then s
  else if bits v 0 2 = 1 then s.beginStart s.boot.trained false (s.boot.starts + 1)
  else if bits v 0 2 = 2 then s.coldStart
  else s

/-- WARM_START (R336, R339): BOOTCMD.CMD = 1. -/
def execWarmStart (s : State) : Host.Outcome State Fault Refusal := .next (s.bootCmd 1)

/-- BOOTSTAT (R339). -/
def Boot.stat (b : Boot) : Word :=
  let flag (c : Bool) (n : Nat) : Nat := if c then 2 ^ n else 0
  BitVec.ofNat 64 (b.stage % 256 * 2 ^ 56 + b.code % 256 * 2 ^ 48 + flag b.done 47 + flag b.fail 46 + flag b.warm 45 + flag b.retry 44 +
    b.starts.toNat)

/-- A read of a doubleword of a function's BAR2 (R8, R335, R339): BOOTCMD is write-only and reads as zero, a VF reads zero. -/
def State.bar2Read (s : State) (fn off : Nat) : State :=
  if 0x1000 ≤ off ∧ off < 0x1020 ∧ off % 8 = 0 then s.hostAsks ((off - 0x1000) / 8) (.wbase fn none)
  else s.reply (.data (natBytes (if fn = 0 ∧ off = 0 then s.boot.stat else 0).toNat 8) false)

/-- A write of a doubleword of a function's BAR2 (R8, R335, R339): BOOTSTAT is read-only, a VF's writes of the boot mailbox are ignored. -/
def State.bar2Write (s : State) (fn off : Nat) (v : Word) : State :=
  if 0x1000 ≤ off ∧ off < 0x1020 ∧ off % 8 = 0 then s.hostAsks ((off - 0x1000) / 8) (.wbase fn (some v))
  else if fn = 0 ∧ off = 8 then s.bootCmd v
  else s

/-- An access of the host to BAR2; nothing answers before the first start (R335). -/
def State.bar2 (s : State) (fn off : Nat) (v : Option Word) : State :=
  if s.boot.stage = 0 then s
  else match v with
    | none => s.bar2Read fn off
    | some v => s.bar2Write fn off v

/-- The banks of a core that a warm start's scrub leaves: Cache and FIFO by the reset roles (R116, R336). -/
def Memory.keepBanks (m : Memory) : Memory := m.banks fun b => decide (256 ≤ b) && decide (b < 352)

/-- Every core's RINGWAIT at the image's default (R134, R341). -/
def State.setRingwait (s : State) (w : Nat) : State :=
  if w = 4096 then s else (List.range 640).foldl (fun s c => s.modCore c fun k => { k with ringwait := BitVec.ofNat 32 w }) s

/-- Every die's route table at the image's default (R262, R341). -/
def State.setRoutes (s : State) (r : Vector Nat 8) : State :=
  if r = routesReset then s else [0, 1, 2, 3].foldl (fun s d => s.modDie d fun k => { k with routes := r }) s

/-- Stage 4 scrubs the SRAM arrays (R336), all of them or only the Shadow and Scratch banks in a warm start, clears every valid bit and
configuration, leaving the image's defaults (R341), and sets the L2 mode to shared. -/
def State.scrub (s : State) : State :=
  let s : State := { s with
    cores := s.cores.map fun e => (e.1, { e.2 with
      mem := if s.boot.warm then e.2.mem.keepBanks else Memory.empty, rings := Vector.replicate 32 none, cacheLines := [] })
    quads := s.quads.map fun e => (e.1, { e.2 with annex := [], cas := Vector.replicate 16 none })
    l2 := []
    l2Partitioned := false
    tlbs := []
    attrs := []
    peers := [] }
  (s.setRingwait s.conf.ringwait).setRoutes s.conf.routes

/-- Stage 3 trains the HBM; a cold start leaves no contents (R336, DESIGN CHOICE, log 4). -/
def State.train (s : State) : State :=
  let s : State := { s with boot := { s.boot with trained := true } }
  if s.boot.warm then s else { s with hbm := Memory.empty }

/-- What the measurement of a configuration image covers (R340). -/
def Image.words (i : Image) : List Nat :=
  i.version :: i.inlet :: i.flow :: i.migthr :: i.ringwait :: (i.routes.toList ++ i.more.toList ++ i.trims)

/-- The measurements of the current start (R340). -/
def State.measurements (s : State) : HostReply :=
  .measurements (Config.digest 1 []) (Config.digest 2 s.boot.config) (Config.digest 3 s.boot.tardar) s.boot.warm s.boot.starts

/-- The next stage begins: its number is written and its time counted from now (R336, R338). -/
def State.enterStage (s : State) (n : Nat) : State := { s with boot := { s.boot with stage := n, since := (s.die 0).dieclk } }

/-- Stage 6: DONE := 1, and the measurement requests made during the start are answered (R336, R340). -/
def State.ready (s : State) : State :=
  { s with
    boot := { s.boot with done := true, requests := 0 }
    hostReplies := s.hostReplies ++ List.replicate s.boot.requests s.measurements }

/-- A stage has failed with a code (R337): one further attempt as a cold start, then the device stops. -/
def State.failStage (s : State) (code : Nat) : State :=
  if s.boot.retry then { s with boot := { s.boot with fail := true, code := code } }
  else s.beginStart false true (s.boot.starts + 1)

/-- Stage 2 verifies the stored configuration image's signature and anti-rollback version, measures it and applies it (R336, R340, R341); one of
the two wrong fails with CODE 1 (R339). An image applied raises the counter to its version (DESIGN CHOICE, log 30). -/
def State.applyImage (s : State) : State :=
  if s.image.good ∧ s.rollback ≤ s.image.version then
    ({ s with conf := s.image, rollback := s.image.version, boot := { s.boot with config := s.image.words } } : State).enterStage 3
  else s.failStage 1

/-- The task that a service core's context holds when Tardar's image starts (R268, R336, DESIGN CHOICE, log 111): Running at the image's entry, of
no job, with an identifier that no task has. -/
def Task.tardar (q : Nat) : Task :=
  { Task.empty with life := .running, pc := Config.tardarEntry, job := 65536, tid := BitVec.ofNat 64 (2 ^ 64 - 4 * (q + 1)) }

/-- Stage 5 verifies and measures Tardar's image, and starts it on the 16 service cores (R336); a wrong signature fails with CODE 2 (R339). -/
def State.startTardar (s : State) : State :=
  if s.tardar.good then
    let t : State := { s with boot := { s.boot with tardar := s.tardar.content } }
    ((List.range 16).foldl (fun t q => t.setTask (10240 + q) (Task.tardar q)) (t.enterStage 6)).ready
  else s.failStage 2

/-- The time limit of a stage in ns (R338): the image in force may lengthen those of stages 3 to 5. -/
def stageLimit (c : Image) (warm : Bool) (stage : Nat) : Nat :=
  match stage with
  | 1 => 50000000
  | 2 => 250000000
  | 3 => (if warm then 400000000 else 4000000000) + c.more[0]
  | 4 => (if warm then 200000000 else 1500000000) + c.more[1]
  | _ => 2000000000 + c.more[2]

/-- The stage under way has run past its limit (R338). -/
def State.late (s : State) : Bool := decide (stageLimit s.conf s.boot.warm s.boot.stage < ((s.die 0).dieclk - s.boot.since).toNat)

/-- STAGE_COMPLETE (R336): within its limit (R338). -/
def execStageComplete (s : State) : Host.Outcome State Fault Refusal :=
  .next (if !s.boot.running || s.late then s
  else match s.boot.stage with
    | 1 => s.enterStage 2
    | 2 => s.applyImage
    | 3 => s.train.enterStage 4
    | 4 => s.scrub.enterStage 5
    | _ => s.startTardar)

/-- The code of a failure of a stage (R339). -/
def stageCode : Nat → Nat
  | 2 => 1
  | 3 => 3
  | 4 => 4
  | 5 => 2
  | _ => 0

/-- STAGE_FAILURE (R337, R339): the code belongs to the stage under way. -/
def execStageFailure (code : Nat) (s : State) : Host.Outcome State Fault Refusal :=
  .next (if s.boot.running ∧ code ≠ 0 ∧ stageCode s.boot.stage = code then s.failStage code else s)

/-- STAGE_TIMEOUT (R338): a stage past its limit fails with CODE 5. -/
def execStageTimeout (s : State) : Host.Outcome State Fault Refusal :=
  .next (if s.boot.running && s.late then s.failStage 5 else s)

/-- GET_MEASUREMENTS (R335, R340): answered from stage 1 on; a request made during a start waits for it. -/
def execGetMeasurements (s : State) : Host.Outcome State Fault Refusal :=
  .next (if s.boot.stage = 0 then s
  else if s.boot.running then { s with boot := { s.boot with requests := s.boot.requests + 1 } }
  else s.reply s.measurements)

/-- The root of trust answers another SPDM 1.2 request, with SHA-384, ECDSA P-384 and the certificate chain in slot 0, from stage 1 on (R335, R340). -/
def State.spdm (s : State) (r : Spdm) : State :=
  if s.boot.stage = 0 then s
  else s.reply (match r with
    | .version => .version 1 2
    | .algorithms => .algorithms 384 384
    | .digests => .digests 1 (Config.digest 0 (Config.certChain.map BitVec.toNat))
    | .certificate 0 off len => .certificate ((Config.certChain.drop off).take len)
    | .challenge 0 nonce => .challengeAuth (Config.digest 0 (Config.certChain.map BitVec.toNat)) (Config.signature nonce)
    | _ => .refused)

/-! ### Soft errors and cooling (R334, R341) -/

/-- A place in the SRAM arrays: a sector of a core's banks, or from 640 on a sector of the L2 line with that key. -/
def State.poisonSram (s : State) (unit n : Nat) : State :=
  if unit < 640 then s.poisonAt (.bank unit (64 * n))
  else s.poisonAt (.glob (keyAsid (unit - 640)) (keyVa (unit - 640) + 64 * (n % 4)))

/-- CORRECTABLE_ERROR (R334): a correctable error is counted on its die; an uncorrectable one in data poisons its sector. -/
def execCorrectableError (die : Nat) (loc : Option (Nat × Nat)) (s : State) : Host.Outcome State Fault Refusal :=
  .next (match loc with
    | none => s.modDie die fun d => { d with correctable := d.correctable + 1 }
    | some (u, n) => s.poisonSram u n)

/-- A bit of a vector of sector bits set. -/
def markSector (v : BitVec 4) (sector : Nat) : BitVec 4 := v ||| (1 : BitVec 4) <<< sector

/-- Poisoned data. -/
def Datum.spoil (d : Datum) : Datum := { d with bad := true }

/-- An entry of a list changed. -/
def changeAt {α : Type} (l : List α) (n : Nat) (f : α → α) : List α := l.zipIdx.map fun (x, i) => if i = n then f x else x

/-- An uncorrectable error in data poisons it where it lies (R331, R334); a burst of HBM is read as poisoned. -/
def State.upset (s : State) : Upset → State
  | .cached core key sector => s.modCore core fun c => { c with
      cacheLines := c.cacheLines.map fun e => if e.key = key then { e with poison := markSector e.poison sector } else e }
  | .annex quad key sector => s.modQuad quad fun q => { q with
      annex := q.annex.map fun e => if e.key = key then { e with poison := markSector e.poison sector } else e }
  | .staging coll chunk => { s with colls := s.colls.map fun k => if k.id = coll then
      { k with keep := k.keep.map fun e => if e.1 = chunk then (e.1, e.2.1, true) else e } else k }
  | .fifo quad entry fifo datum => s.modCas quad entry fun c => { c with
      fifos := changeAt c.fifos fifo fun f => { f with data := changeAt f.data datum fun e => (e.1.spoil, e.2) } }
  | .offer quad entry port => s.modCas quad entry fun c => { c with
      ports := changeAt c.ports port fun p => { p with offer := p.offer.map fun e => (e.1.spoil, e.2) } }
  | .hbm sector => if sector < 12 * 2 ^ 30 then { s with hbm := { s.hbm with poison := addSector s.hbm.poison sector } } else s
  | .flits write => { s with path := s.path.map fun w => if w.id = write then { w with bad := true } else w }

/-- COOLANT_OUT_OF_LIMITS (R341): the arithmetic clock halves and Tardar is told. -/
def execCoolantOutOfLimits (s : State) : Host.Outcome State Fault Refusal :=
  .next (if s.halfClock then s else ({ s with halfClock := true } : State).notify (.coolant false))

/-- COOLANT_WITHIN_LIMITS (R341): the device runs at 2.7 GHz again. -/
def execCoolantWithinLimits (s : State) : Host.Outcome State Fault Refusal := .next { s with halfClock := false }

/-- The coolant has an inlet temperature and a flow, which the configuration in force finds within its limits or not (R341). -/
def coolantIs (inlet flow : Nat) (s : State) : Host.Outcome State Fault Refusal :=
  if inlet ≤ s.conf.inlet ∧ s.conf.flow ≤ flow then execCoolantWithinLimits s else execCoolantOutOfLimits s

end Sys2Proof.Machine
end

