-- ==== Sys2Proof/Machine/Issue.lean ====
section
/-! DEFINITION. What a context does at an instruction boundary before an instruction runs (R25, R76-R78, R113, R114, R213), and
how a program is placed for the first fetch (DESIGN CHOICE, log 1). -/

namespace Sys2Proof.Machine

/-- What the context in focus does next: a state it enters without an instruction, or an instruction it runs. -/
inductive Choice where
  | done (s : State)
  | run (i : Instr) (s : State)

/-- Delivery of the oldest waiting ENGINE interrupt at a boundary (R212, R213). -/
def State.takeIrq (s : State) (t : Nat) : State :=
  match (s.task t).irqs with
  | [] => s
  | q :: r => (s.modTask t fun x => { x with irqs := r }).deliver t (s.task t).here 9 q.sub q.val (some q.info)

/-- An ENGINE interrupt is taken outside the trap entry, where the job has one (R213), and not while an `hhold` or `hrel` stalls. -/
def State.irqReady (s : State) (t : Nat) : Bool :=
  let x := s.task t
  !x.irqs.isEmpty && !x.nest && (s.job x.job).desc.trapEntry != 0 && x.reply.isNone

/-- The instruction of the frame, or of the program counter; a word that is none takes its exit (R74, R77). -/
def State.fetchChoice (s : State) : Choice :=
  match s.me.frame with
  | some f =>
    match f.instr with
    | some i => .run i s.noteIssue
    | none => .done (s.onMe fun x => { x with frame := none })
  | none =>
    match s.fetch s.focus s.me.pc.toNat with
    | .error e => .done (s.takeExit e)
    | .ok (.bad v d) => .done (s.takeExit (badExit s v d))
    | .ok (.instr i _ _) => .run i s.fetched

/-- A `yield` is over once every task that was to issue before has issued or runs no more, or after 16 cycles (R100). -/
def State.yieldOver (s : State) (t : Nat) : Bool :=
  (s.task t).yielded.all fun e => decide (e.1 + 16 ≤ s.cycle) || e.2.all fun t => (s.task t).life != .running

/-- A sink datum that the context kept while it was saved or moved is still to land (R254). -/
def Task.landsFirst (x : Task) : Bool := x.p.toList.any fun p => p.any fun r => r.landing.isSome

/-- The data kept for a context's handles land, each once its area is no longer watched (R207, R246, R254). -/
def State.landKept (s : State) : State :=
  (List.range 16).foldl (fun s h => match (s.me.port h).bind fun r => r.landing.map fun l => (r, l) with
    | some (r, off, data) =>
      if s.watchedRange s.myCore off data.bytes.length then s
      else (s.landDatum s.focus off data).onMe fun x => x.setPort h (some { r with landing := none })
    | none => s) s

/-- A commit under way: what is left of the buffer goes out before the task meets its next boundary (R93, R103). -/
def Task.committing (x : Task) : Bool := x.committed && !x.shadow.isEmpty

/-- The barrier at hand, its generation complete, with the releases of its participants (R286). -/
def Task.barDone (x : Task) : Option (Nat × List Nat) := x.barHere.bind fun b => b.passed.map fun snap => (b.scope, snap)

/-- A hold that came while something held it off takes effect (R103, R201, R301). -/
def Task.holdDue (x : Task) : Bool := x.life == .running && x.onHold && x.reply.isNone

/-- The context's boundary has more to do than to take a trap or an instruction. -/
def Task.owes (x : Task) : Bool :=
  x.committing || x.landsFirst || x.resends || x.portDue || (x.life == .running && (x.barDone.isSome || x.waitsOn.isSome)) || x.holdDue

/-- A breakpoint at the instruction at hand has not been reported yet (R114). -/
def Task.stopsHere (x : Task) : Bool := x.brk.contains x.here && !x.skipStop.getLsbD 0

/-- The first offer of the context that is to be made again leaves once its release is complete (R253, R254). -/
def State.resend (s : State) : State :=
  match (List.range 16).findSome? fun h => (s.me.port h).bind fun r => r.again.map fun a => (h, r, a) with
  | none => s
  | some (h, r, off, data) => match s.releaseNow s.focus (s.nameScope r.name) with
    | (false, s) => s
    | (true, s) => (s.offerOut s.focus r data).onMe fun x => x.setPort h (some { r with offered := some (off, data), again := none })

/-- The instruction that waits for a port completes (R23, R24, R247). -/
def State.endPort (s : State) : State :=
  match s.me.portWait with
  | some (.fire d hs) => match hs.findSome? fun h => (s.me.port h).bind fun r => r.done.map fun snap => (h, r, snap) with
    | some (h, r, snap) => s.completeFire s.focus h r d snap
    | none => s
  | some (.replied d v) => s.endWait s.focus d v
  | _ => s

/-- A `bar` whose generation is complete retires with its acquire, which synchronises with every participant's release (R286). -/
def State.leaveBar (s : State) (scope : Nat) (snap : List Nat) : State :=
  ((s.acquire s.focus scope).acquireFrom s.focus (some ⟨scope, snap, .task s.me.tid s.myCore⟩)).retire 4

/-- What a context's boundary does before a trap or an instruction, in order: a commit under way, data that were kept, offers to be made
again, the end of a wait, the return to a wait, a hold (R23, R24, R103, R254, R286). -/
def State.dueFirst (s : State) : Option State :=
  let x := s.me
  if x.committing then some ((s.commitNow s.focus).2.pass 1 0)
  else if x.landsFirst then some (s.landKept.pass 1 0)
  else if x.resends then some (s.resend.pass 1 0)
  else if x.portDue then some s.endPort
  else match x.barDone with
    | some (scope, snap) => some (s.leaveBar scope snap)
    | none => match x.waitsOn with
      | some w => some (s.onMe fun y => { y with life := .waiting w })
      | none => if x.holdDue then some (s.onMe fun y => { y with life := y.life.hold }) else none

/-- A context's boundary, in the order of R25, R113, R114 and R213. -/
def State.issueChoice (s : State) : Choice :=
  let x := s.me
  if !x.issues then .done (s.pass 1 0)
  else match s.dueFirst with
  | some t => .done t
  | none =>
    if !s.yieldOver s.focus then .done (s.pass 1 0)
    else match x.pendingTrap with
    | some (pc, c, sub, v, i) => .done ((s.onMe fun y => { y with pendingTrap := none }).deliver s.focus pc c sub v (some i))
    | none =>
      if x.stopsHere then .done (s.deliver s.focus x.here 10 1 x.here none)
      else if s.irqReady s.focus then .done (s.takeIrq s.focus)
      else s.fetchChoice

/-- The next thing a context does is to issue an instruction. -/
def State.instrNext (s : State) (t : Nat) : Bool :=
  let x := s.task t
  !x.owes && s.yieldOver t && x.pendingTrap.isNone && !x.stopsHere && !s.irqReady t

/-- The address code is placed at when the context's own program counter is 0. -/
def codeBase : Nat := 0x0000001000000000

/-- The bytes of a line with code at an offset, every other word holding zeros. -/
def codeLine (off : Nat) (bs : List Byte) : Line :=
  (bs.zipIdx.foldl (fun (l : Line) (b, i) => l.put ((off + i) % 256) b)
    { Line.invalid with mask := BitVec.allOnes 64 })

/-- The context in focus made to run at its program counter, with an executable page and the bytes in the L2 line (DESIGN CHOICE, log 1). -/
def State.placeCode (s : State) (bs : List Byte) : State :=
  let x := s.me
  let pc : Nat := if x.pc = 0 then codeBase else x.pc.toNat % 2 ^ 56 / 256 * 256
  let a := s.asid x.job
  let at_ : Attr := ⟨spaceOf a pc, pageClass pc, pc / 2 ^ pageShift pc, 2, true, true, true⟩
  let s := s.setTask s.focus { x with
    pc := BitVec.ofNat 64 pc, life := .running, frame := none, pendingTrap := none, irqs := [], moving := none,
    halt := none, engaged := false, brk := [], bars := [], portWait := none, yielded := none, shadow := [],
    holdReq := false, holdDbg := false, holdSys := false,
    p := x.p.map fun p => p.map fun r => { r with landing := none, again := none } }
  { s with
    schedule := [], boot := { s.boot with fail := false },
    attrs := tput s.attrs (unitOf s.focus) (at_ :: (tget s.attrs (unitOf s.focus) []).filter fun e => !at_.same e),
    l2 := tput s.l2 (lineKey a pc) (codeLine 0 bs) }

end Sys2Proof.Machine
end

