-- ==== Sys2Proof/Machine/Guards.lean ====
section
/-! DEFINITION. Guarded launch, the residual of a check, and the event crossbar's instructions (R223-R232). -/

namespace Sys2Proof.Machine

/-! ### glaunch (R223, R225) -/

/-- A header read as a global load (R223 check 4): word 0, and the header when it is valid. -/
def State.readHeader (s : State) (va : Nat) : Except Exit (Half32 × Option Header × State) := do
  let (bs, s) ← s.readGlobal va 8
  let w0 : Half32 := BitVec.ofNat 32 (leNat (bs.take 4))
  .ok (w0, Header.of w0 (BitVec.ofNat 32 (leNat (bs.drop 4))), s)

/-- A header of a surrogate or a check: valid, and restartable (R223 check 4). -/
def State.needRestartable (s : State) (h : Word) : Except Exit State := do
  let (w0, hd, s) ← s.readHeader (va56 h)
  need (hd.any (·.rst)) (.trap 1 0 (w0.setWidth 64) (some h))
  .ok s

/-- A misaligned address of the operand block, in its order (R223 check 3). -/
def needAligned (n : Nat) (v : Word) : Except Exit Unit := need (v.toNat % n == 0) (misalign v)

/-- The guard record at issue (R225): COUNT = n, and zeros. -/
def guardRecord (n : Nat) : List Byte := natBytes n 32

/-- A free guard entry of a quad (R223). -/
def State.freeGuard (s : State) (q : Nat) : Option Nat := (List.range 4).find? fun n => (vget (s.quad q).guards n none).all s.guardDone

/-- The guard entry `glaunch` fills (R223, R224). -/
def State.newGuard (s : State) (n : Nat) (b : Gpr) : Guard :=
  { job := s.me.job, n := n, next := 0, sur := s.g b, chk := s.g (gprPlus b 1), exa := s.g (gprPlus b 2), arg := s.g (gprPlus b 3),
    record := s.g (gprPlus b 4), gtol := s.me.gtol, cls := s.me.cls, redo := [], tiles := [] }

/-- `glaunch` (R223, R225): its checks, the commit of a restartable task, the record with a release at `.pkg`, the guard entry. -/
def execGlaunch (a b : Gpr) (s : State) : Host.Outcome State Fault Refusal :=
  run s do
    let i := Instr.glaunch a b
    let ga := s.g a
    let n := ga.toNat
    let rec_ := s.g (gprPlus b 4)
    need (decide (b.toNat ≤ 59)) (illegal i)
    need (decide (1 ≤ n) && decide (n ≤ 2 ^ 20)) (illegalInfo i ga)
    needAligned 4 (s.g b)
    needAligned 4 (s.g (gprPlus b 1))
    needAligned 4 (s.g (gprPlus b 2))
    needAligned 32 rec_
    let s ← s.needRestartable (s.g b)
    let s ← s.needRestartable (s.g (gprPlus b 1))
    let l := Loc.glob (spaceOf (s.asid s.me.job) (va56 rec_)) (va56 rec_)
    s.checkAccess l 32 accStore
    need (s.freeGuard (quadOf s.myCore)).isSome (if s.me.guarded then illegal i else .stall)
    s.irrevocable i fun s => s.released 4 fun s =>
      let g := s.newGuard n b
      let s1 := s.performNow s.focus (s.newWrite s.focus l (guardRecord n) [] none 0)
      let s2 := s1.modQuad (quadOf s1.myCore) fun q => { q with guards := (s.freeGuard (quadOf s.myCore)).elim q.guards fun e => vput q.guards e (some g) }
      .ok (s2.retire 4)

/-! ### gres (R227) -/

/-- The residual and the check's GTOL noted at the tile. -/
def State.noteResidual (s : State) (t : Nat) (r : BitVec 32) : State :=
  let x := s.task t
  match x.guard with
  | some (q, e, tile, _) => s.modQuad q fun k => { k with guards := vput k.guards e ((vget k.guards e none).map fun g =>
      { g with tiles := g.tiles.map fun y => if y.t = tile then { y with residual := some r, gtol := x.gtol } else y }) }
  | none => s

/-- Whether the task is a check (R227). -/
def Task.isCheck (x : Task) : Bool :=
  match x.guard with
  | some (_, _, _, .check) => true
  | _ => false

/-- `gres`: the check task retires, its shadow buffer is held for the decision (R227). -/
def execGres (a : Gpr) (s : State) : Host.Outcome State Fault Refusal :=
  run s do
    need s.me.isCheck (illegal (.gres a))
    let r := (s.g a).extractLsb' 0 32
    .ok (((s.noteResidual s.focus r).endTask s.focus 0 1).onMe fun x => { x with residual := some r })

/-! ### evcfg (R229, R231) -/

/-- A product term as its item holds it (R231). -/
def Term.word (t : Term) : Word :=
  BitVec.ofNat 64 (t.mask.toNat * 2 ^ 32 + (if t.en then 2 ^ 31 else 0) + t.ctr.toNat * 2 ^ 24 + (if t.inc then 2 ^ 23 else 0))

/-- The item of a number (R231). -/
def Crossbar.item (x : Crossbar) (n : Nat) : Word :=
  if n < 32 then (vget x.terms n ⟨0, false, 0, false, 0⟩).word
  else if n < 48 then (vget x.counters (n - 32) 0).setWidth 64
  else if n = 48 then
    BitVec.ofNat 64 ((if x.men then 2 ^ 15 else 0) + x.mctr.toNat * 2 ^ 8 + (if x.cen then 2 ^ 7 else 0) + x.cctr.toNat)
  else (vget x.cross (n - 49) 0).setWidth 64

/-- The must-be-zero bits of an item (R231). -/
def itemOk (n : Nat) (v : Word) : Bool :=
  if n < 32 then bits v 28 3 == 0 && bits v 0 23 == 0
  else if n < 48 then bits v 16 48 == 0
  else if n = 48 then bits v 16 48 == 0 && bits v 12 3 == 0 && bits v 4 3 == 0
  else bits v 56 8 == 0

/-- An item written (R229, R231): a term's latches are cleared, once it has fired where all its inputs were latched; a counter's OVF is
cleared. -/
def Crossbar.setItem (x : Crossbar) (n : Nat) (v : Word) : Crossbar :=
  if n < 32 then
    let t := vget x.terms n ⟨0, false, 0, false, 0⟩
    let y := if t.ready then x.fireTerm n t else x
    { y with terms := vput y.terms n ⟨v.extractLsb' 32 32, v.getLsbD 31, v.extractLsb' 24 4, v.getLsbD 23, 0⟩ }
  else if n < 48 then
    { x with
      counters := vput x.counters (n - 32) (v.extractLsb' 0 16),
      ovf := x.ovf &&& ~~~((1 : BitVec 16) <<< (n - 32)) }
  else if n = 48 then
    { x with men := v.getLsbD 15, mctr := v.extractLsb' 8 4, cen := v.getLsbD 7, cctr := v.extractLsb' 0 4 }
  else { x with cross := vput x.cross (n - 49) (v.extractLsb' 0 56) }

/-- `evcfg` (R231). -/
def execEvcfg (d a b : Gpr) (s : State) : Host.Outcome State Fault Refusal :=
  run s do
    let i := Instr.evcfg d a b
    let ga := s.g a
    let gb := s.g b
    let n := bits ga 0 8
    need (bits ga 9 55 == 0 && decide (n ≤ 56)) (illegal i)
    need (!ga.getLsbD 8 || itemOk n gb) (illegalInfo i gb)
    let old := (s.core s.myCore).xbar.item n
    let s1 := if ga.getLsbD 8 then
        (s.modCore s.myCore fun c => { c with xbar := c.xbar.setItem n gb }).wakeWaiters s.myCore
      else s
    .ok ((s1.setG d old).retire 4)

/-! ### evsig (R232) -/

/-- Pulses on the software lines whose bits are set (R228, R232). -/
def State.softLines (s : State) (core m : Nat) : State :=
  (List.range 8).foldl (fun (s : State) i => if natBit m i then s.pulse core (24 + i) else s) s

/-- `evsig` (R232): a release at `.core` for the issuing core, at `.pkg` for another, to which the pulses travel (R351). -/
def execEvsig (a b : Gpr) (s : State) : Host.Outcome State Fault Refusal :=
  run s do
    let ga := s.g a
    need (bits ga 8 56 == 0) (illegal (.evsig a b))
    match (if b = 0 then some s.myCore else coreAt (s.g b).toNat) with
    | none => .error (s.badCoord (s.g b))
    | some c =>
      if c = s.myCore then s.released 1 fun s => .ok ((s.softLines c ga.toNat).retire 4)
      else s.released 4 fun s =>
        .ok ((s.sendMsg (.lines (ga.extractLsb' 0 8)) c s.myCore s.me.tid s.me.job [] none true).retire 4)

end Sys2Proof.Machine
end

