-- ==== Sys2Proof/Machine/Sched.lean ====
section
/-! DEFINITION. Messages, posts, deque instructions, the handler table, holds, grids, identity, migration and the route mask (R264,
R289-R302). -/

namespace Sys2Proof.Machine

/-! ### Records in Scratch (R295, R296, R299) -/

/-- A 64-byte aligned run of bytes in Scratch banks (MISALIGN, PROTECT), not above a watermark (R117, R207); a guarded task does not come to
wait (R226). -/
def State.scratchArea (s : State) (i : Instr) (v : Word) (n kind : Nat) : Except Exit Nat := do
  need (v.toNat % 64 == 0) (misalign v)
  match firstBad (s.core s.myCore).writable (va56 v) n with
  | some o => .error (.trap 4 kind (BitVec.ofNat 64 o) none)
  | none => need (!s.watchedRange s.myCore (va56 v) n) (if s.me.guarded then illegal i else .stall)
  .ok (va56 v)

/-- The doublewords of one record at a local offset, read at issue. -/
def State.readRecord (s : State) (off : Nat) : List Word × State :=
  let (bs, s) := s.loadBytes (.bank s.myCore off) 64
  (dwordsOf 8 bs, s)

/-- The doublewords of m records from a local offset on. -/
def State.readRecords (s : State) (off : Nat) : Nat → List (List Word) × State
  | 0 => ([], s)
  | n + 1 =>
    let (r, s) := s.readRecord off
    let (l, s) := s.readRecords (off + 64) n
    (r :: l, s)

/-- A record lands at a local offset as a store of the task. -/
def State.landRecord (s : State) (off : Nat) (dwords : List Word) : State :=
  s.performNow s.focus (s.newWrite s.focus (.bank s.myCore off) (bytesOfDwords dwords) [] none 9)

/-! ### send and post (R296, R299) -/

/-- `send` (R299): a mailbox message, or M slots to a message ring; a release at `.pkg`. -/
def execSend (a b : Gpr) (s : State) : Host.Outcome State Fault Refusal :=
  run s do
    let i := Instr.send a b
    let ga := s.g a
    let m := bits ga 16 8 + 1
    need (bits ga 24 40 == 0 && (ga.getLsbD 15 || m == 1)) (illegalInfo i ga)
    match coreAt (bits ga 0 10) with
    | none => .error (s.badCoord ga)
    | some c =>
      let off ← s.scratchArea i (s.g b) (64 * m) 0
      s.irrevocable i fun s => s.released 4 fun s =>
        let (l, s) := s.readRecords off m
        let kind : MsgKind := if ga.getLsbD 15 then .ring (bits ga 10 5) else .mailbox
        .ok ((s.sendMsg kind c s.myCore s.me.tid s.me.job l.flatten (s.snapshot s.focus 4) true).retire 4)

/-- `post` (R296): each record to the queue of its own doubleword 1, then the task ends. -/
def execPost (a b : Gpr) (s : State) : Host.Outcome State Fault Refusal :=
  run s do
    let i := Instr.post a b
    let n := (s.g b).toNat
    need (decide (1 ≤ n) && decide (n ≤ 8)) (illegal i)
    let off ← s.scratchArea i (s.g a) (64 * n) 0
    s.irrevocable i fun s => s.released 4 fun s =>
      let (l, s) := s.readRecords off n
      let rel := s.snapshot s.focus 4
      let s := l.foldl (fun (s : State) r => s.toQueue s.focus s.me.ord r rel true) s
      .ok (s.endTask s.focus 0 1)

/-! ### Deque instructions (R293, R295) -/

/-- `dpush` (R293, R295): a release at `.die`; 1 pushed, 0 FULL. -/
def execDpush (d a : Gpr) (s : State) : Host.Outcome State Fault Refusal :=
  run s do
    let off ← s.scratchArea (.dpush d a) (s.g a) 64 0
    s.irrevocable (.dpush d a) fun s => s.released 3 fun s =>
      let (r, s) := s.readRecord off
      let (g, s') := s.accept (dieOf s.myCore) { Trigger.of r .record s.me.job with rel := s.snapshot s.focus 3 }
      match (s'.core s'.myCore).push g with
      | some c => .ok (((s'.modCore s'.myCore fun _ => c).setG d 1).retire 4)
      | none => .ok ((s.setG d 0).retire 4)

/-- A record that a pop or a theft gave the task: it lands, and the task acquires at `.die` (R295). -/
def State.gotRecord (s : State) (d : Gpr) (off : Nat) (g : Trigger) : State :=
  ((((s.landRecord off g.dwords).setG d 1).acquireFrom s.focus g.rel).acquire s.focus 3).retire 4

/-- The pop of the issuing core's deque (R293, R295). -/
def popBody (d : Gpr) (off : Nat) (s : State) : Except Exit State :=
  match (s.core s.myCore).pop with
  | some (g, c) => .ok ((s.modCore s.myCore fun _ => c).gotRecord d off g)
  | none => .ok ((s.setG d 0).retire 4)

/-- `dpop` (R293, R295). -/
def execDpop (d a : Gpr) (s : State) : Host.Outcome State Fault Refusal :=
  run s do
    let off ← s.scratchArea (.dpop d a) (s.g a) 64 1
    s.irrevocable (.dpop d a) (popBody d off)

/-- The theft from another core in its two accesses (R293, R295): HEAD, TAIL and the record are read, then HEAD is swapped; the theft is LOST
where HEAD has moved meanwhile. -/
def stealBody (d : Gpr) (off victim : Nat) (s : State) : Except Exit State :=
  let c := s.core victim
  match s.me.theft.filter (·.1 == victim) with
  | some (_, h, g) =>
    if c.dequeHead = h then .ok ((s.modCore victim fun k => k.putHeader 0 (h + 1)).gotRecord d off g)
    else .ok ((s.setG d 2).retire 4)
  | none =>
    if (c.dequeTail - c.dequeHead).toInt ≤ 0 then .ok ((s.setG d 0).retire 4)
    else .ok ((s.onMe fun x => { x with theft := some (victim, c.dequeHead, c.recordTrigger c.dequeHead) }).pass 1 0)

/-- `dsteal` (R295): a core of another die traps PROTECT, the own core acts as `dpop`. -/
def execDsteal (d a b : Gpr) (s : State) : Host.Outcome State Fault Refusal :=
  run s do
    let off ← s.scratchArea (.dsteal d a b) (s.g a) 64 1
    match coreAt (s.g b).toNat with
    | none => .error (s.badCoord (s.g b))
    | some c => do
      need (dieOf c == dieOf s.myCore) (s.badCoord (s.g b))
      s.irrevocable (.dsteal d a b) (if c = s.myCore then popBody d off else stealBody d off c)

/-! ### The handler table (R297, R298) -/

/-- The key of a job's table entry. -/
def handlerKey (job entry : Nat) : Nat := job * 256 + entry

/-- The handler table entry a record names, where IND = 1 (R287). -/
def recordEntry (l : List Word) : Option Nat :=
  let w := (l.head?).getD 0
  if w.getLsbD 1 then some (bits w 2 8) else none

/-- Triggers parked for an entry that has become bound join their core's choice again; records Tardar held go back to their
queue (R298). -/
def State.unpark (s : State) (job entry : Nat) : State :=
  let mine (g : Trigger) : Bool := g.job == job && g.parked == some entry
  let free (g : Trigger) : Trigger := if mine g then { g with parked := none } else g
  let key (g : Trigger) : Nat := queueKey (s.homeSlice (s.asid job) (va56 ((g.dwords[1]?).getD 0))) job
  let back := s.parkedRecs.filter mine
  { s with
    cores := s.cores.map fun e => (e.1, { e.2 with mailbox := e.2.mailbox.map free }),
    parkedRecs := s.parkedRecs.filter fun g => !mine g,
    queues := back.foldl (fun q g => tput q (key g) (tget q (key g) [] ++ [{ g with parked := none }])) s.queues }

/-- A table entry bound or unbound in every die's copy (R297). -/
def State.bindEntry (s : State) (job entry : Nat) (h : Word) : State :=
  let set (s : State) (d : Nat) : State := s.modDie d fun k => { k with
    handlers := if h = 0 then tdel k.handlers (handlerKey job entry) else tput k.handlers (handlerKey job entry) h }
  let s := [0, 1, 2, 3].foldl set s
  if h = 0 then s else s.unpark job entry

/-- A core outside a casement's SCOPE, measured from its home Transom (R249). -/
def outOfScope (scope core quad : Nat) : Bool :=
  match scope with
  | 2 => quadOf core != quad
  | 3 => dieOf core != quad / 40
  | _ => false

/-- The result of binding a sink port to a handler (R244, R249, R297), and the port's new binding. -/
def State.hbindPort (s : State) (name h : Word) : Nat × Option Binding :=
  match s.portAt name with
  | none => (1, none)
  | some e =>
    match e.bind with
    | .task _ _ => (2, none)
    | .handler _ _ => if h = 0 then (0, some .none) else (2, none)
    | .none =>
      if h = 0 then (0, none)
      else if !e.sink || outOfScope (s.nameScope name) s.myCore (nameQuad name) then (3, none)
      else (0, some (.handler h s.myCore))

/-- `hbind` (R297): a table entry, with the old handler in gd, or a sink port; relaxed and at once. -/
def execHbind (d a b : Gpr) (s : State) : Host.Outcome State Fault Refusal :=
  run s do
    let ga := s.g a
    let h := s.g b
    need (h.toNat % 4 == 0) (misalign h)
    if !ga.getLsbD 63 then do
      need (bits ga 8 55 == 0) (illegalInfo (.hbind d a b) ga)
      let old := tget (s.die (dieOf s.myCore)).handlers (handlerKey s.me.job (bits ga 0 8)) 0
      .ok (((s.bindEntry s.me.job (bits ga 0 8) h).setG d old).retire 4)
    else do
      need (nameValid ga) (illegalInfo (.hbind d a b) ga)
      need (!(s.quad (nameQuad ga)).toT.any (·.1 == s.myCore)) .stall
      let (n, bnd) := s.hbindPort ga h
      let s1 := match bnd with
        | some x => s.modPort ga fun e => { e with bind := x, credits := 4 }
        | none => s
      .ok ((s1.setG d (BitVec.ofNat 64 n)).retire 4)

/-! ### Holds (R301) -/

/-- A task whose last hold is clear (R23): Waiting if its wait is still unsatisfied, otherwise Running. -/
def Task.unhold (x : Task) : Task :=
  if x.onHold then x
  else match x.life with
    | .held _ => { x with life := x.goesOn }
    | _ => x

/-- The context of a TASKID anywhere: in a slot, or saved. -/
def State.anyTask (s : State) (tid : Word) : Option Task :=
  match s.findTid tid with
  | some t => some (s.task t)
  | none => (s.swaps.find? fun w => w.task.tid == tid).map (·.task)

/-- The result of `hhold` (R301): a second hold of a Ready or Parked task also returns 0. -/
def holdResult (x : Task) : Nat :=
  match x.life with
  | .retired => 3
  | .ready => 0
  | .parked _ _ _ _ => 0
  | _ => if x.holdReq then 2 else 0

/-- The result of `hrel` (R301). -/
def releaseResult (x : Task) : Nat := if x.life = .retired then 3 else if x.holdReq then 0 else 2

/-- A hold that has come while the task ran takes effect at this boundary (R301). -/
def Task.holdHere (x : Task) : Task := if x.holdReq then { x with life := x.life.hold } else x

/-- `hhold` and `hrel` (R301): the request goes to the directory of the die in TASKID.DIE, the task stalls until the reply comes, and
the instruction retires with it; a hold of the own task takes effect then. -/
def holdBody (d : Gpr) (tid : Word) (hold : Bool) (s : State) : State :=
  match s.me.reply with
  | some (some n) => (((s.setG d (BitVec.ofNat 64 n)).onMe fun x => { x with reply := none }).retire 4).onMe Task.holdHere
  | some none => s.pass 1 0
  | none => (s.modDie (bits tid 0 2) fun k => { k with holdQ := k.holdQ ++ [(s.me.tid.toNat, tid, hold)] }).onMe fun x =>
      { x with reply := some none }

/-- `hhold` (R301). -/
def execHhold (d a : Gpr) (s : State) : Host.Outcome State Fault Refusal := .next (holdBody d (s.g a) true s)

/-- `hrel` (R301). -/
def execHrel (d a : Gpr) (s : State) : Host.Outcome State Fault Refusal := .next (holdBody d (s.g a) false s)

/-! ### Grids (R289) -/

/-- The grid `launch` starts (R289). -/
def State.newGrid (s : State) (a b : Gpr) : State :=
  let v := s.g (gprPlus b 1)
  let teams := bits v 0 32 + 1
  let size := bits v 32 6 + 1
  let die := dieOf s.myCore
  let j := s.me.job
  let num := ((s.job j).grids + 1) % 2 ^ 32
  let rel := s.snapshot s.focus 4
  let counter := s.g (gprPlus b 2)
  let s1 := if counter = 0 then s else s.hwUpdate (.task s.me.tid s.myCore) rel (s.asid j) (va56 counter) 12 teams
  let (first, s2) := s1.newTids die j (teams * size)
  let grid : Grid := {
    id := s2.nextId, job := j, num := num, handler := s.g a, arg := s.g b, teams := teams, size := size, scr := bits v 40 8,
    counter := counter, next := 0, stamp := (s.die die).dieclk, rel := rel, die := die, serial := first }
  { s2 with nextId := s2.nextId + 1, grids := s2.grids ++ [grid], jobs := tput s2.jobs j { s2.job j with grids := num } }

/-- `launch` (R289): the checks in order, the commit, a release at `.pkg`, the counter add, the grid; gd is its number. -/
def execLaunch (d a b : Gpr) (s : State) : Host.Outcome State Fault Refusal :=
  run s do
    let i := Instr.launch d a b
    let v := s.g (gprPlus b 1)
    let counter := s.g (gprPlus b 2)
    need (decide (b.toNat ≤ 61)) (illegal i)
    needAligned 4 (s.g a)
    need (bits v 38 2 == 0 && bits v 48 16 == 0) (illegalInfo i v)
    needAligned 8 counter
    s.checkPages (unitOf s.focus) (s.asid s.me.job) false (counter != 0) false 1 (va56 counter) (if counter = 0 then 0 else 8)
    s.irrevocable i fun s => s.released 4 fun s =>
      let s1 := s.newGrid a b
      .ok ((s1.setG d (BitVec.ofNat 64 (s1.job s1.me.job).grids)).retire 4)

/-! ### tid (R300) -/

/-- The team of a task. -/
def State.teamOf (s : State) (x : Task) : Option Team := x.team.bind fun e => tfind s.teams e.1

/-- The number of a grid. -/
def State.gridNum (s : State) (id : Nat) : Nat := ((s.grids.find? (·.id == id)).map (·.num)).getD 0

/-- All ones. -/
def noItem : Word := BitVec.allOnes 64

/-- The item of a task (R300). -/
def State.tidItem (s : State) (n : Nat) : Word :=
  let x := s.me
  let c := s.core s.myCore
  match n with
  | 0 => x.tid
  | 1 => (s.teamOf x).elim noItem fun m => BitVec.ofNat 64 m.num
  | 2 => x.team.elim 0 fun e => BitVec.ofNat 64 e.2.1
  | 3 => x.team.elim 0 fun e => BitVec.ofNat 64 e.2.2
  | 4 => (s.teamOf x).elim noItem fun m => if m.scr = 0 then noItem else BitVec.ofNat 64 (4096 * m.bank)
  | 5 => (s.teamOf x).elim 0 fun m => BitVec.ofNat 64 (s.gridNum m.grid)
  | 6 => x.enq
  | 7 => x.disp
  | 8 => BitVec.ofNat 64 (min x.nacks (2 ^ 32 - 1))
  | 9 => c.stealAttempts
  | 10 => c.stealFailed
  | _ => c.searchCycles

/-- `tid` (R300). -/
def execTid (d a : Gpr) (s : State) : Host.Outcome State Fault Refusal :=
  run s do
    let ga := s.g a
    need (bits ga 8 56 == 0 && decide (bits ga 0 8 ≤ 11)) (illegal (.tid d a))
    .ok ((s.setG d (s.tidItem (bits ga 0 8))).retire 4)

/-! ### migrate and rcmask (R264, R302) -/

/-- `migrate` (R302): the current core acts as `nop`; else the task asks the other core for admission (R258). -/
def execMigrate (a : Gpr) (s : State) : Host.Outcome State Fault Refusal :=
  run s do
    let ga := s.g a
    need (bits ga 2 62 == 0) (illegal (.migrate a))
    if ga.toNat = quadIndex s.myCore then .ok (s.retire 4)
    else .ok (s.startMigration s.focus (quadCore (quadOf s.myCore) ga.toNat) false)

/-- `rcmask` (R264). -/
def execRcmask (d a : Gpr) (s : State) : Host.Outcome State Fault Refusal :=
  run s do
    let ga := s.g a
    need (bits ga 9 55 == 0) (illegalInfo (.rcmask d a) ga)
    let s1 := s.setG d (zx s.me.ord)
    let s2 := if ga.getLsbD 8 then s1.onMe fun x => { x with ord := ga.extractLsb' 0 8 } else s1
    .ok (s2.retire 4)

end Sys2Proof.Machine
end

