-- ==== Sys2Proof/Machine/Launching.lean ====
section
/-! DEFINITION. How waiting work starts: headers, the weighing of triggers, teams and guard pairs (R19-R22, R224, R287-R290, R298). -/

namespace Sys2Proof.Machine

/-! ### Resources of a core (R16, R22) -/

/-- The contexts of a core. -/
def State.slotsOf (s : State) (core : Nat) : List (Nat × Task) := s.tasks.filter fun e => e.1 / 16 == core && e.2.life != .free

/-- The free slots of a core. -/
def State.freeSlots (s : State) (core : Nat) : List Nat :=
  (List.range 16).filter fun n => (s.task (16 * core + n)).life == .free

/-- A lease base is free: aligned, inside the register file, and no live lease meets it (R16). -/
def State.baseFree (s : State) (core base : Nat) (lease : BitVec 2) : Bool :=
  let n := leaseSize lease
  n == 0 || (base % n == 0 && decide (base + n ≤ 128) && (s.slotsOf core).all fun e =>
    decide (base + n ≤ e.2.leaseBase) || decide (e.2.leaseBase + leaseSize e.2.leaseCls ≤ base))

/-- The free lease bases of a size class on a core. -/
def State.freeBases (s : State) (core : Nat) (lease : BitVec 2) : List Nat :=
  let n := leaseSize lease
  if n = 0 then [] else ((List.range (128 / n)).map (· * n)).filter fun b => s.baseFree core b lease

/-- Shadow space for so many more KiB (R22, R116). -/
def State.shadowFits (s : State) (core kib : Nat) : Bool := decide (s.shadowUnits core + kib ≤ 4 * (s.core core).shadowBanks)

/-- n tasks of one header meet R22 on a core. -/
def State.fits (s : State) (core : Nat) (lease : BitVec 2) (shadow n : Nat) : Bool :=
  decide (n ≤ (s.freeSlots core).length) && (lease == 0 || decide (n ≤ (s.freeBases core lease).length)) && s.shadowFits core (n * shadow)

/-- A slot and a base that a dispatch may take (R22). -/
def State.placeFree (s : State) (t base : Nat) (lease : BitVec 2) (shadow : Nat) : Bool :=
  (s.task t).life == .free && s.baseFree (coreOf t) base lease && s.shadowFits (coreOf t) shadow

/-! ### Headers (R19, R22) -/

/-- What reading a header at dispatch finds: an absent page, the trap it leads to with the class of its word 0, or the header. -/
inductive HeaderRead where
  | absent (asid va : Nat)
  | bad (cause sub : Nat) (val : Word) (cls : Nat)
  | ok (h : Header)
  deriving DecidableEq, Repr

/-- The header of a handler read as an instruction fetch in its job's address space (R22); where it cannot be read the class is 0 (DESIGN
CHOICE, log 62). -/
def State.headerAt (s : State) (core job : Nat) (h : Word) : HeaderRead :=
  let a := s.asid job
  let va := h.toNat % 2 ^ 56
  let l := Loc.glob (spaceOf a va) va
  let check : Except Exit Unit := do
    s.checkPages core a false false true 2 va 8
    s.checkSectors l 8
  match check with
  | .error (.absent a v _ _) => .absent a v
  | .error (.trap c sub v _) => .bad c sub (if c = 6 then v else BitVec.ofNat 64 va) 0
  | .error (.mismatch m _) => .bad 6 1 (BitVec.ofNat 64 (m.addr / 64 * 64)) 0
  | .error _ => .bad 1 0 0 0
  | .ok _ =>
    let w0 := asWord (s.homeBytes l 4)
    match Header.of w0 (asWord (s.homeBytes (l.plus 4) 4)) with
    | some hd => .ok hd
    | none => .bad 1 0 (w0.setWidth 64) (bits w0 21 2)

/-! ### What a trigger names (R20, R287, R297) -/

/-- Doubleword 0 of a record that breaks its must-be-zero bits (R287). -/
def recordBroken (w : Word) : Bool := bits w 56 8 != 0 || (w.getLsbD 1 && bits w 10 46 != 0)

/-- The doubleword 0 a trigger has for a handler the hardware names: IND = 0, JOINED = 0. -/
def handlerWord (h : Word) : Word := h &&& 0x00FFFFFFFFFFFFFC

/-- The handler a trigger names: an address, an unbound table entry, or a broken record (R287, R298). -/
inductive Named where
  | handler (h : Word)
  | unbound (entry : Nat)
  | broken (w : Word)
  deriving DecidableEq, Repr

/-- A doubleword of a trigger. -/
def Trigger.dw (g : Trigger) (n : Nat) : Word := (g.dwords[n]?).getD 0

/-- A trigger resolved at a core (R287, R297); an entry of zero is unbound (R370). -/
def State.named (s : State) (core : Nat) (g : Trigger) : Named :=
  let w := g.dw 0
  if recordBroken w then .broken w
  else match recordEntry g.dwords with
    | none => .handler (handlerWord w)
    | some e => match tfind (s.die (dieOf core)).handlers (handlerKey g.job e) with
      | some h => if handlerWord h = 0 then .unbound e else .handler (handlerWord h)
      | none => .unbound e

/-- A trigger weighed: its handler, its class and needs, and the trap it starts with, if any (R19, R22). -/
structure Weighed where
  trig : Trigger
  handler : Word
  cls : Nat
  lease : BitVec 2
  rst : Bool
  shadow : Nat
  fail : Option (Nat × Nat × Word)
  deriving DecidableEq, Repr

/-- What weighing a trigger finds. -/
inductive Weight where
  | absent (asid va : Nat)
  | park (entry : Nat)
  | go (w : Weighed)
  deriving DecidableEq, Repr

/-- A trigger weighed at a core (R19, R21, R22, R287); a broken record has class 0 (DESIGN CHOICE, log 62). -/
def State.weigh (s : State) (core : Nat) (g : Trigger) : Weight :=
  let cls (n : Nat) : Nat := (g.cls.map (·.toNat)).getD n
  match s.named core g with
  | .unbound e => .park e
  | .broken w => .go ⟨g, handlerWord w, cls 0, 0, false, 0, some (1, 0, w)⟩
  | .handler h => match s.headerAt core g.job h with
    | .absent a v => .absent a v
    | .bad c sub v n => .go ⟨g, h, cls n, 0, false, 0, some (c, sub, v)⟩
    | .ok hd => .go ⟨g, h, cls hd.cls.toNat, hd.lease, hd.rst, hd.shadow, none⟩

/-! ### The start of a task (R13, R15, R20, R22) -/

/-- The delivery handle of a port start (R20, R244), with the release of the step that fired (R253). -/
def deliveryHandle (name : Word) (data : Datum) (rel : Option Release) : PortRef where
  name := name
  sink := true
  dsz := data.bytes.length
  offered := none
  block := false
  alt := none
  done := none
  again := none
  landing := none
  asked := false
  owed := 0
  issuedAt := 0
  dlv := some (data, rel.elim 0 (·.scope), rel.elim [] (·.snap))

/-- The logical number of a core for a job (R18). -/
def State.lcnOf (s : State) (job core : Nat) : BitVec 16 :=
  (((s.job job).desc.lcn.find? fun e => e.1 == core).map (·.2)).getD 0

/-- The join counter a trigger links its task to: the one latched apart, else doubleword 7 of any record with JOINED (R91, R224, R287). -/
def Trigger.joinCounter (g : Trigger) : Option Word :=
  match g.counter with
  | some c => some c
  | none => if (g.dw 0).getLsbD 0 then some (g.dw 7) else none

/-- The context a dispatch loads (R13, R15, R20). -/
def Weighed.task (w : Weighed) (s : State) (t base : Nat) : Task :=
  let g := w.trig
  let regs : Vector Word 64 := Vector.ofFn fun i : Fin 64 => if 1 ≤ i.val ∧ i.val ≤ 7 then g.dw i.val else 0
  { Task.empty with
    pc := if w.fail.isSome then w.handler else pcPlus w.handler 8,
    g := regs,
    p := vput (Vector.replicate 16 none) 0 (g.port.map fun e => deliveryHandle e.1 e.2 g.rel),
    leaseBase := if leaseSize w.lease = 0 then 0 else base,
    leaseCls := w.lease,
    tid := g.tid,
    lcn := (g.lcn).getD (s.lcnOf g.job (coreOf t)),
    seed := (s.job g.job).desc.seed,
    gtol := g.gtol,
    cls := BitVec.ofNat 2 w.cls,
    job := g.job,
    life := .ready,
    restartable := w.rst,
    shadowKiB := w.shadow,
    snapshot := if w.rst then some { g with page := none, parked := none, avoid := none } else none,
    snapDue := w.rst,
    joinAddr := g.joinCounter,
    team := g.team,
    guard := g.guard,
    enq := g.stamp,
    disp := s.clock (coreOf t),
    brk := g.brk,
    watch := g.watch }

/-- The 64 bytes of a slot in its die's snapshot area (R107, DESIGN CHOICE, log 101). -/
def snapshotLoc (t : Nat) : Loc := .glob 0 ((Config.snapshotArea (dieOf (coreOf t)) + 64 * (t % 2560)) % 2 ^ 56)

/-- The input snapshot of a dispatched restartable task is written to memory before the task runs (R107): whether that is done. -/
def State.writeSnapshot (s : State) (t : Nat) : Bool × State :=
  let x := s.task t
  match (if x.snapDue then x.snapshot else none) with
  | none => (true, s)
  | some g =>
    let p := Party.task x.tid (coreOf t)
    let done (s : State) : State := s.modTask t fun x => { x with snapDue := false }
    match s.askLeave p true (snapshotLoc t) 64 with
    | (.now, s) => (true, done (s.hwWrite p [] none (snapshotLoc t) (bytesOfDwords ((List.range 8).map g.dw)) []))
    | (.later, s) => (false, s)
    | (.never, s) => (true, done s)

/-- The writes of an earlier run of a task that are still on their way, by phase: their acknowledgements come to the new context. -/
def State.inFlight (s : State) (tid : Word) : List Nat :=
  [0, 1, 2, 3].map fun p => ((s.path ++ s.atSwitch).filter fun w => w.party.isTask tid && w.phase.toNat == p).length

/-- A weighed trigger starts in a slot with a lease base: the context is loaded, the trigger's release is acquired at `.pkg`, a port
trigger's credit goes back at its first start (R20, R22, R107, R244, R253, R280, R296, R299). -/
def State.startTask (s : State) (t base : Nat) (w : Weighed) : State :=
  let x := w.task s t base
  let s := s.setTask t { x with view := { x.view with issued := s.inFlight x.tid } }
  let s := match w.fail with
    | some (c, sub, v) => let (info, s) := s.fresh; s.modTask t fun x => { x with pendingTrap := some (x.pc, c, sub, v, info) }
    | none => s
  let s := match w.trig.port with
    | some (name, _) => if w.trig.src == Source.requeue then s else s.toTransom (coreOf t) (nameQuad name) 0 (.credit name)
    | none => s
  (s.acquireFrom t w.trig.rel).acquire t 4

/-! ### The sources of a core (R288) -/

/-- Where a waiting trigger lies. -/
inductive Place where
  | mailbox (core : Nat)
  | deque (j : Word)
  | queue (key : Nat)
  deriving DecidableEq, Repr

/-- A trigger that the core may weigh: it waits for no entry and no page. -/
def Trigger.waits (g : Trigger) : Bool := g.parked.isNone && g.page.isNone

/-- Whether a trigger that failed on one core may start on another: on its quad, or on its die when no other core of the quad meets
R22 for it (R107). -/
def State.avoidOk (s : State) (core : Nat) (g : Trigger) : Bool :=
  match g.avoid with
  | none => true
  | some a => core != a && (quadOf core == quadOf a || (dieOf core == dieOf a &&
      !(List.range 4).any fun k =>
        let c := quadCore (quadOf a) k
        c != a && match s.weigh c g with
          | .go w => s.fits c w.lease w.shadow 1
          | _ => false))

/-- A trigger that any core of its quad, or of its die after a core error, may start: the snapshot of a team's task, or of a failed
core, and an exact handler (R107, R227, R290). -/
def Trigger.roams (g : Trigger) : Bool := (g.src == .requeue && (g.team.isSome || g.avoid.isSome)) || g.src == .guard

/-- The mailbox triggers a core may start, oldest stamp first (R288, R224, R106, R107). -/
def State.mailOf (s : State) (core : Nat) : List (Trigger × Place) :=
  let own := ((s.core core).mailbox.filter fun g => g.waits && s.avoidOk core g).map fun g => (g, Place.mailbox core)
  let near (e : Nat × Core) : Bool := e.1 != core && (quadOf e.1 == quadOf core || dieOf e.1 == dieOf core)
  let others := (s.cores.filter near).flatMap fun e => (e.2.mailbox.filter fun g =>
    g.waits && g.roams && (quadOf e.1 == quadOf core || g.avoid.isSome) && s.avoidOk core g).map fun g => (g, Place.mailbox e.1)
  (own ++ others).mergeSort fun a b => decide (a.1.stamp.toNat ≤ b.1.stamp.toNat)

/-- The records of a core's deque, the newest first: one that does not fit holds back none behind it (R22, R288). -/
def State.dequeOf (s : State) (core : Nat) : List (Trigger × Place) := (s.core core).dequeRecords.map fun e => (e.2, .deque e.1)

/-- The records of a job's queues at some slices, each queue from its head (R22, R288). -/
def State.queuesOf (s : State) (job : Nat) (slices : List Nat) : List (Trigger × Place) :=
  slices.flatMap fun n => (tget s.queues (queueKey n job) []).map fun g => (g, Place.queue (queueKey n job))

/-- The slices attached to routers of a core's quad (R267, R288). -/
def quadSlices (core : Nat) : List Nat := (List.range 384).filter fun n => quadOf (sliceCore n) == quadOf core

/-- Sources 2 to 4 of a core, in order (R288, R388). -/
def State.sources (s : State) (core : Nat) : List (Trigger × Place) :=
  match (s.core core).job with
  | none => []
  | some j => (s.mailOf core ++ s.dequeOf core ++ s.queuesOf j (quadSlices core)).filter fun e => e.1.job == j

/-- A trigger taken from where it lay. -/
def State.take (s : State) (core : Nat) (g : Trigger) : Place → State
  | .mailbox c => s.modCore c fun k => { k with mailbox := k.mailbox.filter (·.tid != g.tid) }
  | .deque j => s.modCore core fun k => k.takeRecord j
  | .queue key => { s with queues := tput s.queues key ((tget s.queues key []).filter (·.tid != g.tid)) }

/-- The triggers parked at a core (R298). -/
def State.parkedAt (s : State) (core : Nat) : Nat := ((s.core core).mailbox.filter (·.parked.isSome)).length

/-- A trigger whose entry is unbound parked at a core; a record that would be the 65th goes to Tardar (R298). -/
def State.parkTaken (s : State) (core : Nat) (g : Trigger) (entry : Nat) : State :=
  let p := { g with parked := some entry }
  if s.parkedAt core < 64 then s.modCore core fun k => { k with mailbox := k.mailbox ++ [p] }
  else ({ s with parkedRecs := s.parkedRecs ++ [p] } : State).notify (.parkedRefused g.dwords)

/-- A message refused where it would be parked: a negative acknowledgement goes to its sender (R298, R299). -/
def State.refuseTrigger (s : State) (core : Nat) (g : Trigger) : State :=
  match g.rel.map (·.writer) with
  | some (Party.task u c) => s.sendMsg (.nack u) c core u g.job [] none false
  | _ => s

/-- A trigger whose entry is unbound is parked at the core that would dispatch it; a message that would be the 65th is refused (R298). -/
def State.parkTrigger (s : State) (core : Nat) (g : Trigger) (pl : Place) (entry : Nat) : State :=
  let u := s.take core g pl
  if g.src = .message ∧ 64 ≤ u.parkedAt core then u.refuseTrigger core g else u.parkTaken core g entry

/-- A handler whose SHADOW exceeds the whole Shadow capacity of a core is named to Tardar once (R119). -/
def State.noteShadow (s : State) (core : Nat) (w : Weighed) : State :=
  if w.shadow ≤ 4 * (s.core core).shadowBanks ∨ s.notices.contains (.shadowTooBig core w.handler) then s
  else s.notify (.shadowTooBig core w.handler)

/-- The header that a dispatch reads has met a malformed entry, which is reported (R22, R322). -/
def State.noteHeader (s : State) (w : Weighed) : State :=
  match w.fail with
  | some (3, _, v) => s.noteMalformed (s.translate (s.asid w.trig.job) v.toNat)
  | _ => s

/-- The candidates weighed in order: pages asked for, unbound triggers parked, the others kept with their place (R22, R298). -/
def State.weighAll (s : State) (core : Nat) : List (Trigger × Place) → State × List (Weighed × Place)
  | [] => (s, [])
  | (g, pl) :: r => match s.weigh core g with
    | .absent a v => (s.askPage a v 2).weighAll core r
    | .park e => (s.parkTrigger core g pl e).weighAll core r
    | .go w =>
      let (s, l) := ((s.noteShadow core w).noteHeader w).weighAll core r
      (s, (w, pl) :: l)

/-- A swapped task whose team is on its way back (R292): the rest of the team is resident again. -/
def State.dueBack (s : State) (w : Swap) : Bool := (w.team.bind (tfind s.teams)).any fun m => !m.swapped

/-- The four cores of a quad. -/
def quadCores (q : Nat) : List Nat := (List.range 4).map (quadCore q)

/-- Scratch banks of the same numbers on the four cores of a quad (R290). -/
def State.banksScratch (s : State) (quad bank n : Nat) : Bool :=
  (List.range n).all fun i => decide (bank + i < 384) && (quadCores quad).all fun c => (s.core c).role (bank + i) == 0

/-- Banks of the four cores from one on that a team may take: Scratch, and of no other team (R290). -/
def State.banksFree (s : State) (quad bank n : Nat) : Bool :=
  s.banksScratch quad bank n && (List.range n).all fun i => !s.teams.any fun e =>
    e.2.quad == quad && !e.2.swapped && decide (e.2.bank ≤ bank + i) && decide (bank + i < e.2.bank + e.2.scr)

/-- The numbers of the team's tasks on core index k (R290). -/
def teamShare (size k : Nat) : Nat := ((List.range size).filter fun i => i % 4 == k).length

/-- Whether a quad could ever meet a team's needs: slots, registers, Shadow and a run of Scratch banks on its cores (R290). -/
def State.teamPossible (s : State) (quad : Nat) (lease : BitVec 2) (shadow size scr : Nat) : Bool :=
  ((List.range 4).all fun k =>
    let n := teamShare size k
    decide (n ≤ 16) && decide (n * leaseSize lease ≤ 128) && decide (n * shadow ≤ 4 * (s.core (quadCore quad k)).shadowBanks)) &&
  (List.range 384).any fun b => s.banksScratch quad b scr

/-- The class and the lease of a grid's handler at a core. -/
def State.gridWeight (s : State) (core : Nat) (g : Grid) : Weight :=
  s.weigh core (Trigger.of [handlerWord g.handler] .team g.job)

/-- A grid with teams still to admit that some quad of its set can hold: its weight (R290, R292). -/
def State.gridWaits (s : State) (g : Grid) : Option Weighed :=
  let qs := (s.job g.job).desc.quads
  if g.teams ≤ g.next then none
  else match s.gridWeight (quadCore (qs.headD 0) 0) g with
    | .go w => if qs.any fun q => s.teamPossible q w.lease w.shadow g.size g.scr then some w else none
    | _ => none

/-- A swapped team meets its needs on the cores and banks it left (R185, R292): slots, leases, Shadow, banks, engines. -/
def State.teamReturns (s : State) (key : Nat) (m : Team) : Bool :=
  let back := s.swaps.filter fun w => w.team == some key && w.task.life != .retired
  (quadCores m.quad).all (fun c =>
    let l := back.filter (·.core == c)
    match l.head? with
    | none => true
    | some w => s.fits c w.task.leaseCls w.task.shadowKiB l.length) &&
  s.banksFree m.quad m.bank m.scr && m.engines.all fun e => (s.core e.1).mx.owner.isNone

/-- A team that joined its queue's tail waits for the older teams of the queue: no grid of its job and class launched before is still being
admitted (R292). -/
def State.teamTurn (s : State) (m : Team) : Bool :=
  !m.bySlice || match s.grids.find? (·.id == m.grid) with
    | none => true
    | some g => !s.grids.any fun h => h.job == g.job && decide (h.id < m.order) && (s.gridWaits h).any (·.cls == m.cls)

/-- A swapped free task fits a core of its quad; the engines it held must be free, and an engine's owner returns to the core it left (R185,
R303). -/
def State.taskReturns (s : State) (w : Swap) (c : Nat) : Bool :=
  s.fits c w.task.leaseCls w.task.shadowKiB 1 && (w.engines.isEmpty || c == w.core) && w.engines.all fun e => (s.core e.1).mx.owner.isNone

/-- Swapped and migrating work that goes before triggers of a class on a core (R258, R288, R303): any of a lower class number, what can return
of the same class, and the rest of a team on its way back. -/
def State.goesFirst (s : State) (core cls : Nat) : Bool :=
  (s.swaps.any fun w => quadOf w.core == quadOf core && w.task.life != .retired &&
    (s.dueBack w || decide (w.task.cls.toNat < cls) || (w.task.cls.toNat == cls && match w.team with
      | none => s.taskReturns w core
      | some key => (tfind s.teams key).any fun m => s.teamTurn m && s.teamReturns key m))) ||
  s.tasks.any fun e => match e.2.moving with
    | some m => m.dest == core && m.slot.isNone && (decide (e.2.cls.toNat < cls) ||
        (e.2.cls.toNat == cls && s.fits core e.2.leaseCls e.2.shadowKiB 1))
    | none => false

/-- A team that waits for the quad of a core has a lower class number (R303, R304). -/
def State.teamBelow (s : State) (core cls : Nat) : Bool :=
  s.grids.any fun g => (s.job g.job).desc.quads.contains (quadOf core) && (s.gridWaits g).any fun w =>
    decide (w.cls < cls) && s.teamPossible (quadOf core) w.lease w.shadow g.size g.scr

/-- The record of a task of a tile (R224). -/
def Guard.trigger (g : Guard) (q e tile : Nat) (r : Role) (g6 g7 : Word) : Trigger :=
  let h := match r with | .surrogate => g.sur | .check => g.chk | .exact => g.exa
  let n : Word := match r with | .surrogate => 0 | .check => 1 | .exact => 2
  { Trigger.of [handlerWord h, g.arg, BitVec.ofNat 64 tile, BitVec.ofNat 64 g.n, n, g.record, g6, g7] .guard g.job with
    cls := some g.cls, gtol := g.gtol, guard := some (q, e, tile, r) }

/-- The next pair of a guard entry: a tile to run again whose page is there goes ahead of every tile not yet dispatched (R226), else the next
tile, its tasks newly identified. -/
def State.nextPair (s : State) (q e : Nat) (g : Guard) : Option (Nat × Trigger × Trigger × State) :=
  match g.redo.find? fun r => r.page.isNone with
  | some r => some (r.tile, r.sur, r.chk, s.modQuad q fun k => { k with guards := vput k.guards e (some
      { g with redo := g.redo.filter (·.tile != r.tile) }) })
  | none =>
    if g.n ≤ g.next then none
    else
      let (a, s) := s.accept (q / 40) (g.trigger q e g.next .surrogate 0 0)
      let (b, s) := s.accept (q / 40) (g.trigger q e g.next .check 0 0)
      some (g.next, a, b, s.modQuad q fun k => { k with guards := vput k.guards e (some { g with next := g.next + 1 }) })

/-- Both tasks of a pair weighed, where both headers could be read. -/
def Weight.pair (a b : Weight) : Option (Weighed × Weighed) :=
  match a, b with
  | .go w, .go v => some (w, v)
  | _, _ => none

/-- The next pair of a guard entry weighed at a core. -/
def State.pairAt (s : State) (q e core : Nat) : Option (Weighed × Weighed) :=
  ((vget (s.quad q).guards e none).bind (s.nextPair q e)).bind fun p => (s.weigh core p.2.1).pair (s.weigh core p.2.2.1)

/-- A pair that waits for the quad of a core, and that a core of it could hold, has a lower class number (R224, R303, R304). -/
def State.pairBelow (s : State) (core cls : Nat) : Bool :=
  (List.range 4).any fun e => (s.pairAt (quadOf core) e (quadCore (quadOf core) 0)).any fun p => decide (p.1.cls < cls) &&
    (quadCores (quadOf core)).any fun c => decide (p.1.shadow + p.2.shadow ≤ 4 * (s.core c).shadowBanks)

/-- The first trigger that fits, in the order of R22: within a class in the order of the sources, and no class past one that waits; a team or
a pair of a lower class number that waits for the quad goes first (R303, R304). -/
def State.pickTrigger (s : State) (core : Nat) (l : List (Weighed × Place)) : Option (Weighed × Place) :=
  let mine := fun c => l.filter fun e => e.1.cls == c
  match [0, 1, 2, 3].find? fun c => !(mine c).isEmpty with
  | none => none
  | some c => if s.goesFirst core c || s.teamBelow core c || s.pairBelow core c then none
    else (mine c).find? fun e => s.fits core e.1.lease e.1.shadow 1

/-- A trigger of a lower class number than some work waits on a core (R22). -/
def State.triggerBelow (s : State) (core cls : Nat) : Bool := (s.weighAll core (s.sources core)).2.any fun e => decide (e.1.cls < cls)

/-- Work of a class may start on some cores: nothing of a lower class number waits there, and nothing that returns goes first (R22, R288,
R303). -/
def State.mayStart (s : State) (cores : List Nat) (cls : Nat) : Bool :=
  cores.all fun c => !s.goesFirst c cls && !s.triggerBelow c cls && !s.teamBelow c cls && !s.pairBelow c cls

/-- DISPATCH (R22): the first waiting trigger that fits starts in a free slot with a free lease base. -/
def execDispatch (core slot base : Nat) (s : State) : Host.Outcome State Fault Refusal :=
  let t := 16 * core + slot
  .next (if slot < 16 ∧ core < 640 ∧ (s.task t).life = .free then
    let (u, l) := s.weighAll core (s.sources core)
    match u.pickTrigger core l with
    | some (w, pl) => if u.placeFree t base w.lease w.shadow then (u.take core w.trig pl).startTask t base w else u
    | none => u
  else s)

/-! ### CONTEXT_LOADED (R23, R24, R301) -/

/-- The state a Ready task enters: Held while a hold is on it, its wait where that is unsatisfied, else Running (R23, R24). -/
def Task.loaded (x : Task) : Task := { x with life := if x.onHold then .held x.waitsOn else x.goesOn }

/-- CONTEXT_LOADED (R23): the task leaves Ready once its snapshot lies in memory (R107). -/
def execContextLoaded (t : Nat) (s : State) : Host.Outcome State Fault Refusal :=
  .next (if (s.task t).life = .ready ∧ (s.task t).tid ≠ 0 then
    match s.writeSnapshot t with
    | (true, s) => s.modTask t Task.loaded
    | (false, s) => s
  else s)

/-! ### Teams (R290) -/

/-- The trigger of task i of a team (R20, R290). -/
def Grid.trigger (g : Grid) (team i : Nat) (key : Nat) : Trigger :=
  { Trigger.of [handlerWord g.handler, g.arg, BitVec.ofNat 64 team, BitVec.ofNat 64 i, BitVec.ofNat 64 g.size, 0, 0, 0] .team g.job with
    tid := BitVec.ofNat 64 (g.job % 65536 * 2 ^ 48 + serialAt g.serial (team * g.size + i) * 4 + g.die % 4),
    stamp := g.stamp, team := some (key, i, g.size), rel := g.rel }

/-- The lowest run of n banks for a team. -/
def State.lowestRun (s : State) (quad n : Nat) : Option Nat :=
  if n = 0 then some 0 else (List.range 384).find? fun b => s.banksFree quad b n

/-- A team of a grid meets R290 on a quad now. -/
def State.teamFits (s : State) (quad : Nat) (lease : BitVec 2) (shadow size : Nat) : Bool :=
  (List.range 4).all fun k => s.fits (quadCore quad k) lease shadow (teamShare size k)

/-- The places given for a team's tasks: task i on core index i mod 4, in distinct free slots, with disjoint free bases. -/
def State.placesOk (s : State) (quad : Nat) (lease : BitVec 2) (shadow size : Nat) (places : List (Nat × Nat)) : Bool :=
  decide (places.length = size) && places.zipIdx.all fun (p, i) =>
    decide (p.1 < 10240) && coreOf p.1 == quadCore quad (i % 4) && s.placeFree p.1 p.2 lease shadow &&
    places.zipIdx.all fun (q, j) => i == j || (p.1 != q.1 && (lease == 0 || coreOf p.1 != coreOf q.1 || p.2 != q.2))

/-- The class of the first task of a swapped or resident team. -/
def State.teamAhead (s : State) (job cls : Nat) (order : Nat) : Bool :=
  s.teams.any fun e => e.2.swapped && e.2.cls == cls && (s.grids.any fun g => g.id == e.2.grid && g.job == job) &&
    (!e.2.bySlice || decide (e.2.order < order))

/-- The oldest grid of a job that still has teams to admit in a class goes first (R292). -/
def State.gridFirst (s : State) (g : Grid) (cls : Nat) : Bool :=
  !s.grids.any fun h => h.job == g.job && decide (h.id < g.id) && (s.gridWaits h).any (·.cls == cls)

/-- The tasks of a team enter Ready together (R290). -/
def State.startTeam (s : State) (key : Nat) (g : Grid) (quad : Nat) (w : Weighed) (bank : Nat) (places : List (Nat × Nat)) : State :=
  let team : Team := {
    grid := g.id, num := g.next, quad := quad, bank := bank, scr := g.scr, alive := g.size, poisoned := false,
    resident := (s.clock (quadCore quad 0)).toNat, swapped := false, bySlice := false, cls := w.cls, order := key, known := [],
    engines := [], banks := [] }
  let s := { s with
    nextId := s.nextId + 1, teams := tput s.teams key team,
    grids := s.grids.map fun h => if h.id = g.id then { h with next := h.next + 1 } else h }
  places.zipIdx.foldl (fun s (p, i) => s.startTask p.1 p.2 { w with trig := g.trigger g.next i key }) s

/-- TEAM_ADMISSION (R290): the next team of a grid starts on a quad of its job that meets all its needs at once; a grid that no quad
of its set can ever hold is named to Tardar once. -/
def execTeamAdmission (grid quad : Nat) (places : List (Nat × Nat)) (s : State) : Host.Outcome State Fault Refusal :=
  let core := quadCore quad 0
  .next (match s.grids.find? fun g => g.id == grid && decide (g.next < g.teams) with
    | none => s
    | some g =>
      if !(s.job g.job).desc.quads.contains quad then s
      else match s.gridWeight core g with
        | .absent a v => s.askPage a v 2
        | .park _ => s
        | .go w =>
          if !(s.job g.job).desc.quads.any fun q => s.teamPossible q w.lease w.shadow g.size g.scr then
            if s.notices.contains (.gridUnplaceable grid) then s else s.notify (.gridUnplaceable grid)
          else match s.lowestRun quad g.scr with
            | none => s
            | some bank =>
              if s.placesOk quad w.lease w.shadow g.size places && s.teamFits quad w.lease w.shadow g.size &&
                  !s.teamAhead g.job w.cls g.id && s.gridFirst g w.cls && s.mayStart (quadCores quad) w.cls then
                (s.noteHeader w).startTeam s.nextId g quad w bank places
              else s)

/-! ### Guard pairs (R224, R226) -/

/-- A pair starts on one core: the entry holds its tile (R224, R227). -/
def State.startPair (s : State) (q e tile : Nat) (w v : Weighed) (t u bt bu : Nat) : State :=
  let s := s.modQuad q fun k => { k with guards := vput k.guards e ((vget k.guards e none).map fun g =>
    { g with tiles := g.tiles ++ [⟨tile, coreOf t, none, none, false, none, 0, false⟩] }) }
  (s.startTask t bt w).startTask u bu v

/-- Two tasks of different headers meet R22 on one core at once (R224). -/
def State.fitsPair (s : State) (core : Nat) (w v : Weighed) : Bool :=
  decide (2 ≤ (s.freeSlots core).length) && s.shadowFits core (w.shadow + v.shadow) &&
    (let bs (l : BitVec 2) : List Nat := if l = 0 then [0] else s.freeBases core l
     (bs w.lease).any fun b => (bs v.lease).any fun d => w.lease == 0 || v.lease == 0 || decide (b + leaseSize w.lease ≤ d) ||
       decide (d + leaseSize v.lease ≤ b))

/-- The core a pair may take: one of the issuing quad; after a core error another one of it, or one of the die where none of those fits (R107,
R224, R226). -/
def State.pairCore (s : State) (q core : Nat) (g : Trigger) (w v : Weighed) : Bool :=
  match g.avoid with
  | none => quadOf core == q
  | some a => core != a && (quadOf core == q || (dieOf core == q / 40 && !(quadCores q).any fun c => c != a && s.fitsPair c w v))

/-- The places of a pair: two free slots of one core, with free bases that do not meet, and Shadow for both. -/
def State.pairPlaces (s : State) (core : Nat) (w v : Weighed) (t u bt bu : Nat) : Bool :=
  coreOf t == core && coreOf u == core && t != u && decide (t < 10240) && decide (u < 10240) &&
    s.placeFree t bt w.lease w.shadow && s.placeFree u bu v.lease v.shadow && s.shadowFits core (w.shadow + v.shadow) &&
    (w.lease == 0 || v.lease == 0 || decide (bt + leaseSize w.lease ≤ bu) || decide (bu + leaseSize v.lease ≤ bt))

/-- The pages a pair's headers lack are asked for (R22, R106). -/
def State.askFor (s : State) : Weight → State
  | .absent a v => s.askPage a v 2
  | _ => s

/-- GUARD_PAIR_DISPATCH (R22, R224): the next tile's surrogate and check start together on one core of the quad. -/
def execGuardPairDispatch (quad entry core : Nat) (slots bases : List Nat) (s : State) : Host.Outcome State Fault Refusal :=
  .next (match (vget (s.quad quad).guards entry none).bind (s.nextPair quad entry), slots, bases with
    | some (tile, a, b, u), [t1, t2], [b1, b2] =>
      match (s.weigh core a).pair (s.weigh core b) with
      | none => (s.askFor (s.weigh core a)).askFor (s.weigh core b)
      | some (w, v) =>
        let t := 16 * core + t1
        let t' := 16 * core + t2
        if (s.core core).job = some a.job ∧ s.pairCore quad core a w v ∧ s.mayStart [core] w.cls ∧ t1 < 16 ∧ t2 < 16 ∧
            s.pairPlaces core w v t t' b1 b2 then
          ((u.noteHeader w).noteHeader v).startPair quad entry tile w v t t' b1 b2
        else s
    | _, _, _ => s)

end Sys2Proof.Machine
end

