-- ==== Sys2Proof/Machine/TaskLife.lean ====
section
/-! DEFINITION. The events of a task's life: from Retired to Free, KILL, pages, core errors, interrupts, holds, re-reads, the flag tree,
and the crossbar's terms (R23, R52, R95, R96, R99, R102, R106, R107, R110, R114, R213, R227-R232, R291, R300, R301, R356). -/

namespace Sys2Proof.Machine

/-! ### From Retired to Free (R23, R95, R102, R291, R300) -/

/-- The operation that takes a counter down, with POISON or without (R95, R291). -/
def downOp (poison : Bool) : BitVec 4 := if poison then 14 else 13

/-- The release a context's hardware updates carry (R95). -/
def Task.finalRelease (x : Task) (core : Nat) : Option Release := some ⟨4, x.view.known, .task x.tid core⟩

/-- A doubleword of global memory updated for a task that ends, with its release at `.pkg`. -/
def State.finalUpdate (s : State) (x : Task) (core va : Nat) (op : BitVec 4) (n : Nat) : State :=
  s.hwUpdate (.task x.tid core) (x.finalRelease core) (s.asid x.job) (va % 2 ^ 56) op n

/-- The join counter of a linked task counts it (R95); a guard's record may be that counter (R223). -/
def State.updateJoin (s : State) (x : Task) (core : Nat) : State :=
  match x.joinAddr with
  | some a => s.finalUpdate x core a.toNat (downOp (x.how != 0)) 0
  | none => s

/-- A team's task has reached Free (R290, R291): the last one frees its banks and its engines and takes the grid counter down. -/
def State.leaveTeam (s : State) (x : Task) (core : Nat) : State :=
  match x.team with
  | none => s.releaseOwned x.owner false
  | some (key, _, _) => match tfind s.teams key with
    | none => s
    | some m =>
      let m := { m with alive := m.alive - 1, poisoned := m.poisoned || x.how != 0, known := union x.view.known m.known }
      if m.alive ≠ 0 then { s with teams := tput s.teams key m }
      else
        let s := ({ s with teams := tdel s.teams key } : State).releaseOwned x.owner false
        match s.grids.find? (·.id == m.grid) with
        | none => s
        | some g =>
          if g.counter = 0 then s
          else s.hwUpdate (.task x.tid core) (some ⟨4, m.known, .task x.tid core⟩) (s.asid g.job) (g.counter.toNat % 2 ^ 56)
            (downOp m.poisoned) 0

/-- Ticks of DIECLK in cycles of the 2.7 GHz clock (R5, R300). -/
def cyclesOf (ns : Nat) : Nat := ns * 27 / 10

/-- The times of an ended task counted at its core, and its record (R300, R353). -/
def State.countTimes (s : State) (x : Task) (core slot : Nat) : State :=
  let now := s.clock core
  (s.modCore core fun c => { c with
    qwait := c.qwait + cyclesOf (x.disp - x.enq).toNat, run := c.run + cyclesOf (now - x.disp).toNat }).emit core slot 2 x.tid
    [x.enq, x.disp, now, BitVec.ofNat 64 x.how, x.lcn.setWidth 64]

/-- Everything the end of a context brings about once its stores are in memory. -/
def State.freeContext (s : State) (x : Task) (core slot : Nat) : State :=
  let s := (((s.updateJoin x core).leaveTeam x core).freePorts core x).freeRings x
  (s.countTimes x core slot).wakeWatchers

/-- A slot becomes Free. -/
def State.freeSlot (s : State) (t : Nat) : State := (s.freeContext (s.task t) (coreOf t) (t % 16)).setTask t Task.empty

/-- No offer and no withdrawal of a context awaits its reply (R254). -/
def Task.settledPorts (x : Task) : Bool := x.p.toList.all fun p => p.all fun r => r.offered.isNone && !r.asked && r.owed == 0

/-- The end of a task that belongs to no pair: its buffer is committed and drained first (R102). -/
def State.freeOrdinary (s : State) (t : Nat) : State :=
  match s.commitNow t with
  | (false, s) => s
  | (true, s) => if s.allArrived t then s.freeSlot t else s

/-! ### The decision of a tile (R227) -/

/-- A NaN in FP32. -/
def isNaN (v : BitVec 32) : Bool := v.extractLsb' 23 8 == 255 && v.extractLsb' 0 23 != 0

/-- The order of two FP32 numbers as real numbers, -0 equal to +0. -/
def fp32Le (a b : BitVec 32) : Bool :=
  let key (v : BitVec 32) : Int := if v.getLsbD 31 then -((v.extractLsb' 0 31).toNat : Int) else (v.toNat : Int)
  decide (key a ≤ key b)

/-- The reason a decided tile falls back, none when it passes (R227). -/
def GTile.reason (y : GTile) : Option Nat :=
  if y.decided then none
  else if y.spilled then some 3
  else if y.sEnd = some 1 ∧ y.cEnd = some 1 then
    match y.residual with
    | some r => if isNaN r || isNaN y.gtol then some 2 else if fp32Le r y.gtol then none else some 1
    | none => some 4
  else some 4

/-- Both tasks of a tile have retired. -/
def GTile.ends (y : GTile) : Bool := y.sEnd.isSome && y.cEnd.isSome

/-- A guard entry loses a tile that is decided. -/
def State.dropTile (s : State) (q e tile : Nat) : State :=
  s.modQuad q fun k => { k with guards := vput k.guards e ((vget k.guards e none).map fun g =>
    { g with tiles := g.tiles.filter (·.t != tile) }) }

/-- The slots of the pair become Free; a task of it that was killed while swapped leaves memory too. -/
def State.freePair (s : State) (q e tile : Nat) : State :=
  let mine (w : Swap) : Bool := w.task.ofPair q e tile .surrogate || w.task.ofPair q e tile .check
  let s := (s.pairSlots q e tile).foldl (fun s t => s.freeSlot t) s
  (s.swaps.filter mine).foldl (fun s w => s.freeContext w.task w.core 31) { s with swaps := s.swaps.filter fun w => !mine w }

/-- The decision that a tile passes is made: nothing that befalls the pair afterwards changes it, and its buffers are committed (R227). -/
def State.latchPass (s : State) (q e tile : Nat) : State :=
  let s := s.modQuad q fun k => { k with guards := vput k.guards e ((vget k.guards e none).map fun g =>
    { g with tiles := g.tiles.map fun y => if y.t = tile then { y with decided := true } else y }) }
  (s.pairSlots q e tile).foldl (fun s t => s.modTask t fun x => { x with committed := true }) s

/-- The pair passes (R227): the surrogate's buffer, then the check's; once both are drained the record counts the tile. -/
def State.passTile (s : State) (q e tile : Nat) (g : Guard) (y : GTile) : State :=
  let find (s : State) (r : Role) : Option Nat := (s.tasks.find? fun c => c.2.ofPair q e tile r).map (·.1)
  match find s .surrogate, find s .check with
  | some a, some b =>
    match State.commitSome a (s.task a).shadow.length s with
    | (false, s) => s
    | (true, s) => match State.commitSome b (s.task b).shadow.length s with
      | (false, s) => s
      | (true, s) =>
        if s.allArrived a && s.allArrived b then
          let x := { s.task a with view := { (s.task a).view with known := union (s.task b).view.known (s.task a).view.known } }
          let va := g.record.toNat % 2 ^ 56
          let s := (s.finalUpdate x (coreOf a) (va + 8) 15 1).finalUpdate x (coreOf a) va 13 0
          ((s.pulse y.core 19).dropTile q e tile).freePair q e tile
        else s
  | _, _ => s

/-- The pair falls back (R227): both buffers are discarded, and the exact handler of the tile waits in the mailbox of a core of the quad. -/
def State.fallTile (s : State) (q e tile : Nat) (g : Guard) (y : GTile) (reason : Nat) : State :=
  let core := if quadOf y.core = q then y.core else quadCore q 0
  let s := (s.hwUpdate (.transom q) none (s.asid g.job) (g.record.toNat % 2 ^ 56 + 16) 15 1).pulse y.core 20
  let g6 : Word := (y.residual.map (·.setWidth 64)).getD 0x7FC00000
  let (tr, s) := s.accept (q / 40) { g.trigger q e tile .exact g6 (BitVec.ofNat 64 reason) with counter := some g.record }
  let s := s.modCore core fun c => { c with mailbox := c.mailbox ++ [tr] }
  let drop (x : Task) : Task := { x with shadow := [] }
  let s := (s.pairSlots q e tile).foldl (fun s t => s.modTask t drop) s
  (s.dropTile q e tile).freePair q e tile

/-- A retired task of a pair: its tile is decided once both tasks have ended and owe no reply (R227). -/
def State.decideTile (s : State) (q e tile : Nat) : State :=
  match vget (s.quad q).guards e none with
  | none => s
  | some g => match g.tiles.find? (·.t == tile) with
    | none => s
    | some y =>
      if y.ends && (s.pairSlots q e tile).all fun t => (s.task t).settledPorts then
        match y.reason with
        | none => (s.latchPass q e tile).passTile q e tile g y
        | some n => s.fallTile q e tile g y n
      else s

/-- RETIRED_TO_FREE of a task that was killed while swapped: it holds no slot, so only what its end brings about is left. -/
def State.freeSwapped (s : State) (n : Nat) : State :=
  match s.swaps[n]? with
  | none => s
  | some w =>
    if w.task.life ≠ .retired then s
    else match (if w.task.guarded then w.task.guard else none) with
      | some (q, e, tile, _) => s.decideTile q e tile
      | none => ({ s with swaps := s.swaps.eraseIdx n } : State).freeContext w.task w.core 31

/-- RETIRED_TO_FREE (R102, R227): numbers from 20,000 on name swapped tasks. -/
def execRetiredToFree (t : Nat) (s : State) : Host.Outcome State Fault Refusal :=
  let x := s.task t
  .next (if 20000 ≤ t then s.freeSwapped (t - 20000)
  else if x.life = .retired ∧ x.settledPorts then
    match (if x.guarded then x.guard else none) with
    | some (q, e, tile, _) => s.decideTile q e tile
    | none => s.freeOrdinary t
  else s)

/-! ### KILL (R23, R113) -/

/-- A swapped task is killed: it retires with poison where its context is. -/
def State.killSwapped (s : State) (n : Nat) : State :=
  match s.swaps[n]? with
  | none => s
  | some w =>
    let x := { w.task with life := .retired, how := 1, shadow := if w.task.buffers then [] else w.task.shadow, portWait := none }
    ({ s with swaps := lset s.swaps n { w with task := x } } : State).markTile x 2 false

/-- KILL (R23): a task in any state but Free retires with poison; numbers from 20,000 on name swapped tasks. -/
def execKill (t : Nat) (s : State) : Host.Outcome State Fault Refusal :=
  .next (if 20000 ≤ t then s.killSwapped (t - 20000)
  else if (s.task t).life = .free ∨ (s.task t).tid = 0 then s
  else s.poisonEnd t 1)

/-! ### Pages (R22, R106, R226) -/

/-- Whether an address lies in the page of another, in one address space. -/
def samePage (a va b ub : Nat) : Bool := spaceOf a va == spaceOf b ub && va / 2 ^ 54 % 4 == ub / 2 ^ 54 % 4 && pageBase va == pageBase ub

/-- Work that waits for a page waits no longer: triggers, tiles to run again, and Tardar's request; Tardar's `tlbi` has dropped what
was cached of the page (R325). -/
def State.pageDone (s : State) (asid va : Nat) : State :=
  let mine (p : Option (Nat × Nat)) : Bool := p.any fun e => samePage e.1 e.2 asid va
  let clear (g : Trigger) : Trigger := if mine g.page then { g with page := none } else g
  let clearG (g : Guard) : Guard := { g with redo := g.redo.map fun r => if mine r.page then { r with page := none } else r }
  let s := s.dropTranslations 0 asid va
  { s with
    faultQ := s.faultQ.filter fun e => !samePage e.1 e.2.1 asid va,
    cores := s.cores.map fun e => (e.1, { e.2 with mailbox := e.2.mailbox.map clear }),
    quads := s.quads.map fun e => (e.1, { e.2 with guards := e.2.guards.map fun g => g.map clearG }) }

/-- A parked task runs again, or is held where a hold is on it (R23). -/
def Task.unpark (x : Task) : Task := { x with life := if x.onHold then .held none else .running }

/-- The tasks parked for a page, with the address, SUB and TRAPINFO of the access. -/
def State.parkedFor (s : State) (asid va : Nat) : List (Nat × Nat × Nat × Option Word) :=
  s.tasks.filterMap fun e => match e.2.life with
    | .parked a v k i => if samePage a v asid va then some (e.1, v, k, i) else none
    | _ => none

/-- PAGE_RESIDENT (R106): Tardar has made the page present; parked tasks replay their instruction, and host requests go on. -/
def execPageResident (asid va : Nat) (s : State) : Host.Outcome State Fault Refusal :=
  .next (if (s.walk asid va).kind = 2 then
    ((s.parkedFor asid va).foldl (fun s e => s.modTask e.1 Task.unpark) (s.pageDone asid va)).serveWindows
  else s)

/-- PAGE_DECLARED_INVALID (R106): a parked task receives PAGE at its instruction; a requeued one meets the entry in its replay. -/
def execPageDeclaredInvalid (asid va : Nat) (s : State) : Host.Outcome State Fault Refusal :=
  let fault (s : State) (e : Nat × Nat × Nat × Option Word) : State :=
    let (info, s) : Word × State := match e.2.2.2 with
      | some i => (i, s)
      | none => s.fresh
    s.modTask e.1 fun x => { x.unpark with pendingTrap := some (x.here, 3, e.2.2.1, BitVec.ofNat 64 (e.2.1 % 2 ^ 56), info) }
  .next (if (s.walk asid va).kind = 0 then ((s.parkedFor asid va).foldl fault (s.pageDone asid va)).serveWindows else s)

/-! ### Core errors (R107, R184) -/

/-- The engine of a failed core that a task owns is free at once: its queue is discarded (R184). -/
def State.resetOwned (s : State) (core : Nat) (o : Bool × Nat) : State :=
  s.modCore core fun c => if c.mx.owner = some o then { c with mx := MatrixEngine.reset } else c

/-- The trap registers of a task that a core error ends (R107, R109), with the record and the notification of its end; inside a repeat frame
they hold INFO 1 and the frame's position (R104, DESIGN CHOICE, log 114). -/
def State.coreFatal (s : State) (core slot : Nat) (x : Task) : Task × State :=
  let (info, s) := s.fresh
  let y := x.record x.here 6 2 0 info
  let s := s.emit core slot 4 y.tid [y.trapCause, y.trapPc, y.trapVal, y.trapInfo]
  (y, s.notify (.fatal y.tid.toNat y.trapCause.toNat y.trapPc.toNat y.trapVal.toNat y.trapInfo.toNat))

/-- A core error in a saved context (R107): an uncommitted restartable task runs again from its snapshot, and a guarded one with its pair;
any other retires with poison where its context is. One that has retired there has no context left to lose. -/
def State.swappedError (s : State) (n : Nat) : State :=
  match s.swaps[n]? with
  | none => s
  | some w =>
    let x := w.task
    let s := s.notify (.coreError x.tid)
    if x.life = .retired then s
    else if x.buffers then
      match (if x.guarded then x.guard else none) with
      | some (q, e, tile, _) => (s.emitPair q e tile [1, 0]).redoPair q e tile none (some w.core)
      | none =>
        let back := x.requeue none (some w.core)
        let s := s.emit w.core 31 3 x.tid [1, 0]
        (s.abortSwapped fun y => y.tid == x.tid).modCore w.core fun c => { c with mailbox := c.mailbox ++ back.toList }
    else
      let (y, s) := s.coreFatal w.core 31 x
      if (s.job x.job).debugger then
        { s with swaps := lset s.swaps n { w with task := { y with holdDbg := true, pendingTrap := none } } }
      else { s with swaps := lset s.swaps n { w with task := { y with life := .retired, how := 2, portWait := none } } }

/-- A core error in what a retired task has not yet drained of its buffer (R107): an uncommitted task runs again, a guarded one with its pair
whatever was decided of it (R226), and its engine's queue is discarded (R184); a committed one ends with poison, and the rest of its buffer is
lost. -/
def State.retiredError (s : State) (t : Nat) : State :=
  let x := s.task t
  let s := s.notify (.coreError x.tid)
  if x.buffers || x.guarded then (s.resetOwned (coreOf t) x.owner).abort t none (some (coreOf t)) 0
  else
    let (y, s) := s.coreFatal (coreOf t) (t % 16) x
    s.setTask t { y with how := 2, shadow := [] }

/-- CORE_ERROR (R107): a restartable task that has not committed runs again on another core; any other ends with INTEGRITY, SUB 2, and never
reaches its trap entry. Numbers from 20,000 on name swapped tasks; a retired task holds only its buffer. -/
def execCoreError (t : Nat) (s : State) : Host.Outcome State Fault Refusal :=
  let x := s.task t
  .next (if 20000 ≤ t then s.swappedError (t - 20000)
  else if x.life = .free ∨ x.tid = 0 then s
  else if x.life = .retired then (if x.shadow = [] then s else s.retiredError t)
  else if x.buffers then
    (((s.notify (.coreError x.tid)).resetOwned (coreOf t) x.owner).dropMove t).abort t none (some (coreOf t)) 0
  else
    let (y, s) := (s.notify (.coreError x.tid)).coreFatal (coreOf t) (t % 16) x
    let s := s.setTask t y
    if (s.job x.job).debugger then s.modTask t fun z => { z with life := .held z.life.kept, holdDbg := true, pendingTrap := none }
    else s.poisonEnd t 2)

/-! ### ENGINE interrupts (R213) -/

/-- ENGINE_INTERRUPT (R213): the oldest waiting interrupt of a Running or Waiting task is taken at its boundary, after what goes before it
there: a commit under way, a completion, a hold, a trap that is pending, a breakpoint. -/
def execEngineInterrupt (t : Nat) (s : State) : Host.Outcome State Fault Refusal :=
  let x := s.task t
  .next (if x.mayEnd && s.irqReady t && !s.landing t && !x.owes && x.pendingTrap.isNone && !(x.life == .running && x.stopsHere) then
    (s.cancelRoutine t).takeIrq t else s)

/-! ### Service of `sys` and stops (R110, R114, R301) -/

/-- A 64-bit piece of a wide register replaced. -/
def putPiece {n : Nat} (v : BitVec n) (i : Nat) (w : Word) : BitVec n :=
  (v &&& ~~~((BitVec.ofNat n (2 ^ 64 - 1)) <<< (64 * i))) ||| (w.setWidth n) <<< (64 * i)

/-- A register of a Held context as Tardar writes it (R110), by a number of the model's own (DESIGN CHOICE, log 14): 0-63 the scalar
registers, 64-67 the trap registers, 68-75 PC, ROUND, FFLAGS, FTRAPEN, GTOL, POS, ORD and PHASE, from 128 on the masks in four pieces of 64
bits each, from 1,024 on the vector registers in 128 pieces each. -/
def Task.service (x : Task) (e : Nat × Word) : Task :=
  match e.1 with
  | 64 => { x with trapPc := BitVec.ofNat 64 (va56 e.2) }
  | 68 => { x with pc := BitVec.ofNat 64 (va56 e.2), skipStop := 0 }
  | 69 => { x with round := e.2.setWidth 3 }
  | 70 => { x with fflags := e.2.setWidth 7 }
  | 71 => { x with ftrapen := e.2.setWidth 7 }
  | 72 => { x with gtol := e.2.setWidth 32 }
  | 73 => { x with pos := e.2.setWidth 52 }
  | 74 => { x with ord := e.2.setWidth 8 }
  | 75 => { x with phase := e.2.setWidth 2 }
  | 65 => { x with trapCause := e.2 &&& trapCauseMask }
  | 66 => { x with trapVal := e.2 }
  | 67 => { x with trapInfo := e.2 }
  | n =>
    if n < 64 then x.setG (BitVec.ofNat 6 n) e.2
    else if 128 ≤ n ∧ n < 160 then
      let r := BitVec.ofNat 3 ((n - 128) / 4)
      x.setK r (putPiece (x.getK r) ((n - 128) % 4) e.2)
    else if 1024 ≤ n ∧ n < 5120 then
      let r := BitVec.ofNat 5 ((n - 1024) / 128)
      x.setV r (putPiece (x.getV r) ((n - 1024) % 128) e.2)
    else x

/-- Tardar's release of a `sys` request (R110): a request it does not serve returns g1 := 2^64 - 1; outside the trap entry the task
resumes at TRAPPC, in it at the instruction after the `sys`. -/
def Task.sysDone (served : Bool) (writes : List (Nat × Word)) (x : Task) : Task :=
  let y := if served then writes.foldl Task.service x else x.setG 1 (BitVec.allOnes 64)
  let y := if y.nest then y else { y with pc := BitVec.ofNat 64 (y.trapPc.toNat % 2 ^ 56) }
  Task.unhold { y with holdSys := false }

/-- SYS_RELEASE (R110). -/
def execSysRelease (t : Nat) (served : Bool) (writes : List (Nat × Word)) (s : State) : Host.Outcome State Fault Refusal :=
  .next (if (s.task t).holdSys then s.modTask t (Task.sysDone served writes) else s)

/-- A stop reaches a task at its boundary: a routine command is cancelled, and a Running or Waiting task is Held. A command whose outputs are
landing, a commit under way, and an `hhold` or `hrel` that stalls end first, and the hold takes effect then (R23, R103, R201, R301); a
`dsteal` between its accesses is issued again (R306). -/
def State.stopTask (s : State) (t : Nat) (f : Task → Task) : State :=
  if s.landing t || (s.task t).committing || (s.task t).reply.isSome then s.modTask t f
  else (s.cancelRoutine t).modTask t fun x => { f x with life := x.life.hold, theft := none }

/-- DEBUGGER_STOP (R114): the task is Held where it is; a saved or loading context restores into Held. -/
def execDebuggerStop (t : Nat) (s : State) : Host.Outcome State Fault Refusal :=
  let mark (x : Task) : Task := { x with holdDbg := true }
  let live (x : Task) : Bool := x.life != .free && x.life != .retired
  .next (if 20000 ≤ t then
    { s with swaps := s.swaps.modify (t - 20000) fun w => if live w.task then { w with task := mark w.task } else w }
  else if live (s.task t) && (s.task t).tid != 0 then
    (s.stopTask t mark).emitTask t 5 [2, (s.task t).cls.setWidth 64, (s.task t).here]
  else s)

/-- DEBUGGER_RESUME (R114): the debugger's hold is clear; a stop that has been reported at the instruction at hand is passed once. -/
def execDebuggerResume (t : Nat) (s : State) : Host.Outcome State Fault Refusal :=
  let go (x : Task) : Task := Task.unhold { x with holdDbg := false }
  .next (if 20000 ≤ t then { s with swaps := s.swaps.modify (t - 20000) fun w => { w with task := go w.task } }
  else if (s.task t).holdDbg then s.modTask t go else s)

/-- What a hold or a release does to its target (R301): the own task of the requester is held when its `hhold` has retired. -/
def State.applyHold (s : State) (self hold : Bool) (tid : Word) : State :=
  let set (x : Task) : Task := { x with holdReq := hold }
  match s.findTid tid with
  | some t =>
    if !hold then s.modTask t fun x => Task.unhold (set x)
    else if self then s.modTask t set else s.stopTask t set
  | none => s.modByTid tid set

/-- A request of the head of a die's directory queue: applied, with the reply (R301). -/
def State.serveHold (s : State) (requester : Nat) (tid : Word) (hold : Bool) : State :=
  let answer (s : State) (n : Nat) : State := s.modByTid (BitVec.ofNat 64 requester) fun x =>
    { x with reply := x.reply.map fun _ => some n }
  match s.anyTask tid with
  | none => answer s 1
  | some x =>
    if jobOfTid tid ≠ jobOfTid (BitVec.ofNat 64 requester) ∨ tid = 0 then answer s 1
    else
      let n := if hold then holdResult x else releaseResult x
      answer (if n = 0 then s.applyHold (requester == tid.toNat) hold tid else s) n

/-- HOLD_REQUEST (R301): the directory of a die applies its oldest request. -/
def execHoldRequest (die : Nat) (s : State) : Host.Outcome State Fault Refusal :=
  .next (match (s.die die).holdQ with
    | [] => s
    | (r, tid, hold) :: rest => (s.modDie die fun d => { d with holdQ := rest }).serveHold r tid hold)

/-! ### Waits that are read again (R96, R99, R356) -/

/-- JOIN_REREAD (R96): the counter is read again by issuing the instruction. -/
def execJoinReread (t : Nat) (s : State) : Host.Outcome State Fault Refusal := .next (s.modTask t (Task.wake .join))

/-- WAITV_REREAD (R99). -/
def execWaitvReread (t : Nat) (s : State) : Host.Outcome State Fault Refusal := .next (s.modTask t (Task.wake .value))

/-- The deadline of the `idle` a task waits in. -/
def State.deadline (s : State) (t : Nat) : Option Word :=
  match s.fetch t (s.task t).pc.toNat with
  | .ok (.instr (.idle _ a) _ _) => some ((s.task t).getG a)
  | _ => none

/-- IDLE_DEADLINE (R356): DIECLK has reached the deadline. -/
def execIdleDeadline (t : Nat) (s : State) : Host.Outcome State Fault Refusal :=
  .next (if (s.deadline t).any fun v => !(s.clock (coreOf t)).ult v then s.modTask t (Task.wake .time) else s)

/-! ### The flag tree and the crossbar (R52, R229, R232) -/

/-- FLAG_TREE_UPDATE (R52): a raise of the list reaches QFLAGS and DFLAGS. -/
def execFlagTreeUpdate (n : Nat) (s : State) : Host.Outcome State Fault Refusal :=
  .next (match s.raises[n]? with
    | none => s
    | some (core, f) =>
      (({ s with raises := s.raises.eraseIdx n } : State).modQuad (quadOf core) fun q => { q with qflags := q.qflags ||| f }).modDie
        (dieOf core) fun d => { d with dflags := d.dflags ||| f })

/-- TERM_FIRE (R229): the tasks in `wait` test their counters again. -/
def execTermFire (core term : Nat) (s : State) : Host.Outcome State Fault Refusal :=
  let t := vget (s.core core).xbar.terms term ⟨0, false, 0, false, 0⟩
  .next (if term < 32 ∧ t.ready then
    (s.modCore core fun c => { c with xbar := c.xbar.fireTerm term t }).wakeWaiters core
  else s)

/-- SOFTWARE_LINE_PULSE (R232, R351). -/
def execSoftwareLinePulse (m : Nat) (s : State) : Host.Outcome State Fault Refusal :=
  .next (match s.msgs.find? (·.id == m) with
    | none => s
    | some e => match e.kind with
      | .lines b => if s.msgReady e then (s.deliverMsg e).softLines e.core b.toNat else s
      | _ => s)

end Sys2Proof.Machine
end

