-- ==== Sys2Proof/Machine/Jobs.lean ====
section
/-! DEFINITION. What Tardar does about jobs, the Curator's trace records, and a debugger (R52, R116, R134, R136, R231, R251, R262,
R286, R296, R297, R300, R309, R314, R352-R354, R358, R388, R114). -/

namespace Sys2Proof.Machine

/-! ### The Curator (R352-R354) -/

/-- TRACECTL.EN. -/
def Die.tracing (d : Die) : Bool := d.tracectl.getLsbD 63

/-- A doubleword of a die's trace buffer. -/
def traceLoc (base : Word) (off : Nat) : Loc := .glob (spaceOf 0 (base.toNat % 2 ^ 56)) ((base.toNat + off) % 2 ^ 56)

/-- The Curator writes bytes of its buffer, with release at `.pkg` of what it knows. -/
def State.curatorWrite (s : State) (die off : Nat) (bs : List Byte) : State :=
  let p := Party.curator die
  s.hwWrite p [] (s.releaseOf p) (traceLoc (s.die die).tracebase off) bs []

/-- The Curator asks to access a range of its buffer (R270, R323, R327). -/
def State.curatorAsk (s : State) (die : Nat) (write : Bool) (off n : Nat) : Leave × State :=
  s.askLeave (.curator die) write (traceLoc (s.die die).tracebase off) n

/-- TAIL, LOST and the header's last doublewords start from zero when tracing is turned on (R352). -/
def State.startTrace (s : State) (die : Nat) : State :=
  let s := s.modDie die fun d => { d with traceTail := 0, traceLost := 0, lostSince := false }
  ((s.curatorWrite die 0 (natBytes 0 8)).curatorWrite die 8 (natBytes 0 8)).curatorWrite die 24 (natBytes 0 40)

/-- TRACECTL_WRITE (R352): TRACEBASE, or TRACECTL; EN stays 0 where LOG lies outside 10 to 24; reserved bits read as zero. A
header that cannot be written yet keeps the write of EN waiting (R270, R323). -/
def execTracectlWrite (die : Nat) (base : Bool) (v : Word) (s : State) : Host.Outcome State Fault Refusal :=
  .next (if base then s.modDie die fun d => { d with tracebase := v &&& 0x00FFFFFFFFFFF000 }
  else
    let log := bits v 56 6
    let c := v &&& 0xFF0000000000FFFF
    let c := if 10 ≤ log ∧ log ≤ 24 then c else c &&& 0x7FFFFFFFFFFFFFFF
    let set (s : State) : State := s.modDie die fun d => { d with tracectl := c }
    if !(s.die die).tracing && c.getLsbD 63 then
      match s.curatorAsk die true 0 64 with
      | (.now, s) => (set s).startTrace die
      | (.later, s) => s
      | (.never, s) => set s
    else set s)

/-- A source of a die (R352): its cores, Transoms, collective engine and quadrant service cores. -/
def sourceOf (die src : Nat) : Bool :=
  (decide (src < 640) && dieOf src == die) || (decide (1000 ≤ src) && decide (src < 1160) && (src - 1000) / 40 == die) ||
    src == 2000 + die || (decide (3000 ≤ src) && decide (src < 3016) && (src - 3000) / 4 == die)

/-- The records that a source of a die holds, oldest first (R354). -/
def State.traceQueue (s : State) (die unit : Nat) : List TraceRec := if sourceOf die unit then s.traceOf unit else []

/-- The oldest record of a source leaves it. -/
def State.popTrace (s : State) (unit : Nat) : State := s.setTrace unit ((s.traceOf unit).drop 1)

/-- A record with LOST and LWRAP as the Curator sets them (R351, R353). -/
def Die.stamped (d : Die) : TraceRec → TraceRec
  | [] => []
  | w :: r => (w ||| (if d.lostSince then (1 : Word) <<< 33 else 0) ||| (if d.lwrap then (1 : Word) <<< 32 else 0)) :: r

/-- HEAD of the buffer, read with acquire at `.pkg` (R354). -/
def State.traceHead (s : State) (die : Nat) : Nat × State :=
  let (bs, s) := s.engineRead (.curator die) (traceLoc (s.die die).tracebase 16) 8
  (leNat bs, s)

/-- A record is written at its place, and TAIL after it (R354). -/
def State.writeTrace (s : State) (die : Nat) (r : TraceRec) : State :=
  let d := s.die die
  let n := d.traceTail
  let s := s.curatorWrite die (64 + 64 * (n % 2 ^ bits d.tracectl 56 6)) (bytesOfDwords (d.stamped r))
  let s := s.modDie die fun d => { d with traceTail := n + 1, lostSince := false, lwrap := false }
  s.curatorWrite die 0 (natBytes (n + 1) 8)

/-- LOST counts the dropped records in the buffer's header (R354). -/
def State.writeLost (s : State) (die : Nat) : State := s.curatorWrite die 8 (natBytes (s.die die).traceLost 8)

/-- The accesses that the next record may need: the header, read where STOP = 1, and the record's place. -/
def State.traceAsks (s : State) (die : Nat) : List (Bool × Nat × Nat) :=
  let d := s.die die
  (if d.tracectl.getLsbD 62 then [(false, 0, 64)] else []) ++ [(true, 0, 64), (true, 64 + 64 * (d.traceTail % 2 ^ bits d.tracectl 56 6), 64)]

/-- The Curator asks for all of them; what holds it back is the first that does. -/
def State.curatorAsks (s : State) (die : Nat) : List (Bool × Nat × Nat) → Leave × State
  | [] => (.now, s)
  | a :: r => match s.curatorAsk die a.1 a.2.1 a.2.2 with
    | (.now, s) => s.curatorAsks die r
    | e => e

/-- A record that the Curator has taken is written, or dropped where STOP = 1 and the buffer is full (R354). -/
def State.putTrace (s : State) (die : Nat) (r : TraceRec) : State :=
  let d := s.die die
  let (head, s) := if d.tracectl.getLsbD 62 then s.traceHead die else (d.traceTail, s)
  if d.traceTail - head < 2 ^ bits d.tracectl 56 6 then
    if d.lostSince then (s.writeTrace die r).writeLost die else s.writeTrace die r
  else (s.modDie die Die.drop).writeLost die

/-- TRACE_RECORD (R354): the Curator takes the oldest record of a source, once it may access its buffer (R270, R323); where the buffer's page refuses it
the record is lost. A Curator that is off keeps nothing. -/
def execTraceRecord (die unit : Nat) (s : State) : Host.Outcome State Fault Refusal :=
  .next (match s.traceQueue die unit with
    | [] => s
    | r :: _ =>
      if !(s.die die).tracing then s.popTrace unit
      else match s.curatorAsks die (s.traceAsks die) with
        | (.now, s) => (s.popTrace unit).putTrace die r
        | (.later, s) => s
        | (.never, s) => (s.popTrace unit).modDie die Die.drop)

/-- Tardar clears a die's trace registers (R352). -/
def State.clearTrace (s : State) (die : Nat) : State := s.modDie die fun d => { d with tracectl := 0, tracebase := 0 }

/-! ### The start of a job (R116, R388) -/

/-- The cores of a list of quads. -/
def coresOf (quads : List Nat) : List Nat := quads.flatMap fun q => (List.range 4).map (quadCore q)

/-- BANKMAP of a core in a job descriptor (R116). -/
def jobBankmap (j : JobDesc) (core : Nat) : BitVec 768 :=
  ((j.bankmap.find? (·.1 == core)).map (·.2)).getD bankmapReset

/-- The `.local` image lies in Scratch banks of every core (R358). -/
def jobImageFits (j : JobDesc) : Bool :=
  (coresOf j.quads).all fun c => (List.range ((j.localImage.length + 4095) / 4096)).all fun b =>
    decide (b < 384) && (jobBankmap j c).toNat / 4 ^ b % 4 == 0

/-- The job number is free: no core dispatches for it, and no task or collective of it is left. -/
def State.jobGone (s : State) (j : Nat) : Bool :=
  (s.cores.all fun e => e.2.job != some j) && (s.tasks.all fun e => e.2.life == .free || e.2.job != j) &&
    (s.swaps.all fun w => w.task.job != j) && s.colls.all fun k => k.job != j

/-- The quads of a job descriptor are whole quads that no job has (R388). -/
def State.quadsFree (s : State) (quads : List Nat) : Bool :=
  quads.all fun q => decide (q < 160) && (coresOf [q]).all fun c => (s.core c).job.isNone

/-- Bytes that Tardar loads into a core's banks: a sector they cover whole is sound, one they cover in part keeps its poison (R333, R358). -/
def Memory.load (m : Memory) (off : Nat) (bs : List Byte) : Memory :=
  let n := bs.length
  let whole (k : Nat) : Bool := decide (off ≤ 64 * k) && decide (64 * k + 64 ≤ off + n)
  let part (k : Nat) : Bool := !whole k && decide (off < 64 * k + 64) && decide (64 * k < off + n)
  let bad := (m.badCheck.map (·.1)).filter part
  { m.putBytes off bs with
    poison := bad.foldl addSector (m.poison.filter (!whole ·)), badCheck := m.badCheck.filter fun e => !whole e.1 && !part e.1 }

/-- A core at the start of a job: BANKMAP, deque banks with their header, the `.local` image, RINGWAIT; rings, routines, crossbar and
barriers clear, steal counters zero (R116, R134, R136, R231, R286, R300, R358). -/
def Core.startJob (j : JobDesc) (c : Nat) (k : Core) : Core :=
  let base := j.dequeBase * 4096
  let mem := k.mem.load base ((natBytes 0 8 ++ natBytes 0 8 ++ natBytes (64 * j.dequeBanks - 1) 8) ++ List.replicate 40 0)
  let mem := mem.load 0 j.localImage
  { k with
    mem := mem, bankmap := jobBankmap j c, dequeBase := j.dequeBase, dequeBanks := j.dequeBanks, dequeMeta := [],
    rings := Vector.replicate 32 none, ringwait := j.ringwait, cacheLines := [], routines := [], xbar := Crossbar.reset,
    mailbox := [], victim := 0, steal := none, stealFails := 0, stealAttempts := 0, stealFailed := 0, searchCycles := 0,
    job := some j.job.toNat }

/-- Every barrier instance is reset (R286). -/
def State.resetBarriers (s : State) : State :=
  { s with
    cores := s.cores.map fun e => (e.1, { e.2 with bars := Vector.replicate 16 Barrier.reset })
    quads := s.quads.map fun e => (e.1, { e.2 with bars := Vector.replicate 16 Barrier.reset })
    dies := s.dies.map fun e => (e.1, { e.2 with bars := Vector.replicate 16 Barrier.reset })
    pkgBars := Vector.replicate 16 Barrier.reset
    podBars := [] }

/-- The route table of a die (R262, R341): the image's default with the job's entries; classes 5 and 6 stay XY. -/
def jobRoutes (default : Vector Nat 8) (j : JobDesc) : Vector Nat 8 :=
  j.routes.foldl (fun v e => if e.1 = 5 ∨ e.1 = 6 ∨ 2 < e.2 then v else vput v e.1 e.2) default

/-- A die at the start of a job: its route table, its copy of the handler table, and its count of the job's identifiers, which starts anew
(R17, R262, R297). -/
def Die.startJob (default : Vector Nat 8) (j : JobDesc) (d : Die) : Die :=
  { d with
    routes := jobRoutes default j
    serial := tdel d.serial j.job.toNat
    handlers := j.handlers.foldl (fun t e => if e.1 < 256 then tput t (handlerKey j.job.toNat e.1) e.2 else t) d.handlers }

/-- The first byte of a die's request area (R309). -/
def requestArea (die : Nat) : Nat := 0x00FFFF0000000000 + 0x10000 * die

/-- Tardar maps a page at a frame, as a read and write page: the directory entries that are not present yet are given the tables from
`free` on (R321, R322). -/
def mapIn (m : Memory) (leaf free : Nat) (va : Nat) : List (Nat × Nat) → Nat → Memory
  | [], pa => m.putBytes pa (natBytes (2 ^ 63 + leaf + 6) 8)
  | (lo, n) :: r, pa =>
    let e := entryAt m pa
    let (m, e) := if bits e 62 2 = 2 then (m, e)
      else let w := BitVec.ofNat 64 (2 ^ 63 + free); (m.putBytes pa (natBytes w.toNat 8), w)
    mapIn m leaf (free + 4096) va r (frameOf e + 8 * (va / 2 ^ lo % 2 ^ n))

/-- Tardar maps a die's request area where it is not mapped yet (R309): its page's home stack is the one of the die's own number, the tables
lie among Tardar's and the frame just above them (R318, DESIGN CHOICE, log 102). -/
def State.mapRequests (s : State) (die : Nat) : State :=
  let va := requestArea die
  if (s.walk 0 va).kind = 2 then s
  else
    let h := homeStack va * 2 ^ 36
    { s with hbm := mapIn s.hbm (h + 0x1000000) (h + 0xA00000 + 0x4000 * die) va (pageGroups (pageClass va)) (h + 8 * pageClass va) }

/-- The tickets of a die's request area start from zero (R309): Tardar sets TAIL, and the engine, which alone writes it, HEAD. -/
def State.resetTickets (s : State) (die : Nat) : State :=
  let zero (p : Party) (off : Nat) (s : State) : State :=
    s.partyWrite p (s.releaseOf p) 0 (requestArea die + off) (List.replicate 8 0)
  zero (.collective die 0) 8 (zero (.service (4 * die)) 0 s)

/-- The job is accepted: Tardar sets up its quads, its dies and its cores; what an earlier job wrote in their banks is the initial state of this
one (R358), and every die's request area is mapped, its tickets starting from zero (R309). -/
def State.startJob (s : State) (j : JobDesc) : State :=
  let ds := (j.quads.map (· / 40)).eraseDups
  let s := s.resetBarriers
  let s := (coresOf j.quads).foldl (fun s c => s.modCore c (Core.startJob j c)) s
  let s := j.quads.foldl (fun s q => s.modQuad q fun k => { k with qflags := 0 }) s
  let s := ds.foldl (fun s d => (s.modDie d fun k => { k with dflags := 0 }).clearTrace d) s
  let s := [0, 1, 2, 3].foldl (fun s d => ((s.modDie d (Die.startJob s.conf.routes j)).mapRequests d).resetTickets d) s
  { s with
    hist := s.hist.filter fun w => match w.loc with
      | .bank c _ => !(coresOf j.quads).contains c
      | .glob _ _ => true
    pkg := j.package
    jobs := tput s.jobs j.job.toNat ⟨j, false, 0, []⟩
    collSeq := s.collSeq.filter fun e => e.1 / 4096 % 65536 != j.job.toNat }

/-- The logical core numbers of a descriptor: the cores of its set receive the distinct numbers 0 to 4Q - 1 (R18). -/
def jobNumbered (j : JobDesc) : Bool :=
  decide j.quads.Nodup && (j.lcn.map (·.1)).isPerm (coresOf j.quads) &&
    (j.lcn.map fun e => e.2.toNat).isPerm (List.range (4 * j.quads.length))

/-- JOB_START (R18, R116, R358, R388): Tardar starts a job on free quads whose cores it has numbered; one whose image does not fit is
refused; the request areas' tickets wait until a replicated line of theirs is withdrawn (R270). -/
def execJobStart (j : JobDesc) (s : State) : Host.Outcome State Fault Refusal :=
  .next (if s.boot.done && s.jobGone j.job.toNat && s.quadsFree j.quads && jobNumbered j then
    if [0, 1, 2, 3].any fun d => s.replicatedFrom (.glob 0 (requestArea d)) 16 then
      [0, 1, 2, 3].foldl (fun s d => s.withdrawFrom (.glob 0 (requestArea d)) 16) s
    else if jobImageFits j then s.startJob j else s.notify (.jobRefused j.job.toNat)
  else s)

/-! ### The end of a job (R251, R314, R352) -/

/-- The casements of a job are unloaded (R251). -/
def State.unloadCasements (s : State) (job : Nat) : State :=
  { s with quads := s.quads.map fun e => (e.1, { e.2 with cas := e.2.cas.map fun c => c.filter (·.job != job) }) }

/-- The tasks of a job end, in their slots and in memory. -/
def State.killJob (s : State) (job : Nat) : State :=
  let ts := (s.tasks.filter fun e => e.2.job == job && e.2.life != .free && e.2.life != .retired && e.2.tid != 0).map (·.1)
  let ns := (List.range s.swaps.length).filter fun n => (s.swaps[n]?).any fun w => w.task.job == job
  ns.foldl State.killSwapped (ts.foldl (fun s t => s.poisonEnd t 1) s)

/-- The waiting work of a job is gone: triggers, records, requeued tiles, messages, and its grids, but that the teams still in memory count down
their grid's counter (R291). -/
def State.dropWork (s : State) (job : Nat) : State :=
  { s with
    cores := s.cores.map fun e => (e.1, if e.2.job = some job then
        { e.2 with mailbox := [], dequeMeta := [], steal := none, job := none }
      else { e.2 with mailbox := e.2.mailbox.filter (·.job != job) })
    queues := s.queues.map fun e => (e.1, e.2.filter (·.job != job))
    parkedRecs := s.parkedRecs.filter (·.job != job)
    grids := s.grids.filterMap fun g => if g.job ≠ job then some g
      else if s.teams.any fun e => e.2.grid == g.id then some { g with teams := g.next } else none
    msgs := s.msgs.filter (·.job != job)
    dies := s.dies.map fun e => (e.1, { e.2 with handlers := e.2.handlers.filter fun h => h.1 / 256 != job }) }

/-- The collectives of a job abort with CAUSE 4 where no cause came before and chunks are left (R314); those
that have ended everywhere wait for no further request. -/
def State.abortColls (s : State) (job : Nat) : State :=
  { s with colls := (s.colls.filter fun k => k.job != job || !k.members.all (·.ended)).map fun k => if k.job = job ∧ k.cause.isNone ∧ ¬(k.grants = [] ∧ k.acked ≠ []) then { k with cause := some 4 } else k }

/-- JOB_END (R251, R314, R352, R388): the job's cores are free for another job; its tasks are killed and reach Free in their own
time. -/
def execJobEnd (job : Nat) (s : State) : Host.Outcome State Fault Refusal :=
  let j := (s.job job).desc
  let ds := (j.quads.map (· / 40)).eraseDups
  .next (if (tfind s.jobs job).isSome then
    let s := ((s.killJob job).unloadCasements job).abortColls job
    (ds.foldl State.clearTrace s).dropWork job
  else s)

/-! ### A debugger (R114) -/

/-- A watchpoint covers an aligned range of 8 bytes to 4 GiB. -/
def watchOk (w : Nat × Nat × Nat) : Bool :=
  (List.range 30).any fun i => w.2.1 == 2 ^ (i + 3) && w.1 % 2 ^ (i + 3) == 0

/-- The breakpoints and watchpoints of a context: at most 8 and 4. -/
def Task.setStops (brk : List Word) (watch : List (Nat × Nat × Nat)) (x : Task) : Task :=
  { x with brk := brk.take 8, watch := (watch.filter watchOk).take 4 }

/-- DEBUGGER_ATTACH (R114): a debugger attaches to a job or leaves it, and sets the stops of a task of the job; numbers from 20,000 on
name swapped tasks. -/
def execDebuggerAttach (job : Nat) (on : Bool) (t : Nat) (brk : List Word) (watch : List (Nat × Nat × Nat)) (s : State) :
    Host.Outcome State Fault Refusal :=
  .next (if (tfind s.jobs job).isSome then
    let s : State := { s with jobs := tput s.jobs job { s.job job with debugger := on } }
    if 20000 ≤ t then
      { s with swaps := s.swaps.modify (t - 20000) fun w =>
          if w.task.job = job then { w with task := w.task.setStops brk watch } else w }
    else if (s.task t).job = job ∧ (s.task t).life ≠ .free then s.modTask t (Task.setStops brk watch) else s
  else s)

end Sys2Proof.Machine
end

