-- ==== Sys2Proof/Machine/Collectives.lean ====
section
/-! DEFINITION. The collective engines: requests, reservations, chunks and their retries, ends (R282, R307-R317). Members on other
packages are seen only through what they send (DESIGN CHOICE, log 16). -/

namespace Sys2Proof.Machine

/-! ### A request (R309, R310) -/

/-- The global number of a die of this package (R307, R316). -/
def State.globalDie (s : State) (die : Nat) : Nat := 4 * s.pkg + die

/-- The die of this package that a global number names. -/
def State.localDie (s : State) (g : Nat) : Option Nat := if g / 4 = s.pkg then some (g % 4) else none

/-- The attribute cache of a collective engine (R323). -/
def engineUnit (die : Nat) : Nat := 640 + die

/-- The eight doublewords of a request, and who submitted it. -/
structure Request where
  dws : List Word
  job : Nat
  core : Nat

/-- A doubleword of a request. -/
def Request.dw (r : Request) (n : Nat) : Word := (r.dws[n]?).getD 0

/-- OP of a request (R310). -/
def Request.op (r : Request) : Nat := bits (r.dw 0) 44 4

/-- CL of a request (R310). -/
def Request.cl (r : Request) : Nat := bits (r.dw 0) 40 4

/-- GROUP of a request (R310). -/
def Request.group (r : Request) : Nat := bits (r.dw 0) 0 12

/-- n, the elements per rank (R310). -/
def Request.n (r : Request) : Nat := bits (r.dw 4) 0 32

/-- An operation that combines contributions. -/
def reduces (op : Nat) : Bool := op == 0 || op == 1 || op == 4

/-- The words of a member's destination (R310). -/
def destWords (op n ranks : Nat) : Nat := if op = 3 then ranks * n else n

/-- The words of a chunk: C = 2^(12 + CL) bytes (R310). -/
def chunkWords (cl : Nat) : Nat := 2 ^ (10 + cl)

/-- The chunks of a collective (R312). -/
def CollOp.chunks (w : CollOp) (ranks : Nat) : Nat :=
  (destWords w.op w.n ranks + chunkWords w.cl - 1) / chunkWords w.cl

/-- The staging a collective needs at every member (R316). -/
def stagingNeed (rg cl : Nat) : Nat := rg * 2 ^ (12 + cl)

/-- The staging SRAM of an engine, 2 MiB. -/
def stagingSize : Nat := 2 ^ 21

/-- The group table entry of a request (R307). -/
def State.groupOf (s : State) (r : Request) : Option GroupDesc :=
  ((s.job r.job).desc.groups.find? (·.1 == r.group)).map (·.2)

/-- A request that is not malformed, its routine apart (R307, R310, R312, R316). -/
def Request.sound (r : Request) (g : GroupDesc) (me : Nat) : Bool :=
  let n := g.members.length
  decide (r.op ≤ 4) && decide (r.cl ≤ 8) && decide (bits (r.dw 0) 37 3 ≤ 4) && bits (r.dw 0) 12 25 == 0 &&
  g.members.contains me && decide (2 ≤ n) && decide (n ≤ 4096) && decide (1 ≤ g.rg) && decide (g.rg ≤ 16) &&
  (reduces r.op || r.dw 1 == 0) && bits (r.dw 2) 56 8 == 0 && bits (r.dw 3) 56 8 == 0 &&
  (r.dw 2 != r.dw 3 || r.op == 0) && bits (r.dw 4) 32 32 == 0 && decide (1 ≤ r.n) &&
  decide ((destWords r.op r.n n + chunkWords r.cl - 1) / chunkWords r.cl ≤ 65536) && decide (stagingNeed g.rg r.cl ≤ stagingSize)

/-- A routine a reduction may use (R310). -/
def routineFits (r : Routine) : Bool := !r.w && r.assoc && decide (r.ty.toNat ≤ 2)

/-- What an access of the engine finds (R270, R314, R327): nothing wrong, a page Tardar must bring, a line to be withdrawn, or a failure. -/
inductive EngineAccess where
  | fine
  | absent (asid va kind : Nat)
  | busy
  | refused
  deriving DecidableEq, Repr

/-- The engine's check of a range of global memory, its bytes included where it reads them (R323, R333). -/
def State.engineCheck (s : State) (die asid va n : Nat) (write : Bool) : EngineAccess :=
  match s.checkPages (engineUnit die) asid (!write) write false (if write then 1 else 0) va n with
  | .error (.absent a v k _) => .absent a v k
  | .error _ => .refused
  | .ok _ =>
    if write then (if s.replicatedFrom (.glob (spaceOf asid va) va) n || s.behindSwitch (.glob (spaceOf asid va) va) then .busy else .fine)
    else match s.checkSectors (.glob (spaceOf asid va) va) n with
      | .ok _ => .fine
      | .error _ => .refused

/-- A mismatch poisons the sectors it was read from (R333), a malformed entry is reported (R322). -/
def State.noteMismatch (s : State) (asid va n : Nat) : State := ((s.notePages asid va n).takeUnsound (.glob (spaceOf asid va) va) n).2

/-- The party that stands for the chain of a die's engine: its stages pass on what they know (R308, DEDUCED, log 95). -/
def chainParty (die : Nat) : Party := .collective die 0

/-- Words of global memory read by a die's engine. -/
def State.engineWords (s : State) (die asid va n : Nat) : List Half32 × State :=
  let (bs, s) := s.engineRead (chainParty die) (.glob (spaceOf asid va) va) (4 * n)
  (wordsOf bs, s)

/-- The image of a handle as the engine loads it (R190, R191): a missing page, an invalid image, or the routine. -/
def State.engineRoutine (s : State) (die asid : Nat) (h : Word) : Except EngineAccess (Routine × State) := do
  let va := h.toNat % 2 ^ 56
  if !handleOk h then .error .refused
  else
    let check (n : Nat) : Except EngineAccess Unit := match s.engineCheck die asid va n false with
      | .fine => .ok ()
      | e => .error e
    check 4
    let (hd, _) := s.engineWords die asid va 1
    let len := bits (hd.headD 0) 0 5 + 1
    check (64 + 4 * len)
    let (ws, s) := s.engineWords die asid va (16 + len)
    match checkImage ws with
    | .ok _ => let r := imageOf 0 ws; if routineFits r then .ok (r, s) else .error .refused
    | .error _ => .error .refused

/-! ### Taking a request (R309, R311) -/

/-- The key of a member's count of requests of a group. -/
def seqKey (die job group : Nat) : Nat := (die * 65536 + job % 65536) * 4096 + group

/-- The handler core that runs the next stage: whichever is free (R308). -/
def State.hand (s : State) (die : Nat) : Party × State :=
  let (h, s) := s.choose 8
  (.collective die h, s)

/-- A request slot once its page is there, its first doubleword read with acquire at `.pkg` (R309): none until it is complete. -/
def State.readSlot (s : State) (die : Nat) : Option (Nat × Request × State) :=
  let (me, s) := s.hand die
  let s := s.fillPages (engineUnit die) 0 (requestArea die) 0x4040
  let t := (s.homeWord 0 (requestArea die + 8)).toNat
  let va := requestArea die + 64 + 64 * (t % 256)
  let l := Loc.glob (spaceOf 0 va) va
  let s := s.fillWords l 64
  let (b0, ids, s) := s.readAs (s.knownOf me) [] l 8
  let w := leWord b0
  if !w.getLsbD 63 || bits w 48 15 != t % 2 ^ 15 then none
  else
    let s := s.learn me (union ids (s.acquired me ids 4))
    let (b1, s) := s.engineRead me (l.plus 8) 56
    let (job, core) := match (s.hist.find? (·.meets l 8)).map (·.party) with
      | some (.task tid c) => (jobOfTid tid, c)
      | _ => (0, 160 * die)
    some (t, ⟨w :: dwordsOf 7 b1, job, core⟩, s)

/-- The engine may read and write its request area (R309, R323). -/
def State.areaCheck (s : State) (die : Nat) : EngineAccess :=
  match s.engineCheck die 0 (requestArea die) 0x4040 false with
  | .fine => s.engineCheck die 0 (requestArea die) 0x4040 true
  | e => e

/-- The slot is taken: V is cleared and HEAD moves on (R309). -/
def State.takeSlot (s : State) (die t : Nat) (r : Request) : State :=
  let va := requestArea die + 64 + 64 * (t % 256)
  let w := r.dw 0 &&& ~~~((1 : Word) <<< 63)
  let (me, s) := s.hand die
  (s.partyWrite me none 0 va (natBytes w.toNat 8)).partyWrite me none 0 (requestArea die + 8) (natBytes (t + 1) 8)

/-- The part of a request that is one member's own. -/
def Request.member (r : Request) (die : Nat) : CollMember where
  die := die
  core := r.core
  src := (r.dw 2).toNat % 2 ^ 56
  dst := (r.dw 3).toNat % 2 ^ 56
  status := r.dw 5
  wake := r.dw 6
  warg := r.dw 7
  bitmap := []
  flags := 0
  ended := false

/-- A collective with its first request. -/
def State.newColl (s : State) (r : Request) (seq : Nat) (g : GroupDesc) (w : CollOp) : State :=
  { s with
    nextId := s.nextId + 1
    colls := s.colls ++ [{
      id := s.nextId, job := r.job, group := r.group, seq := seq, ranks := g.members, rg := g.rg,
      links := (g.primary, g.alternate), what := w, members := [], keep := [], grants := [], alternate := false, retries := 0,
      cause := none, on := false, acked := [], flips := [], since := [] }] }

/-- A request joins its collective: the k-th of a group at each member; one that is malformed or differs aborts it (R311, R314). The
request of a die that is no member is malformed and belongs to no other's collective. -/
def State.joinColl (s : State) (die : Nat) (r : Request) (routine : Option (Option Routine)) : State :=
  let me := s.globalDie die
  let key := seqKey die r.job r.group
  let seq := tget s.collSeq key 0
  let s : State := { s with collSeq := tput s.collSeq key (seq + 1) }
  let g := ((s.groupOf r).filter (·.members.contains me)).getD ⟨[me], 1, [], []⟩
  let w : CollOp := ⟨r.op, r.cl, bits (r.dw 0) 37 3, r.n, routine.join⟩
  let mine (k : Coll) : Bool := k.job == r.job && k.group == r.group && k.seq == seq && k.ranks == g.members
  let s := if s.colls.any mine then s else s.newColl r seq g w
  let good := routine.isSome && (s.groupOf r).isSome && r.sound g me
  { s with colls := s.colls.map fun k =>
      if mine k then
        { k with
          members := k.members ++ [r.member die]
          cause := if k.cause.isSome then k.cause else if good && k.what == w then none else some 1 }
      else k }

/-- COLLECTIVE_REQUEST_TAKEN (R309, R311, R315): a request whose status address is unaligned or unmapped is dropped; a routine whose page is
absent is waited for, and so is that of the request area (R327). -/
def execCollectiveRequestTaken (die : Nat) (s : State) : Host.Outcome State Fault Refusal :=
  .next (match s.areaCheck die with
  | .absent a v k => s.askPage a v k
  | .busy => s.withdrawFrom (.glob 0 (requestArea die)) 0x4040
  | .refused => s.noteMismatch 0 (requestArea die) 0x4040
  | .fine => match s.readSlot die with
    | none => s
    | some (t, r, s1) =>
      let asid := s1.asid r.job
      let va := (r.dw 5).toNat % 2 ^ 56
      if (r.dw 5).toNat % 8 ≠ 0 ∨ s1.engineCheck die asid va 8 true = .refused then
        (s1.takeSlot die t r).notify (.badStatus r.job r.group)
      else if reduces r.op then
        match s1.engineRoutine die asid (r.dw 1) with
        | .ok (y, s2) => (s2.takeSlot die t r).joinColl die r (some (some y))
        | .error (.absent a v k) => s.askPage a v k
        | .error _ => (s1.takeSlot die t r).joinColl die r none
      else (s1.takeSlot die t r).joinColl die r (some none))

/-! ### Reservations (R316, R317) -/

/-- The members of a collective on this package, by global die number. -/
def State.localRanks (s : State) (k : Coll) : List Nat := k.ranks.filter fun g => (s.localDie g).isSome

/-- The request of rank 0 has been taken, where this package can tell. -/
def State.rootAsked (s : State) (k : Coll) : Bool :=
  match k.ranks with
  | [] => false
  | g :: _ => match s.localDie g with
    | some d => k.members.any (·.die == d)
    | none => true

/-- Every chunk of a collective has its FINAL-ACK (R312). -/
def Coll.finished (k : Coll) : Bool := k.acked.length == k.what.chunks k.ranks.length

/-- A collective waits for its reservation at a die: those of the lower dies are granted (R316). -/
def State.waitsAt (s : State) (g : Nat) (k : Coll) : Bool :=
  k.cause.isNone && !k.finished && k.ranks.contains g && (tfind k.grants g).isNone && s.rootAsked k &&
    (s.localRanks k).all fun h => decide (g ≤ h) || (tfind k.grants h).isSome

/-- The staging in use at a die. -/
def State.stagingUsed (s : State) (g : Nat) : Nat :=
  s.colls.foldl (fun n k => if (tfind k.grants g).isSome then n + stagingNeed k.rg k.what.cl else n) 0

/-- The first of an engine's waiting requests: by group number, then by sequence (R316). -/
def State.firstWaiting (s : State) (g : Nat) : Option Coll :=
  ((s.colls.filter (s.waitsAt g)).mergeSort fun a b =>
    decide (a.group < b.group) || (a.group == b.group && decide (a.seq ≤ b.seq))).head?

/-- The reservations of a collective are complete (R317). -/
def State.begun (s : State) (k : Coll) : Bool :=
  k.cause.isNone && !k.finished && (s.localRanks k).all fun g => (tfind k.grants g).isSome

/-- The order of the grants: one collective's reservations were complete before another's (R317, DEDUCED, log 95). -/
def before (x k : Coll) : Bool :=
  let last (k : Coll) : Nat := k.grants.foldl (fun n e => max n e.2) 0
  decide (last x < last k)

/-- A collective runs. -/
def Coll.running (k : Coll) : Bool := k.on && k.cause.isNone && !k.finished

/-- A collective may begin: it is complete, and of those that share an engine with it none runs, and no complete one comes before it
(R317). One that still waits for a reservation holds no complete one back, or collectives could wait in a cycle (R316). -/
def State.mayBegin (s : State) (k : Coll) : Bool :=
  s.begun k && s.colls.all fun x => x.id == k.id || !(s.localRanks x).any (s.localRanks k).contains ||
    (!x.running && !(s.begun x && before x k))

/-! ### Chunks (R311, R312) -/

/-- The destination words of a chunk: the first and how many. -/
def Coll.chunk (k : Coll) (j : Nat) : Nat × Nat :=
  let w := chunkWords k.what.cl
  (j * w, min ((j + 1) * w) (destWords k.what.op k.what.n k.ranks.length) - j * w)

/-- The source words a rank contributes to a chunk, in runs. -/
def Coll.runsOf (k : Coll) (rank j : Nat) : List (Nat × Nat) :=
  let (lo, n) := k.chunk j
  match k.what.op with
  | 2 => if rank = 0 then [(lo, n)] else []
  | 3 =>
    let a := max lo (rank * k.what.n)
    let b := min (lo + n) ((rank + 1) * k.what.n)
    if a < b then [(a - rank * k.what.n, b - a)] else []
  | 4 => (List.range k.ranks.length).map fun m => (m * k.what.n + lo, n)
  | _ => [(lo, n)]

/-- Reading part of a contribution: the words, or what stopped it. -/
inductive Fetched1 where
  | words (l : List Half32) (s : State)
  | absent (asid va kind : Nat)
  | refused (s : State)

/-- A member's contribution read into staging, run by run (R312). -/
def State.fetchRuns (s : State) (k : Coll) (m : CollMember) : List (Nat × Nat) → Fetched1
  | [] => .words [] s
  | (w, n) :: r =>
    let asid := s.asid k.job
    let va := (m.src + 4 * w) % 2 ^ 56
    match s.engineCheck m.die asid va (4 * n) false with
    | .absent a v t => .absent a v t
    | .busy => .refused s
    | .refused => .refused (s.noteMismatch asid va (4 * n))
    | .fine =>
      let (l, s) := (s.fillPages (engineUnit m.die) asid va (4 * n)).engineWords m.die asid va n
      match s.fetchRuns k m r with
      | .words l' s => .words (l ++ l') s
      | e => e

/-- Words that another package's member contributes: nothing here gives them (DESIGN CHOICE, log 16). -/
def State.remoteWords (s : State) (n : Nat) : List Half32 × State :=
  ((List.range n).map fun i => (Config.freeWord (s.tick + i)).setWidth 32, { s with tick := s.tick + n })

/-- Every rank's contribution to a chunk, from rank `r` on. -/
def State.fetchRanks (s : State) (k : Coll) (j : Nat) : Nat → List Nat → List (List Half32) → Except Fetched1 (List (List Half32) × State)
  | _, [], acc => .ok (acc, s)
  | r, g :: rest, acc =>
    let runs := k.runsOf r j
    match s.localDie g with
    | none =>
      let (l, s) := s.remoteWords (runs.foldl (fun n e => n + e.2) 0)
      s.fetchRanks k j (r + 1) rest (acc ++ [l])
    | some d => match k.members.find? (·.die == d) with
      | none => .error (.refused s)
      | some m => match s.fetchRuns k m runs with
        | .words l s => s.fetchRanks k j (r + 1) rest (acc ++ [l])
        | e => .error e

/-- One application of the routine to two contributions, the right one's rank being `e`: the left operand's rank is below the right's
unless both orders are allowed and this application took the other (R189, R311). -/
def Coll.combine (k : Coll) (y : Routine) (flip : Nat → Bool) (e a b : Nat) : Nat × Flags :=
  let go (x z : Nat) : Nat × Flags :=
    let v := y.apply k.what.rm (fun _ => 0) [x, 0, z, 0, e, 0, 0, 0]
    (v.1.1, v.2.foldl (fun f n => f ||| n.2) 0)
  if y.comm && flip e then go b a else go a b

/-- Element i of a reduction over the ranks' elements i, by the tree of R56 (R311). -/
def Coll.reduced (k : Coll) (y : Routine) (flips : Nat) (l : List (List Half32)) (i : Nat) : Half32 × Flags :=
  let v := treeFold (k.combine y fun e => flips.testBit (i * k.ranks.length + e)) 12 1 (l.map fun x => (x[i]?).map (·.toNat))
  (BitVec.ofNat 32 (v.1.getD 0), v.2.foldl (fun f e => f ||| e.2) 0)

/-- The final words of a chunk at a rank, with the flags their combination raises (R311). -/
def Coll.result (k : Coll) (rank j : Nat) (l : List (List Half32)) : List Half32 × Flags :=
  let n := (k.chunk j).2
  let red (base : Nat) : List Half32 × Flags := match k.what.routine with
    | none => ([], 0)
    | some y =>
      let es := (List.range n).map fun i => k.reduced y (tget k.flips j 0) l (base + i)
      (es.map (·.1), es.foldl (fun f e => f ||| e.2) 0)
  match k.what.op with
  | 0 => red 0
  | 1 => if rank = 0 then red 0 else ([], 0)
  | 2 => (l.headD [], 0)
  | 3 => (l.flatten, 0)
  | _ => red (rank * n)

/-- A collective replaced. -/
def State.setColl (s : State) (k : Coll) : State := { s with colls := s.colls.map fun x => if x.id = k.id then k else x }

/-- The core at whose router a die's collective engine stands (R259). -/
def collCore (die : Nat) : Nat := 160 * die + Config.collRouter die % 160

/-- A record of the collective engine of a die (R353): how a chunk ended. -/
def State.emitColl (s : State) (die : Nat) (k : Coll) (j how : Nat) : State :=
  s.emitFrom (2000 + die) (collCore die) 31 10 0 [BitVec.ofNat 64 (k.group + k.seq * 4096), BitVec.ofNat 64 j, BitVec.ofNat 64 how]

/-- The abort of a collective with a cause (R314); the first cause stands. -/
def Coll.abort (k : Coll) (cause : Nat) : Coll := if k.cause.isSome then k else { k with cause := some cause }

/-- The bitmap byte of a chunk: its offset from the status address, and the bit (R312). -/
def bitmapBit (j : Nat) : Nat × Byte := (8 + j / 8, (1 : Byte) <<< (j % 8))

/-- A member writes the final words of a chunk, and its bit of the bitmap with release at `.pkg` (R312). -/
def State.writeChunk (s : State) (k : Coll) (m : CollMember) (rank j : Nat) (l : List (List Half32)) : State :=
  let asid := s.asid k.job
  let (p, s) := s.hand m.die
  let (ws, f) := k.result rank j l
  let dst := (m.dst + 4 * (k.chunk j).1) % 2 ^ 56
  let st := m.status.toNat % 2 ^ 56
  let bit := bitmapBit j
  let refuse := ((s.notePages asid dst (4 * ws.length)).setColl (k.abort 5))
  match s.engineCheck m.die asid dst (4 * ws.length) true, s.engineCheck m.die asid (st + bit.1) 1 true with
  | .absent a v t, _ => s.askPage a v t
  | _, .absent a v t => s.askPage a v t
  | .busy, _ => s.withdrawFrom (.glob (spaceOf asid dst) dst) (4 * ws.length)
  | _, .busy => s.withdrawFrom (.glob (spaceOf asid (st + bit.1)) (st + bit.1)) 1
  | .refused, _ => refuse
  | _, .refused => refuse
  | .fine, .fine =>
    let s1 := s.partyWrite p none asid dst (ws.flatMap fun w => natBytes w.toNat 4)
    let at_ := (st + bit.1) % 2 ^ 56
    let s2 := s1.hwWrite p [] (s1.releaseOf p) (.glob (spaceOf asid at_) at_) [bit.2] [bit.2]
    let m' := { m with bitmap := m.bitmap ++ [j], flags := m.flags ||| f }
    ((s2.setColl { k with
        members := k.members.map fun x => if x.die = m.die then m' else x
        since := tput k.since j s.cycle }).emitColl m.die k j 0).wakeWatchers

/-- A chunk in progress: the collective runs, the chunk has started and is not yet acknowledged (R312, R313). -/
def Coll.chunkOpen (k : Coll) (j : Nat) : Bool := k.running && (tfind k.since j).isSome && !k.acked.contains j

/-- The chunks in progress. -/
def Coll.openChunks (k : Coll) : List Nat := (k.since.map (·.1)).filter fun j => !k.acked.contains j

/-- The operand orders of a chunk's applications are anyone's where the routine is commutative (R311). -/
def State.drawFlips (s : State) (k : Coll) (j : Nat) (l : List (List Half32)) : Coll × State :=
  if k.what.routine.any (·.comm) then
    let (f, s) := s.choose (2 ^ (k.ranks.length * (l.headD []).length))
    ({ k with flips := tput k.flips j f }, s)
  else (k, s)

/-- Chunks fail: they are redone on the alternate tree, once per collective; a later failure aborts with CAUSE 2 (R313). -/
def State.failChunks (s : State) (k : Coll) (js : List Nat) : State :=
  let how := if k.alternate then 2 else 1
  let (k', s) : Coll × State :=
    if k.alternate then (k.abort 2, s)
    else
      let k := { k with
        alternate := true, retries := k.retries + js.length, since := js.foldl (fun t j => tput t j s.cycle) k.since }
      js.foldl (fun (e : Coll × State) j => match e.1.keep.find? (·.1 == j) with
        | some c => e.2.drawFlips e.1 j c.2.1
        | none => e) (k, s)
  js.foldl (fun s j => k.members.foldl (fun s m => s.emitColl m.die k j how) s) (s.setColl k')

/-- A link of the current tree is gone (R313, R348). -/
def State.treeDown (s : State) (k : Coll) : Bool :=
  (if k.alternate then k.links.2 else k.links.1).any fun n => decide (n < 16) && !s.links.getLsbD n

/-- A running collective starts the chunks its staging has room for, in their order; those whose tree has lost a link fail (R312,
R313, DEDUCED, log 95). -/
def State.startChunks (s : State) (id : Nat) : State :=
  let fails (s : State) : State := match s.colls.find? (·.id == id) with
    | some k => if k.running && k.openChunks != [] && s.treeDown k then s.failChunks k k.openChunks else s
    | none => s
  match s.colls.find? (·.id == id) with
  | some k =>
    if k.running then
      let js := ((List.range (k.what.chunks k.ranks.length)).filter fun j => !k.acked.contains j).take k.rg
      fails (fails (s.setColl { k with
        since := js.foldl (fun t j => if (tfind t j).isSome then t else tput t j s.cycle) k.since }))
    else s
  | none => s

/-- The collectives that may begin do, and those that run start what they can (R317). -/
def State.runColls (s : State) : State :=
  (s.colls.map (·.id)).foldl (fun s id =>
    let s := match s.colls.find? (·.id == id) with
      | some k => if !k.on && s.mayBegin k then s.setColl { k with on := true } else s
      | none => s
    s.startChunks id) s

/-- RESERVATION_GRANT (R316): an engine grants the first of its waiting requests, whole, once it fits. -/
def execReservationGrant (die : Nat) (s : State) : Host.Outcome State Fault Refusal :=
  let g := s.globalDie die
  .next (match s.firstWaiting g with
    | none => s
    | some k =>
      if s.stagingUsed g + stagingNeed k.rg k.what.cl ≤ stagingSize then
        ({ s with nextId := s.nextId + 1 }.setColl { k with grants := tput k.grants g s.nextId }).runColls
      else s)

/-- CHUNK_WRITTEN (R311, R312): the contributions are in staging, read when the chunk starts; a member writes its final values, unless what
staging holds is poisoned (R333, R334). -/
def execChunkWritten (die coll chunk : Nat) (s : State) : Host.Outcome State Fault Refusal :=
  .next (match s.colls.find? (·.id == coll) with
    | none => s
    | some k => match k.members.find? (·.die == die) with
      | none => s
      | some m =>
        let rank := k.ranks.idxOf (s.globalDie die)
        if !k.chunkOpen chunk || m.bitmap.contains chunk || m.ended ||
            !((s.localRanks k).all fun g => k.members.any fun x => s.globalDie x.die == g) then s
        else match k.keep.find? (·.1 == chunk) with
          | some (_, l, bad) => if bad then (s.setColl (k.abort 5)).runColls else (s.writeChunk k m rank chunk l).runColls
          | none => match s.fetchRanks k chunk 0 k.ranks [] with
            | .ok (l, s) =>
              let (k, s) := s.drawFlips { k with keep := k.keep ++ [(chunk, l, false)] } chunk l
              ((s.setColl k).writeChunk k m rank chunk l).runColls
            | .error (.absent a v t) => s.askPage a v t
            | .error (.refused t) => (t.setColl (k.abort 5)).runColls
            | .error (.words _ t) => t)

/-- FINAL_ACK (R312, R316): every member has written the chunk, and its kept contributions are dropped; the last one releases the
reservations. -/
def execFinalAck (coll chunk : Nat) (s : State) : Host.Outcome State Fault Refusal :=
  .next (match s.colls.find? (·.id == coll) with
    | none => s
    | some k =>
      if k.chunkOpen chunk && k.keep.any (·.1 == chunk) && k.members.all (·.bitmap.contains chunk) then
        let k := { k with acked := k.acked ++ [chunk], keep := k.keep.filter (·.1 != chunk) }
        (s.setColl (if k.finished then { k with grants := [], on := false } else k)).runColls
      else s)

/-! ### Failures (R313, R314) -/

/-- CHUNK_FAILURE (R313): a transfer of an open chunk is refused, or its path lost a link. -/
def execChunkFailure (coll chunk : Nat) (s : State) : Host.Outcome State Fault Refusal :=
  .next (match s.colls.find? (·.id == coll) with
    | none => s
    | some k => if k.chunkOpen chunk then (s.failChunks k [chunk]).runColls else s)

/-- CHUNK_NO_PROGRESS (R313): a started chunk has made no progress for 2^20 cycles. -/
def execChunkNoProgress (coll chunk : Nat) (s : State) : Host.Outcome State Fault Refusal :=
  .next (match s.colls.find? (·.id == coll) with
    | none => s
    | some k =>
      if k.chunkOpen chunk && decide (tget k.since chunk s.cycle + 2 ^ 20 ≤ s.cycle) then (s.failChunks k [chunk]).runColls else s)

/-- MEMBER_LOST (R314): Tardar reports a member lost. -/
def execMemberLost (coll : Nat) (s : State) : Host.Outcome State Fault Refusal :=
  .next (match s.colls.find? (·.id == coll) with
    | none => s
    | some k => if k.finished then s else (s.setColl (k.abort 3)).runColls)

/-! ### The end at a member (R315) -/

/-- The status doubleword (R315). -/
def Coll.statusWord (k : Coll) (m : CollMember) : Word :=
  BitVec.ofNat 64 (2 ^ 63 + (if k.cause.isSome then 2 ^ 62 else 0) + k.cause.getD 0 % 16 * 2 ^ 58 + m.flags.toNat * 2 ^ 51 +
    min 255 k.retries * 2 ^ 32 + m.bitmap.length % 2 ^ 32)

/-- The wake-up message of a member that ended (R315). -/
def State.wakeSubmitter (s : State) (k : Coll) (m : CollMember) (rel : Option Release) : State :=
  if m.wake = 0 then s
  else s.sendMsg .mailbox m.core (collCore m.die) 0 k.job
    [handlerWord m.wake, m.status, m.warg, 0, 0, 0, 0, 0] rel false

/-- The member has ended; once every member of this package has, an aborted collective's reservations are released, and a collective
of which no request is outstanding, or whose job has ended, is over (R314, R316). -/
def State.closeMember (s : State) (k : Coll) (die : Nat) : State :=
  let k := { k with members := k.members.map fun (x : CollMember) => if x.die = die then { x with ended := true } else x }
  let k := if k.members.all (·.ended) then { k with grants := [], keep := [] } else k
  let done := k.members.all (·.ended) && ((s.cores.all fun e => e.2.job != some k.job) ||
    (s.localRanks k).all fun g => k.members.any fun x => s.globalDie x.die == g)
  let s := s.setColl k
  if done then { s with colls := s.colls.filter (·.id != k.id) } else s

/-- COLLECTIVE_END (R314, R315): after the last FINAL-ACK, or on an abort, a member releases at `.pkg` and writes its status; a wake-up
follows. -/
def execCollectiveEnd (die coll : Nat) (s : State) : Host.Outcome State Fault Refusal :=
  .next (match s.colls.find? (·.id == coll) with
    | none => s
    | some k => match k.members.find? (·.die == die) with
      | none => s
      | some m =>
        if m.ended || !(k.cause.isSome || k.finished) then s
        else
          let asid := s.asid k.job
          let (p, s) := s.hand die
          let st := m.status.toNat % 2 ^ 56
          match s.engineCheck die asid st 8 true with
          | .absent a v t => s.askPage a v t
          | .busy => s.withdrawFrom (.glob (spaceOf asid st) st) 8
          | .refused => (s.closeMember k die).runColls
          | .fine =>
            let s1 := s.partyWrite p (s.releaseOf p) asid st (natBytes (k.statusWord m).toNat 8)
            ((s1.wakeSubmitter k m (s1.releaseOf p)).closeMember k die).runColls.wakeWatchers)

end Sys2Proof.Machine
end

