-- ==== Sys2Proof/Machine/Control.lean ====
section
/-! DEFINITION. Branches, calls, loops and the repeat frame (R59, R76-R78, R88, R89). -/

namespace Sys2Proof.Machine

/-- A taken branch: PC := target (R88). -/
def State.jump (s : State) (target : Nat) : State :=
  s.onMe fun x => { x.leaveBars with pc := BitVec.ofNat 64 (target % 2 ^ 56), skipStop := 0 }

/-- A PC-relative target, in words from the branch, modulo 2^56 (R88, R89). -/
def relTarget {n : Nat} (pc : Word) (off : BitVec n) : Nat := (pc + 4 * sx off).toNat % 2 ^ 56

/-- A conditional branch of one word (R89). -/
def branchIf {n : Nat} (c : Bool) (off : BitVec n) (s : State) : State :=
  if c then s.jump (relTarget s.me.pc off) else s.retire 4

/-- `br` (R89). -/
def execBr (off : BitVec 26) (s : State) : Host.Outcome State Fault Refusal := .next (s.jump (relTarget s.me.pc off))

/-- `jal`: the link is the PC of the next instruction with a zero tag (R88, R89). -/
def execJal (d : Gpr) (off : BitVec 20) (s : State) : Host.Outcome State Fault Refusal :=
  .next ((s.setG d (pcPlus s.me.pc 4)).jump (relTarget s.me.pc off))

/-- `bc.cc` (R72, R89). -/
def execBc (a b : Gpr) (cc : BitVec 4) (off : BitVec 10) (s : State) : Host.Outcome State Fault Refusal :=
  .next (branchIf (ccHolds cc (s.g a) (s.g b)) off s)

/-- `bz` (R89). -/
def execBz (a : Gpr) (off : BitVec 17) (s : State) : Host.Outcome State Fault Refusal := .next (branchIf (s.g a == 0) off s)

/-- `bnz` (R89). -/
def execBnz (a : Gpr) (off : BitVec 17) (s : State) : Host.Outcome State Fault Refusal := .next (branchIf (s.g a != 0) off s)

/-- `loop`: decides on the computed value, not on the register (R89). -/
def execLoop (a : Gpr) (off : BitVec 17) (s : State) : Host.Outcome State Fault Refusal :=
  .next (branchIf (s.g a - 1 != 0) off (s.setG a (s.g a - 1)))

/-- The target `jr` computes (R88, R89). -/
def jrTarget (a : Word) (off : BitVec 17) : Nat := (a + 4 * sx off).toNat % 2 ^ 56

/-- `jr`: a target with bits [1:0] ≠ 0 traps MISALIGN (R59, R89). -/
def execJr (a : Gpr) (off : BitVec 17) (s : State) : Host.Outcome State Fault Refusal :=
  run s do
    need (jrTarget (s.g a) off % 4 == 0) (misalign (BitVec.ofNat 64 (jrTarget (s.g a) off)))
    .ok (s.jump (jrTarget (s.g a) off))

/-- `ret`: PC := A[55:0] (R59, R88, R89). -/
def execRet (a : Gpr) (s : State) : Host.Outcome State Fault Refusal :=
  run s do
    need (va56 (s.g a) % 4 == 0) (misalign (BitVec.ofNat 64 (va56 (s.g a))))
    .ok (s.jump (va56 (s.g a)))

/-! ### The repeat frame (R76-R78) -/

/-- What `rep` finds from an address on: the instructions of the window, or the first exit it meets; and whether a word of it asks
for extension D. The scan ends at the first word that is no window instruction or cannot be fetched: a D word after it is not looked for,
so `rep` traps there without migrating (R76, DESIGN CHOICE, log 91). -/
def State.scanWindow (s : State) : Nat → Nat → List (Instr × Word × Nat) × Option Exit × Bool
  | 0, _ => ([], none, false)
  | n + 1, pc =>
    match s.fetch s.focus pc with
    | .error e => ([], some e, false)
    | .ok (.bad v d) => ([], some (.trap 1 0 v none), d)
    | .ok (.instr i len d) =>
      if inWindow i then
        let (l, e, r) := s.scanWindow n (pc + len)
        ((i, pcPlus s.me.pc (pc - s.me.pc.toNat), len) :: l, e, d || r)
      else ([], some (.trap 1 0 (wordOf i) none), d)

/-- The count of a frame: A[31:0], read once (R76). -/
def repCount (a : Word) : Nat := bits a 0 32

/-- The bytes of a window. -/
def windowBytes (l : List (Instr × Word × Nat)) : Nat := l.foldl (fun n e => n + e.2.2) 0

/-- `rep`: ILLEGAL inside a trap entry (R108); it migrates for a D word, traps on a bad window, else captures it; a count of 0
skips the window (R76, R77). -/
def execRep (a : Gpr) (len : BitVec 4) (sd sa sb : BitVec 2) (s : State) : Host.Outcome State Fault Refusal :=
  run s do
    need (!s.me.nest) (illegal (.rep a len sd sa sb))
    let n := repCount (s.g a)
    let (l, e, d) := s.scanWindow (len.toNat + 1) (s.me.pc.toNat + 4)
    need (!d || hasD s.myCore) .migrate
    match e with
    | some x => .error x
    | none =>
      if n = 0 then .ok (s.retire (4 + windowBytes l))
      else .ok (s.onMe fun x => { x.leaveBars with
        frame := some ⟨l, n, 0, 0, sd.toNat, sa.toNat, sb.toNat⟩, pc := pcPlus x.pc 4, skipStop := 0 })

end Sys2Proof.Machine
end

