-- ==== Sys2Proof/Machine/Fabric.lean ====
section
/-! DEFINITION. The fabric's events: failed links, page moves between packages and pinning, skew measurements, packets from other
packages (R313, R344, R347, R348, R350, R351). -/

namespace Sys2Proof.Machine

/-! ### Links (R313, R348) -/

/-- LINK_FAILURE (R348): the link is removed, Tardar told; the chunks in progress on a tree that crossed it
fail (R313). -/
def execLinkFailure (link : Nat) (s : State) : Host.Outcome State Fault Refusal :=
  .next (if link < 16 ∧ s.links.getLsbD link then
    (({ s with links := s.links &&& ~~~((1 : BitVec 16) <<< link) } : State).notify (.linkFailed link)).runColls
  else s)

/-! ### Page moves (R344, R347) -/

/-- The key of a page's move history. -/
def pageKey (asid va : Nat) : Nat := spaceOf asid va * 2 ^ 56 + pageBase va % 2 ^ 56

/-- The physical address of the leaf of an address, by the walk of R321. -/
def leafFrom (m : Memory) (va : Nat) : List (Nat × Nat) → Nat → Nat
  | [], pa => pa
  | (lo, n) :: r, pa => leafFrom m va r (frameOf (entryAt m pa) + 8 * (va / 2 ^ lo % 2 ^ n))

/-- The physical address of the leaf of an address in an address space. -/
def State.leafAt (s : State) (asid va : Nat) : Nat :=
  leafFrom s.hbm va (pageGroups (pageClass va)) (homeStack va * 2 ^ 36 + 32 * spaceOf asid va + 8 * pageClass va)

/-- The package that holds a page now, where it is one package (R344). -/
def State.homeOf (s : State) (asid va : Nat) : Option Nat :=
  match s.peerOf asid va with
  | none => some s.pkg
  | some p => match p.members with
    | [m] => some m
    | _ => none

/-- Tardar advances MQHEAD past the notifications it has read (R329). -/
def State.mqRead (s : State) (n : Nat) : State := if s.mqHead ≤ n ∧ n ≤ s.mqTail then { s with mqHead := n } else s

/-- Tardar's atomics on an access-counter record: it swaps in zero, or writes PEND := 0 when it has handled a notification (R328, R329). -/
def State.clearRecord (s : State) (frame : Nat) (whole : Bool) : State :=
  let c := s.counterOf frame
  if frame < 12 * 2 ^ 20 then s.putRecord frame (if whole then 0 else recOf (recCount c) (recReq c) 0) else s

/-- The page is pinned (R347): PINNED in its leaf, one notification of TYPE 1 in its reserved entry, PEND held at 0. While that entry is in use, or the
queue's page is away, the request waits. -/
def State.pin (s : State) (asid va : Nat) (pte : Word) : State :=
  let f := frameNo pte
  let c := s.counterOf f
  let pa := s.leafAt asid va
  if 4096 ≤ s.mqUsed then s
  else match s.mqPush (homeStack va) (s.mqRecord asid va (recReq c) (recCount c) 1) with
    | (false, s) => s
    | (true, s) =>
      (({ s with hbm := s.hbm.putBytes pa (natBytes (pte ||| (1 : Word) <<< 61).toNat 8), owed := tdel s.owed f } : State).putRecord f
        (recOf (recCount c) (recReq c) 0)).dropTranslations 0 asid va

/-- Tardar writes an entry of a page table, at a multiple of 8 of a stack's memory (R318, R322); with PINNED cleared in a page's leaf its
move history is cleared (R347). -/
def State.writeEntry (s : State) (pa : Nat) (e : Word) : State :=
  let freed := (entryAt s.hbm pa).getLsbD 61 && !e.getLsbD 61
  if pa % 8 = 0 ∧ pa < 12 * 2 ^ 36 then
    { s with
      hbm := s.hbm.putBytes pa (natBytes e.toNat 8)
      moves := s.moves.filter fun m => !(freed && s.leafAt (m.1 / 2 ^ 56) (m.1 % 2 ^ 56) == pa) }
  else s

/-- The page table of peers at a stack port with one page's entry replaced or gone. -/
def State.setPeer (s : State) (asid va : Nat) (p : Option Peer) : State :=
  let h := homeStack va
  let other (e : Peer) : Bool := !(e.asid == spaceOf asid va && e.cls == pageClass va && e.vpn == va % 2 ^ 56 / 2 ^ pageShift va)
  { s with peers := tput s.peers h (p.toList ++ (tget s.peers h []).filter other) }

/-- Tardar writes a peer page's entry (R344): up to 8 packages and the root switch, in a table of 1,024 entries at each port; no members takes the
entry away. -/
def State.writePeer (s : State) (asid va : Nat) (members : List Nat) (root : Nat) : State :=
  if members = [] then s.setPeer asid va none
  else
    let t := s.setPeer asid va (some ⟨spaceOf asid va, pageClass va, va % 2 ^ 56 / 2 ^ pageShift va, members, root⟩)
    if members.length ≤ 8 ∧ members.Nodup ∧ members.all (· < 1024) ∧ (tget t.peers (homeStack va) []).length ≤ 1024 then t else s

/-- The bytes of a page go from the package that holds it to another; every cached line of it is gone first (R325, R344). -/
def State.movePage (s : State) (asid va src dest : Nat) (pte : Word) : State :=
  let n := 2 ^ pageShift va
  let base := pageBase va % 2 ^ 56
  let s := if src = s.pkg then (s.linesIn asid base n).foldl (fun s k => s.dropLine (keyAsid k) (keyVa k)) s
    else { s with l2 := s.l2.filter fun e => !keyIn asid base n e.1 }
  let from_ (s : State) : Memory × Nat := if src = s.pkg then (s.hbm, frameOf pte) else (tget s.peerMem src Memory.empty, peerKey asid base)
  let (m, at_) := from_ s
  let s : State := if dest = s.pkg then { s with hbm := s.hbm.graft (frameOf pte) n m at_ }
    else { s with peerMem := tput s.peerMem dest ((tget s.peerMem dest Memory.empty).graft (peerKey asid base) n m at_) }
  let e : Peer := ⟨spaceOf asid va, pageClass va, base / 2 ^ pageShift va, [dest], ((s.peerOf asid va).map (·.root)).getD 0⟩
  (s.setPeer asid va (if dest = s.pkg then none else some e)).dropTranslations 0 asid va

/-- DIECLK of a page's home die in a package less this one's of the same die, by its skew entry for that die, number 4 * package + die; 0 before
a measurement (R347, R350). -/
def State.clockOff (s : State) (pkg die : Nat) : Word :=
  let e := tget (s.die die).skew (4 * pkg + die) 0
  if pkg = s.pkg ∨ !e.getLsbD 0 then 0 else (e.extractLsb' 32 32).signExtend 64

/-- MOVE_REQUEST (R347): refused as stale, or where the page is pinned; the fourth move within 1 ms pins it; else the page moves and
its stamp is kept. The request's stamp and those held are in the time base of the page's home; a move takes them to the next one's. -/
def execMoveRequest (asid va dest : Nat) (made : Word) (s : State) : Host.Outcome State Fault Refusal :=
  let w := s.walk asid va
  let key := pageKey asid va
  let l := tget s.moves key []
  let d := homeStack va / 3
  .next (match (if w.kind = 2 then s.homeOf asid va else none) with
    | none => s
    | some src =>
      let now := (s.die d).dieclk + s.clockOff src d
      if (l.getLast?).any fun t => made.ult t then s
      else if w.pte.getLsbD 61 || src == dest then s
      else if l.length = 3 ∧ (now - l.headD 0).toNat < 1000000 then s.pin asid va w.pte
      else
        let t := s.movePage asid va src dest w.pte
        { t with moves := tput t.moves key (((l ++ [now]).drop (l.length + 1 - 3)).map (· + (s.clockOff dest d - s.clockOff src d))) })

/-! ### Time lines (R350, R351) -/

/-- Half of a difference of stamps; of an odd one, either neighbour (R350). -/
def State.half (s : State) (v : Int) : Int × State :=
  if v % 2 = 0 then (v / 2, s)
  else
    let (c, s) := s.choose 2
    (v / 2 + (c : Int), s)

/-- A skew entry (R350): OFFSET signed, ERR natural and saturating, VALID. -/
def skewEntry (offset err : Int) : Word :=
  BitVec.ofNat 64 (ofS 32 offset * 2 ^ 32 + (min 65535 err.toNat) * 2 ^ 16 + 1)

/-- SKEW_MEASUREMENT (R350): a die measures its offset to a neighbour from four stamps. -/
def execSkewMeasurement (die nbr : Nat) (t1 t2 t3 t4 : Word) (s : State) : Host.Outcome State Fault Refusal :=
  let a : Int := (t2 - t1).toInt
  let b : Int := (t3 - t4).toInt
  let (o, s) := s.half (a + b)
  let (e, s) := s.half ((t4 - t1).toInt - (t3 - t2).toInt)
  .next (s.modDie die fun d => { d with skew := tput d.skew nbr (skewEntry o e) })

/-- LAMPORT_DELIVERY (R351): a stamped packet from another package is delivered. -/
def execLamportDelivery (die : Nat) (carried : BitVec 32) (s : State) : Host.Outcome State Fault Refusal :=
  .next (s.lamportRecv die carried)

end Sys2Proof.Machine
end

