-- ==== Sys2Proof/Machine/Moves.lean ====
section
/-! DEFINITION. Migration between the cores of a quad, and how the ports of a context that moved or was saved go on (R24, R247, R254,
R258, R302). -/

namespace Sys2Proof.Machine

/-! ### Ports of a context in its new slot (R254) -/

/-- A handle that names a binding at its Transom. -/
def PortRef.bound (r : PortRef) : Bool := r.dlv.isNone

/-- The rebinding messages of a context's bound ports, from the core it stands on now. -/
def State.rebindPorts (s : State) (t : Nat) : State :=
  (s.task t).p.toList.foldl (fun s p => match p with
    | some r => if r.bound then s.toTransom (coreOf t) (nameQuad r.name) (s.task t).phase (.rebind (s.task t).tid r.name) else s
    | none => s) s

/-! ### Migration (R75, R258) -/

/-- The next instruction of a context, one that would issue now, asks for extension D on a core without it (R74, R75). -/
def State.wantsMove (s : State) (t : Nat) : Bool :=
  (s.task t).issues && s.instrNext t && (s.task t).frame.isNone && !hasD (coreOf t) && (match s.fetch t (s.task t).pc.toNat with
    | .ok (.instr _ _ d) => d
    | .ok (.bad _ d) => d
    | .error _ => false)

/-- MIGRATION (R258, steps 1 and 2). -/
def execMigration (t : Nat) (s : State) : Host.Outcome State Fault Refusal :=
  .next (if s.wantsMove t then s.startMigration t (quadCore (quadOf (coreOf t)) 0) true else s)

/-- Work that the core takes before a moving task: a waiting trigger of a lower class number, a moving task of a lower class number or
one of the same class that came earlier and fits (R22, R258). -/
def State.moveWaits (s : State) (t : Nat) (m : Moving) (cls : Nat) : Bool :=
  ((s.weighAll m.dest (s.sources m.dest)).2.any fun e => decide (e.1.cls < cls)) ||
  s.tasks.any fun e => match e.2.moving with
    | some n => e.1 != t && n.dest == m.dest && n.slot.isNone && (decide (e.2.cls.toNat < cls) ||
        (e.2.cls.toNat == cls && decide (n.order < m.order) && s.fits n.dest e.2.leaseCls e.2.shadowKiB 1))
    | none => false

/-- The slot that a core holds for a task on its way: Ready, with its lease and its Shadow space, without an identity. -/
def Task.placeholder (x : Task) (base : Nat) : Task :=
  { Task.empty with life := .ready, leaseBase := base, leaseCls := x.leaseCls, shadowKiB := x.shadowKiB, cls := x.cls, job := x.job }

/-- MIGRATION_ADMIT (R258, step 3): once every withdrawal is answered, the core admits the task when it meets R22 for it. -/
def execMigrationAdmit (t slot base : Nat) (s : State) : Host.Outcome State Fault Refusal :=
  let x := s.task t
  .next (match x.moving with
    | some m =>
      let d := 16 * m.dest + slot
      if m.slot.isNone && decide (slot < 16) && x.settledPorts && s.placeFree d base x.leaseCls x.shadowKiB &&
          !s.moveWaits t m x.cls.toNat then
        (s.setTask d (x.placeholder (if leaseSize x.leaseCls = 0 then 0 else base))).modTask t fun x =>
          { x with moving := some { m with slot := some d } }
      else s
    | none => s)

/-- A context in its new slot: its lease lies where the new core placed it (R16). -/
def Task.arriveIn (x : Task) (base : Nat) : Task := { x with leaseBase := base, moving := none }

/-- MIGRATION_CONTEXT_LOADED (R258, steps 4 and 5): the context moves, the source slot is Free, the ports are rebound and withdrawn
offers made again; the engine's state does not travel (R185). -/
def execMigrationContextLoaded (t : Nat) (s : State) : Host.Outcome State Fault Refusal :=
  .next (match (s.task t).moving.bind (·.slot) with
    | some d =>
      let s := s.saveStream t
      let x := s.task t
      (((s.setTask d (x.arriveIn (s.task d).leaseBase)).setTask t Task.empty).rebindPorts d).refillStream d
    | none => s)

end Sys2Proof.Machine
end

