-- ==== Sys2Proof/Machine/Messages.lean ====
section
/-! DEFINITION. The events of messages, global queues and thefts (R133, R263, R288, R293, R294, R296, R298, R299, R351, R388). -/

namespace Sys2Proof.Machine

/-! ### Refusals (R133, R298, R299, R388) -/

/-- NEGATIVE_ACKNOWLEDGEMENT (R299): the sender's NACK count goes up by 1. -/
def execNegativeAcknowledgement (m : Nat) (s : State) : Host.Outcome State Fault Refusal :=
  .next (match s.msgs.find? (·.id == m) with
    | none => s
    | some e => match e.kind with
      | .nack tid => if s.msgReady e then (s.deliverMsg e).modByTid tid fun x => { x with nacks := x.nacks + 1 } else s
      | _ => s)

/-! ### Mailboxes (R298, R299) -/

/-- A packet of a message arrives that is not its last (R260). -/
def State.packetArrives (s : State) (e : Msg) : State :=
  { s with msgs := s.msgs.map fun x => if x.id = e.id then { x with left := x.left - 1 } else x }

/-- A trigger accepted at a core's mailbox. -/
def State.toMailbox (s : State) (core : Nat) (g : Trigger) : State :=
  let (g, s) := s.accept (dieOf core) g
  (s.modCore core fun c => { c with mailbox := c.mailbox ++ [g] }).pulse core 18

/-- A message that arrives at a mailbox (R298, R299, R388): refused outside the sender's core set, and as the 65th parked trigger. -/
def State.mailArrives (s : State) (e : Msg) : State :=
  let g : Trigger := { Trigger.of e.dwords .message e.job with rel := e.rel }
  if (s.core e.core).job ≠ some e.job then s.refuse e
  else match s.named e.core g with
    | .unbound n =>
      if s.parkedAt e.core < 64 then (s.deliverMsg e).toMailbox e.core { g with parked := some n } else s.refuse e
    | _ => (s.deliverMsg e).toMailbox e.core g

/-- MAILBOX_MESSAGE (R299). -/
def execMailboxMessage (m : Nat) (s : State) : Host.Outcome State Fault Refusal :=
  .next (match s.msgs.find? fun x => x.id == m && x.kind == .mailbox with
    | none => s
    | some e => if s.msgReady e then s.mailArrives e else s)

/-! ### Message rings (R133) -/

/-- A message that arrives at a ring (R133): placed at once where it fits, refused at once where it can never fit, else held in the network
while RINGWAIT gives it time. -/
def State.ringArrives (s : State) (e : Msg) (h : RingRef) (r : Ring) : State :=
  let m := e.dwords.length / 8
  match r.room m with
  | some (pad, at_) => s.placeMessage e h r pad at_
  | none =>
    if r.cap < m ∨ (s.core h.core).ringwait = 0 then s.ringRefuses e h
    else ({ s with msgs := s.msgs.map fun x => if x.id = e.id then { x with landed := true } else x } : State).modRing h fun r =>
      r.map fun r => { r with held := r.held ++ [(e.id, s.cycle)] }

/-- MESSAGE_RING_ARRIVAL (R133, R299): an entry that holds no message ring refuses, a message it held before that too; one that its ring holds
is tested at the HEAD changes. -/
def execMessageRingArrival (m : Nat) (s : State) : Host.Outcome State Fault Refusal :=
  .next (match s.msgs.find? (·.id == m) with
    | none => s
    | some e => match e.kind with
      | .ring n =>
        if !(e.landed || s.msgReady e) then s
        else if 1 < e.left then s.packetArrives e
        else match s.ringFor e n with
          | some r => if !e.landed then s.ringArrives e ⟨e.core, n⟩ r else if r.held.any (·.1 == m) then s else s.refuse e
          | none => s.refuse e
      | _ => s)

/-- RING_WAIT_EXPIRY (R133): a message still held when RINGWAIT.WAIT cycles have passed since its arrival is refused; those behind it are
tested. -/
def execRingWaitExpiry (m : Nat) (s : State) : Host.Outcome State Fault Refusal :=
  .next (match s.msgs.find? (·.id == m) with
    | none => s
    | some e => match e.kind with
      | .ring n => match (s.ringFor e n).bind fun r => r.held.find? (·.1 == m) with
        | some (_, since) =>
          if since + (s.core e.core).ringwait.toNat ≤ s.cycle then (s.ringRefuses e ⟨e.core, n⟩).retestRing ⟨e.core, n⟩ else s
        | none => s
      | _ => s)

/-! ### Global task queues (R296) -/

/-- GLOBAL_QUEUE_RECORD (R296): the record joins its job's queue at its home slice; the spill area keeps the same order (DESIGN CHOICE, log 13). -/
def execGlobalQueueRecord (m : Nat) (s : State) : Host.Outcome State Fault Refusal :=
  .next (match s.msgs.find? (·.id == m) with
    | none => s
    | some e => match e.kind with
      | .queue n =>
        if s.msgReady e then
          let (g, s) := (s.deliverMsg e).accept (n / 96) { Trigger.of e.dwords .queue e.job with rel := e.rel }
          { s with queues := tput s.queues (queueKey n e.job) (tget s.queues (queueKey n e.job) [] ++ [g]) }
        else s
      | _ => s)

/-! ### Thefts (R288, R293, R294) -/

/-- The cores a core steals from, in the order of its walk (R294): the others of its core set on its die, in ascending logical
number, from the one after itself. -/
def State.victims (s : State) (core : Nat) : List Nat :=
  match (s.core core).job with
  | none => []
  | some j =>
    let all := ((s.job j).desc.lcn.filter fun e => dieOf e.1 == dieOf core && (s.core e.1).job == some j).mergeSort fun a b =>
      decide (a.2.toNat ≤ b.2.toNat)
    let me := (s.lcnOf j core).toNat
    ((all.filter fun e => decide (me < e.2.toNat)) ++ all.filter fun e => decide (e.2.toNat < me)).map (·.1)

/-- A core is idle: it has a Free slot and nothing in sources 2 to 4 (R294). -/
def State.idle (s : State) (core : Nat) : Bool := (s.core core).job.isSome && !(s.freeSlots core).isEmpty && (s.sources core).isEmpty

/-- The next attempt's time has come: 32 cycles after the start of the one before (R294). -/
def State.stealTime (s : State) (core : Nat) : Bool := (s.core core).stealAt.all fun c => decide (c + 32 ≤ s.cycle)

/-- STEAL_ATTEMPT (R294): the next victim of the walk; after a round that failed against every victim, the queue of one other slice
(R288). At most one attempt is outstanding. -/
def execStealAttempt (core : Nat) (s : State) : Host.Outcome State Fault Refusal :=
  let c := s.core core
  let vs := s.victims core
  .next (if core < 640 ∧ s.idle core ∧ c.steal.isNone then
    if vs.length ≤ c.stealFails then
      s.modCore core fun k => { k with
        steal := some ⟨true, k.nextSlice % 384, 0, 0, none, none, s.cycle⟩, nextSlice := (k.nextSlice + 1) % 384 }
    else if !s.stealTime core then s
    else
      s.modCore core fun k => { k with
        steal := some ⟨false, (vs[k.victim % vs.length]?).getD 0, 0, 0, none, none, s.cycle⟩,
        victim := (k.victim + 1) % vs.length, stealAttempts := k.stealAttempts + 1, stealAt := some s.cycle }
  else s)

/-- An attempt after one more access. -/
def State.setSteal (s : State) (core : Nat) (a : Steal) : State := s.modCore core fun k => { k with steal := some a }

/-- One access of a theft at the victim's bank (R293): HEAD and TAIL, then the record, then the compare-and-swap of HEAD. -/
def State.stealAccess (s : State) (core : Nat) (a : Steal) : State :=
  let v := s.core a.victim
  match a.stage with
  | 0 =>
    if (v.dequeTail - v.dequeHead).toInt ≤ 0 then s.setSteal core { a with stage := 3, result := some 1 }
    else s.setSteal core { a with stage := 1, head := v.dequeHead }
  | 1 => s.setSteal core { a with stage := 2, record := some (v.recordTrigger a.head) }
  | 2 =>
    if v.dequeHead = a.head then
      (s.modCore a.victim fun k => k.putHeader 0 (a.head + 1)).setSteal core { a with stage := 3, result := some 0 }
    else s.setSteal core { a with stage := 3, result := some 2 }
  | _ => s

/-- A record that leaves a queue of another die is delivered to the taker's die (R351). -/
def State.stampTaken (s : State) (core slice : Nat) : State :=
  if slice / 96 = dieOf core then s else s.lamportRecv (dieOf core) (s.die (slice / 96)).lamport

/-- The visit to a slice's queue takes the first of its records from the head that the core can dispatch (R22, R288, R296). -/
def State.sliceAccess (s : State) (core job : Nat) (a : Steal) : State :=
  if a.stage = 3 then s
  else
    let (u, l) := s.weighAll core (s.queuesOf job [a.victim])
    match u.pickTrigger core l with
    | none => u.setSteal core { a with stage := 3, result := some 1 }
    | some (w, pl) => ((u.take core w.trig pl).stampTaken core a.victim).setSteal core { a with stage := 3, record := some w.trig, result := some 0 }

/-- STEAL_OPERATION (R273, R293): one access is performed at the bank, or at the slice. -/
def execStealOperation (core : Nat) (s : State) : Host.Outcome State Fault Refusal :=
  .next (match (s.core core).steal, (s.core core).job with
    | some a, some j => if a.slice then s.sliceAccess core j a else s.stealAccess core a
    | _, _ => s)

/-- A stolen record goes to the tail of the thief's deque. -/
def State.keepStolen (s : State) (core : Nat) (g : Trigger) : Option State :=
  ((s.core core).push g).map fun c => s.modCore core fun _ => c

/-- A stolen record is dispatched at once under R22 where it fits, in the slot and with the base given, which must serve; else it is kept
at the tail of the own deque. Its entry may be unbound, its header's page absent. -/
def State.placeStolen (s : State) (core t base : Nat) (g : Trigger) : Option State :=
  match s.weigh core g with
  | .park e => some (s.parkTaken core g e)
  | .absent a v => (s.keepStolen core g).map fun s => s.askPage a v 2
  | .go w =>
    let (u, l) := s.weighAll core (s.sources core)
    if (u.pickTrigger core (l ++ [(w, .deque 0)])).any (·.1.trig.tid == g.tid) then
      if coreOf t == core && u.placeFree t base w.lease w.shadow then some ((u.noteHeader w).startTask t base w) else none
    else s.keepStolen core g

/-- The end of an attempt (R294, R300, R353): the counters, the walk, and the record of the attempt. -/
def State.endSteal (s : State) (core : Nat) (a : Steal) (n : Nat) : State :=
  let s := s.modCore core fun k => { k with
    steal := none,
    stealFails := if a.slice || n = 0 then 0 else k.stealFails + 1,
    stealFailed := if a.slice || n = 0 then k.stealFailed else k.stealFailed + 1 }
  if a.slice then s else s.emit core 31 9 0 [BitVec.ofNat 64 (coordOf a.victim), BitVec.ofNat 64 n]

/-- STEAL_REPLY (R294): a record is dispatched or kept, a failure counted. -/
def execStealReply (core slot base : Nat) (s : State) : Host.Outcome State Fault Refusal :=
  .next (match (s.core core).steal with
    | none => s
    | some a => match a.result, a.record with
      | some 0, some g => match s.placeStolen core (16 * core + slot % 16) base g with
        | some s => s.endSteal core a 0
        | none => s
      | some n, _ => s.endSteal core a n
      | none, _ => s)

/-- A core searches: it has a Free slot, and is in source 5 or 6 (R288, R300). -/
def State.searching (s : State) (core : Nat) (c : Core) : Bool :=
  c.job.isSome && !(s.freeSlots core).isEmpty && (c.steal.isSome || s.idle core)

/-- The cycles that pass are search cycles of the cores that search (R300 item 11). -/
def State.searched (s t : State) : State :=
  if t.cycle = s.cycle then t
  else { t with cores := t.cores.map fun e =>
    if s.searching e.1 (s.core e.1) then (e.1, { e.2 with searchCycles := e.2.searchCycles + BitVec.ofNat 64 (t.cycle - s.cycle) }) else e }

end Sys2Proof.Machine
end

