-- ==== Sys2Proof/Machine/PortEvents.lean ====
section
/-! DEFINITION. The Transom: offers, decisions, withdrawals, bindings, and what comes back to a core (R234, R239-R244, R247, R249,
R251, R253, R254, R351, R353). -/

namespace Sys2Proof.Machine

/-! ### Messages in order (R240) -/

/-- The first message of a core at a Transom. -/
def State.firstToT (s : State) (quad core : Nat) : Option PMsg := ((s.quad quad).toT.find? (·.1 == core)).map (·.2.2)

/-- The first message of a Transom for a core. -/
def State.firstFromT (s : State) (quad core : Nat) : Option PMsg := ((s.quad quad).fromT.find? (·.1 == core)).map (·.2)

/-- A list without its first entry of a core. -/
def dropFirst {α : Type} (core : Nat) : List (Nat × α) → List (Nat × α)
  | [] => []
  | e :: r => if e.1 = core then r else e :: dropFirst core r

/-- The first message of a core taken by its Transom. -/
def State.takeToT (s : State) (quad core : Nat) : State := s.modQuad quad fun q => { q with toT := dropFirst core q.toT }

/-- The first message for a core taken by it. -/
def State.takeFromT (s : State) (quad core : Nat) : State := s.modQuad quad fun q => { q with fromT := dropFirst core q.fromT }

/-! ### Offers, credits and withdrawals at the Transom (R239, R244, R254) -/

/-- The port is bound to a task. -/
def PEntry.boundTo (e : PEntry) (tid : Word) : Bool :=
  match e.bind with
  | .task u _ => u == tid
  | _ => false

/-- A port idle again. -/
def PEntry.idle (e : PEntry) : PEntry := { e with offer := none, alt := none }

/-- OFFER_ARRIVAL (R240, R244): an offer enters its port entry, or a credit comes back. -/
def execOfferArrival (quad core : Nat) (s : State) : Host.Outcome State Fault Refusal :=
  .next (match s.firstToT quad core with
    | some (.offer tid name data alt snap) => (s.takeToT quad core).modPort name fun e =>
        if e.boundTo tid then { e with offer := some (data, snap), alt := alt } else e
    | some (.credit name) => (s.takeToT quad core).modPort name fun e =>
        match e.bind with
        | .handler _ _ => { e with credits := min 4 (e.credits + 1) }
        | _ => e
    | _ => s)

/-- WITHDRAW (R254): WITHDRAWN where the port has not fired, FIRED where it has. -/
def execWithdraw (quad core : Nat) (s : State) : Host.Outcome State Fault Refusal :=
  .next (match s.firstToT quad core with
    | some (.withdraw tid name) =>
      let s := s.takeToT quad core
      if (s.portAt name).any fun e => e.boundTo tid && e.offer.isSome then
        (s.modPort name PEntry.idle).fromTransom quad core (.withdrawn tid name)
      else s.fromTransom quad core (.fired tid name)
    | _ => s)

/-- The reply to a binding request, and the port's new binding (R249). -/
def State.bindPort (s : State) (core : Nat) (tid name : Word) : Nat × Option PEntry :=
  match s.portAt name with
  | none => (1, none)
  | some e =>
    let outside := outOfScope (s.nameScope name) core (nameQuad name)
    match e.bind with
    | .handler _ _ => (2, none)
    | .task u _ => if u = tid then (0, some { e with bind := .task tid core }) else (2, none)
    | .none => if outside then (3, none) else (0, some { e.idle with bind := .task tid core })

/-- The reply to an unload (R251). -/
def State.unloadPort (s : State) (name : Word) : Nat × State :=
  match s.casAt name with
  | none => (1, s)
  | some c =>
    if c.ports.any fun e => e.bind != .none then (2, s)
    else (0, s.modQuad (nameQuad name) fun q => { q with cas := vput q.cas (nameSlot name) none })

/-- BINDING_REQUEST (R249, R251, R254): a port is bound, freed or rebound, or a casement unloaded. -/
def execBindingRequest (quad core : Nat) (s : State) : Host.Outcome State Fault Refusal :=
  .next (match s.firstToT quad core with
    | some (.bind tid name) =>
      let s := s.takeToT quad core
      match s.bindPort core tid name with
      | (n, some e) => (s.modPort name fun _ => e).fromTransom quad core (.bound tid name n e.sink e.dsz)
      | (n, none) => s.fromTransom quad core (.bound tid name n false 0)
    | some (.unload tid name) =>
      let (n, s) := (s.takeToT quad core).unloadPort name
      s.fromTransom quad core (.unloaded tid n)
    | some (.free tid name) => (s.takeToT quad core).modPort name fun e =>
        if e.boundTo tid then { e.idle with bind := .none } else e
    | some (.rebind tid name) => (s.takeToT quad core).modPort name fun e =>
        if e.boundTo tid then { e with bind := .task tid core } else e
    | _ => s)

/-! ### The decision of a casement (R234, R241, R242) -/

/-- Whether a predicate holds on a datum's first word (R234, R238). -/
def CFilter.holds (f : CFilter) (data : List Byte) : Bool :=
  let d : BitVec 32 := BitVec.ofNat 32 (leNat (data.take 4))
  let nan (v : BitVec 32) : Bool := v.extractLsb' 23 8 == 255 && v.extractLsb' 0 23 != 0
  let key (v : BitVec 32) : Int := if v.getLsbD 31 then -((v.extractLsb' 0 31).toNat : Int) else (v.toNat : Int)
  let a : Int := match f.ty with | 0 => d.toInt | 1 => (d.toNat : Int) | _ => key d
  let b : Int := match f.ty with | 0 => f.k.toInt | 1 => (f.k.toNat : Int) | _ => key f.k
  let open_ := f.ty == 2 && (nan d || nan f.k)
  match f.op with
  | 0 => !open_ && a == b
  | 1 => open_ || a != b
  | 2 => !open_ && decide (a < b)
  | 3 => !open_ && decide (b ≤ a)
  | 4 => d &&& f.k == f.k
  | 5 => d &&& f.k != 0
  | _ => d &&& f.k == 0

/-- The datum of an origin: a source's offer, or the head of a fifo (R242 step 1). -/
def Casement.origin (c : Casement) (o : Nat) : Datum :=
  if o < 32 then (c.ports[o]?).elim ⟨[], false⟩ fun e => (e.offer.map (·.1)).getD ⟨[], false⟩
  else (c.fifos[o - 32]?).elim ⟨[], false⟩ fun f => (f.data.head?).elim ⟨[], false⟩ (·.1)

/-- A port counts as offered (R239, R244). -/
def PEntry.offered (e : PEntry) : Bool :=
  match e.bind with
  | .none => false
  | .task _ _ => e.offer.isSome
  | .handler _ _ => decide (0 < e.credits)

/-- The ports of a mask, by index. -/
def Casement.portsOf (c : Casement) (mask : BitVec 32) : List (PEntry × Nat) := c.ports.zipIdx.filter fun e => mask.getLsbD e.2

/-- A transition is enabled (R241). -/
def Casement.enabled (c : Casement) (t : CTrans) : Bool :=
  let ps := c.portsOf t.mask
  (ps.all fun e => e.1.offered) &&
  (ps.all fun e => ps.all fun f => e.2 == f.2 || e.1.alt.isNone || e.1.alt != f.1.alt) &&
  t.guards.all fun g => match c.filters[g.2.1]? with
    | some f => f.holds (c.origin g.2.2).bytes == g.1
    | none => false

/-- The transition a decision fires, with its index, from the pointer on (R241). -/
def Casement.nextStep (c : Casement) : Option (CTrans × Nat × Nat) :=
  let (first, m) := (c.states[c.state]?).getD (0, 0)
  let ptr := (c.ptrs[c.state]?).getD 0
  (List.range m).findSome? fun i =>
    let j := (ptr + i) % m
    (c.trans[first + j]?).bind fun t => if c.enabled t then some (t, first + j, (j + 1) % m) else none

/-- The releases of a step: those of every offer in it and of every fifo datum it takes (R253). -/
def Casement.stepSnap (c : Casement) (t : CTrans) : List Nat :=
  let offers := (c.portsOf t.mask).foldl (fun acc e => (e.1.offer).elim acc fun o => union o.2 acc) []
  c.fifos.zipIdx.foldl (fun acc (f, i) =>
    if t.deq.getLsbD i then (f.data.head?).elim acc fun d => union d.2 acc else acc) offers

/-- The datum routed to a destination. -/
def Casement.routed (c : Casement) (t : CTrans) (k : Nat) : Datum :=
  ((t.routes.find? (·.1 == k)).map fun r => c.origin r.2).getD ⟨[], false⟩

/-- A casement after a transition (R242, steps 2 and 3). -/
def Casement.fired (c : Casement) (t : CTrans) (ptr : Nat) : Casement :=
  let snap := c.stepSnap t
  let marks := (c.portsOf t.mask).filterMap (·.1.alt)
  { c with
    ports := c.ports.zipIdx.map fun (e, i) =>
      if t.mask.getLsbD i then
        match e.bind with
        | .handler _ _ => { e with credits := e.credits - 1 }
        | _ => e.idle
      else if e.alt.any marks.contains then e.idle else e,
    fifos := c.fifos.zipIdx.map fun (f, i) =>
      let d := if t.deq.getLsbD i then f.data.drop 1 else f.data
      { f with data := if t.enq.getLsbD i then d ++ [(c.routed t (32 + i), snap)] else d },
    state := t.next,
    ptrs := lset c.ptrs c.state ptr }

/-- The core a port is bound at. -/
def PEntry.core (e : PEntry) : Option Nat :=
  match e.bind with
  | .task _ core => some core
  | .handler _ core => some core
  | .none => none

/-- What a fired port gets: a task a FIRE on class 3, a handler a trigger on class 2 (R242 step 4, R244, R262). -/
def State.fireMsg (s : State) (quad : Nat) (c : Casement) (t : CTrans) (name : Word) (e : PEntry) (i : Nat) : State :=
  let data : Datum := if e.sink then c.routed t i else ⟨[], false⟩
  match e.bind with
  | .task tid core => s.fromTransom quad core (.fire tid name data (c.stepSnap t))
  | .handler h core => s.sendMsg (.trigger name data) core (quadCore quad 0) 0 c.job
      [handlerWord h, name, BitVec.ofNat 64 data.bytes.length, 0, 0, 0, 0, 0] (some ⟨c.scope, c.stepSnap t, .transom quad⟩) false
  | .none => s

/-- A firing is a Lamport event of every party's die, with the Transom's die as the carrier (R351). -/
def State.lamportFire (s : State) (die : Nat) (dies : List Nat) : State :=
  let s := dies.foldl (fun (s : State) d => let (v, s) := s.lamportSend d; s.lamportRecv die v) s
  let (v, s) := s.lamportSend die
  dies.foldl (fun (s : State) d => s.lamportRecv d v) s

/-- FIRE (R241, R242): one decision of a casement. -/
def execFire (quad cslot : Nat) (s : State) : Host.Outcome State Fault Refusal :=
  .next (match vget (s.quad quad).cas cslot none with
    | none => s
    | some c => match c.nextStep with
      | none => s
      | some (t, index, ptr) =>
        let base := portName quad cslot (vget (s.quad quad).gens cslot 0).toNat
        let ps := c.portsOf t.mask
        let dies := ((ps.filterMap (·.1.core)).map dieOf).eraseDups
        let s := (s.modCas quad cslot fun c => c.fired t ptr).lamportFire (quad / 40) dies
        let s := ps.foldl (fun (s : State) e => s.fireMsg quad c t (base + BitVec.ofNat 64 e.2) e.1 e.2) s
        s.emitFrom (1000 + quad) (quadCore quad 0) 31 8 0 [base, t.mask.setWidth 64, BitVec.ofNat 64 index])

/-! ### What reaches the core (R244, R247, R254) -/

/-- The handle of a task that is bound to a port. -/
def Task.handleOf (x : Task) (name : Word) : Option (Nat × PortRef) :=
  (List.range 16).findSome? fun h => (x.port h).bind fun r => if r.name == name && r.dlv.isNone then some (h, r) else none

/-- A trigger from a handler-bound sink waits at its core (R20, R244, R253). -/
def State.portTrigger (s : State) (m : Msg) (name : Word) (data : Datum) : State :=
  let (g, s) := s.accept (dieOf m.core) { Trigger.of m.dwords .port m.job with port := some (name, data), rel := m.rel }
  s.modCore m.core fun c => { c with mailbox := c.mailbox ++ [g] }

/-- The handler trigger of a Transom that reaches a core next, one of those that may (R244, R262, R263). -/
def State.nextTrigger (s : State) (quad core : Nat) : Option (Msg × Word × Datum) × State :=
  let ms := s.msgs.filterMap fun m => match m.kind with
    | .trigger name data => if m.core == core && nameQuad name == quad && s.msgReady m then some (m, name, data) else none
    | _ => none
  let (c, s) := s.choose ms.length
  (ms[c]?, s)

/-- A blocked offering instruction whose completion has to wait: its task is held (R23, R24), at its halt or on its way (R254). -/
def Task.defers (x : Task) (r : PortRef) : Bool := x.keepsPorts || (r.block && !x.mayEnd)

/-- A FIRE for a handle with an outstanding offer (R247, R254). -/
def State.fireAt (s : State) (t h off : Nat) (r : PortRef) (data : Datum) (snap : List Nat) : State :=
  let x := s.task t
  let fired (y : Task) (landing : Option (Nat × Datum)) : Task :=
    (y.dropAlt r.alt).setPort h (some { r.taken with done := some snap, landing := landing })
  let s := s.pulse (coreOf t) 17
  if x.life = .retired then (if x.how = 0 then s.landDatum t off data else s).modTask t fun y => fired y none
  else if x.defers r then s.modTask t fun y => fired y (if data.bytes = [] then none else some (off, data))
  else
    let s := s.landDatum t off data
    match x.portWait with
    | some (.fire d hs) => if hs.contains h then s.completeFire t h r d snap else s.modTask t fun y => fired y none
    | _ => s.modTask t fun y => fired y none

/-- A FIRE for a task: its datum, unless it is kept or discarded, waits at the core while its landing area is watched (R207, R246). -/
def State.fireTask (s : State) (quad core : Nat) (tid name : Word) (data : Datum) (snap : List Nat) : State :=
  match (s.findTid tid).bind fun t => ((s.task t).handleOf name).map fun e => (t, e.1, e.2) with
  | none => s.takeFromT quad core
  | some (t, h, r) => match r.offered with
    | none => s.takeFromT quad core
    | some (off, _) =>
      let x := s.task t
      if data.bytes ≠ [] ∧ !(x.life == .retired && x.how != 0) ∧ (x.life = .retired ∨ !x.defers r) ∧ s.watchedRange (coreOf t) off data.bytes.length then s
      else (s.takeFromT quad core).fireAt t h off r data snap

/-- FIRE_ARRIVAL (R244, R247): the next port message is a FIRE, or a handler trigger arrives. -/
def execFireArrival (quad core : Nat) (s : State) : Host.Outcome State Fault Refusal :=
  .next (match s.firstFromT quad core with
    | some (.fire tid name data snap) => s.fireTask quad core tid name data snap
    | _ => match s.nextTrigger quad core with
      | (some (m, name, data), s) => (s.deliverMsg m).portTrigger m name data
      | (none, s) => s)

/-- A task in Waiting (port) whose wait has something to do goes on at its next boundary (R24, R254). -/
def Task.stirPort (x : Task) : Task :=
  if x.life = .waiting .port ∧ x.portDue ∧ !x.keepsPorts then { x with life := .running } else x

/-- An offer is gone (R254): it is made again before the task's next instruction, in its new slot where the context is saved or moved. -/
def State.offerGone (s : State) (t h : Nat) (r : PortRef) : State :=
  s.modTask t fun y =>
    if y.life = .retired then y.setPort h (some r.idle)
    else (y.setPort h (some { r with offered := none, again := r.offered })).stirPort

/-- WITHDRAWN (R247, R249, R254). -/
def State.withdrawn (s : State) (t h : Nat) (r0 : PortRef) : State :=
  let r := { r0 with asked := false }
  match (s.task t).portWait with
  | some (.pwd d k) => if k = h then (s.modTask t fun x => x.setPort h (some r.idle)).endWait t d 0 else s.offerGone t h r
  | some (.unbind d k name) =>
    if k = h then ((s.modTask t fun x => x.setPort h (some r.idle)).releasePort t h).requestBind t d h name else s.offerGone t h r
  | _ => s.offerGone t h r

/-- FIRED (R247, R249, R254): the FIRE has come before it. An instruction that waits to withdraw an offer made since then waits on for its
own reply. -/
def State.firedReply (s : State) (t h : Nat) (r0 : PortRef) : State :=
  let r := { r0 with owed := r0.owed - 1 }
  let s := s.modTask t fun x => x.setPort h (some r)
  if r.asked || r.owed != 0 then s
  else match (s.task t).portWait with
  | some (.pwd d k) =>
    if k ≠ h then s
    else match r.done with
      | some snap => ((s.acquireStep t r.name snap).modTask t fun x => x.setPort h (some r.idle)).endWait t d 1
      | none => s.endWait t d 2
  | some (.unbind d k name) => if k ≠ h then s else (s.releasePort t h).requestBind t d h name
  | _ => s

/-- WITHDRAW_REPLY (R254): a reply that no handle awaits, its port being bound anew since, is dropped. -/
def execWithdrawReply (quad core : Nat) (s : State) : Host.Outcome State Fault Refusal :=
  let at_ (tid name : Word) : Option (Nat × Nat × PortRef) :=
    (s.findTid tid).bind fun t => ((s.task t).handleOf name).map fun e => (t, e.1, e.2)
  .next (match s.firstFromT quad core with
    | some (.withdrawn tid name) => match at_ tid name with
      | some (t, h, r) => if r.asked then (s.takeFromT quad core).withdrawn t h r else s.takeFromT quad core
      | none => s.takeFromT quad core
    | some (.fired tid name) => match at_ tid name with
      | some (t, h, r) => if r.owed != 0 then (s.takeFromT quad core).firedReply t h r else s.takeFromT quad core
      | none => s.takeFromT quad core
    | _ => s)

/-- A newly bound handle (R249). -/
def PortRef.fresh (name : Word) (sink : Bool) (dsz : Nat) : PortRef where
  name := name
  sink := sink
  dsz := dsz
  offered := none
  block := false
  alt := none
  done := none
  again := none
  landing := none
  asked := false
  owed := 0
  issuedAt := 0
  dlv := none

/-- The reply to a binding request (R249): a binding that no `cbind` awaits any more is released. -/
def State.bindReplied (s : State) (core : Nat) (tid name : Word) (n : Nat) (sink : Bool) (dsz : Nat) : State :=
  let free (s : State) : State :=
    if n = 0 then s.toTransom core (nameQuad name) ((s.findTid tid).elim 0 fun t => (s.task t).phase) (.free tid name) else s
  match s.findTid tid with
  | none => free s
  | some t => match (s.task t).portWait with
    | some (.bind d h) =>
      let s := if n = 0 then s.modTask t fun x => x.setPort h (some (PortRef.fresh name sink dsz)) else s
      s.endWait t d (BitVec.ofNat 64 n)
    | _ => free s

/-- BINDING_REPLY (R249, R251). -/
def execBindingReply (quad core : Nat) (s : State) : Host.Outcome State Fault Refusal :=
  .next (match s.firstFromT quad core with
    | some (.bound tid name n sink dsz) => (s.takeFromT quad core).bindReplied core tid name n sink dsz
    | some (.unloaded tid n) =>
      let s := s.takeFromT quad core
      match s.findTid tid with
      | none => s
      | some t => match (s.task t).portWait with
        | some (.unload d) => s.endWait t d (BitVec.ofNat 64 n)
        | _ => s
    | _ => s)

end Sys2Proof.Machine
end

