-- ==== Sys2Proof/Machine/Preempt.lean ====
section
/-! DEFINITION. Time slices, pre-emption, halts, saves and restores (R23-R25, R78, R103, R113, R185, R201, R220, R222, R254, R292,
R303). -/

namespace Sys2Proof.Machine

/-! ### Victims (R292, R303) -/

/-- The live tasks of a team in slots. -/
def State.teamSlots (s : State) (key : Nat) : List Nat :=
  (s.tasks.filter fun e => (e.2.team.any (·.1 == key)) && e.2.life != .free && e.2.life != .retired).map (·.1)

/-- The unit a task belongs to as a victim: its whole team, or itself. -/
def State.unit (s : State) (t : Nat) : List Nat :=
  match (s.task t).team with
  | some (key, _, _) => s.teamSlots key
  | none => [t]

/-- Tasks are asked to halt. -/
def State.askHalt (s : State) (h : Halting) (ts : List Nat) : State :=
  ts.foldl (fun s t => s.modTask t fun x => if x.halt.isNone then { x with halt := some h } else x) s

/-- A team of the same class and job waits for the quad set: a swapped one, or one of a grid not yet admitted (R292). -/
def State.teamWaits (s : State) (m : Team) (job : Nat) : Bool :=
  (s.teams.any fun e => e.2.swapped && e.2.cls == m.cls && s.grids.any fun g => g.id == e.2.grid && g.job == job) ||
  s.grids.any fun g => g.job == job && (s.gridWaits g).any (·.cls == m.cls)

/-- TIME_SLICE_EXPIRY (R292): a resident team whose round has reached 2 ms is asked to halt while another of its class waits. -/
def execTimeSliceExpiry (quad team : Nat) (s : State) : Host.Outcome State Fault Refusal :=
  .next (match tfind s.teams team with
    | none => s
    | some m => match s.grids.find? (·.id == m.grid) with
      | none => s
      | some g =>
        if m.quad = quad ∧ !m.swapped ∧ m.resident + 2000000 ≤ (s.clock (quadCore quad 0)).toNat ∧ s.teamWaits m g.job then
          s.askHalt ⟨true, m.cls, false⟩ (s.teamSlots team)
        else s)

/-- What a request asks for: the cores whose holders may be victims, and the test that it fits. -/
structure Need where
  cores : List Nat
  ok : State → Bool

/-- The requests of a class on a quad (R303): triggers of its cores, teams, guard pairs, and swapped work. -/
def State.needs (s : State) (quad cls : Nat) : List Need :=
  let triggers := (quadCores quad).flatMap fun c =>
    ((s.weighAll c (s.sources c)).2.filter fun e => e.1.cls == cls).map fun e => Need.mk [c] fun u => u.fits c e.1.lease e.1.shadow 1
  let teams := (s.grids.filter fun g => (s.job g.job).desc.quads.contains quad).filterMap fun g => ((s.gridWaits g).filter fun w =>
      w.cls == cls && s.teamPossible quad w.lease w.shadow g.size g.scr).map fun w =>
    Need.mk (quadCores quad) fun u => u.teamFits quad w.lease w.shadow g.size && (u.lowestRun quad g.scr).isSome
  let pairs := (List.range 4).filterMap fun e => ((s.pairAt quad e (quadCore quad 0)).filter (·.1.cls == cls)).map fun p =>
    Need.mk (quadCores quad) fun u => (quadCores quad).any fun c => u.fitsPair c p.1 p.2
  let back := (s.swaps.filter fun w => quadOf w.core == quad && w.task.life != .retired && w.task.cls.toNat == cls).map fun w =>
    match w.team with
    | none => Need.mk (quadCores quad) fun u => (quadCores quad).any fun c => u.taskReturns w c
    | some key => Need.mk (quadCores quad) fun u => (tfind u.teams key).any fun m => u.teamReturns key m
  triggers ++ teams ++ pairs ++ back

/-- The state as it would be without some tasks and, where they are a team, without its banks. -/
def State.without (s : State) (ts : List Nat) : State :=
  let key := (ts.head?).bind fun t => (s.task t).team.map (·.1)
  let s1 := ts.foldl (fun s t => s.setTask t Task.empty) s
  match key with
  | none => s1
  | some k => { s1 with teams := s1.teams.map fun e => if e.1 = k then (e.1, { e.2 with swapped := true }) else e }

/-- The tasks on some cores that may be victims of a request of a class (R25, R303). -/
def State.eligible (s : State) (cores : List Nat) (cls : Nat) : List (Nat × Task) :=
  s.tasks.filter fun e => decide (e.1 < 10240) && cores.contains (coreOf e.1) && decide (cls < e.2.cls.toNat) &&
    e.2.life != .free && e.2.life != .retired && e.2.tid != 0

/-- The next victim may be this task's unit: the largest class number first, in it the most recently dispatched (R303). -/
def State.topVictim (s : State) (l : List (Nat × Task)) (t : Nat) : Bool :=
  let x := s.task t
  l.any (·.1 == t) && l.all fun e => decide (e.2.cls.toNat < x.cls.toNat) ||
    (e.2.cls == x.cls && decide (e.2.disp.toNat ≤ x.disp.toNat)) || (s.unit t).contains e.1

/-- The victims are those of the rule: in its order, and no more than the request needs (R303). -/
def Need.served (n : Need) (cls : Nat) (s : State) : List Nat → Bool
  | [] => n.ok s
  | t :: r => !n.ok s && s.topVictim (s.eligible n.cores cls) t && n.served cls (s.without (s.unit t)) r

/-- The tasks already asked to halt count as gone, and those in Retired, for which nothing is saved (R25). -/
def State.withoutHalting (s : State) : State :=
  let s := ((s.tasks.filter (·.2.life == .retired)).map (·.1)).foldl (fun s t => s.setTask t Task.empty) s
  ((s.tasks.filter (·.2.halt.isSome)).map (·.1)).foldl (fun s t => s.without [t]) s

/-- PREEMPTION_REQUEST (R303): the Shutter asks the victims of an unmet request to halt; without an eligible victim it waits. -/
def execPreemptionRequest (quad cls : Nat) (victims : List Nat) (s : State) : Host.Outcome State Fault Refusal :=
  .next (if !victims.isEmpty && (s.needs quad cls).any fun n => n.served cls s.withoutHalting victims then
    victims.foldl (fun s t => s.askHalt ⟨false, cls, false⟩ (s.unit t)) s
  else s)

/-! ### HALT (R25, R113, R201, R254, R303) -/

/-- The states a halt may find a victim in (R23). -/
def Life.haltable : Life → Bool
  | .running => true
  | .waiting _ => true
  | .held _ => true
  | .parked _ _ _ _ => true
  | _ => false

/-- HALT (R303): at its boundary the victim issues nothing more; its offers are withdrawn, a routine command and a migration not yet
loaded are given up. A stalled `hhold` or `hrel` retires first, a commit under way is made whole, and a routine command whose outputs are
landing completes (R103, R201); a `dsteal` between its accesses is issued again (R306). -/
def execHalt (t : Nat) (s : State) : Host.Outcome State Fault Refusal :=
  .next (match (s.task t).halt with
    | none => s
    | some h =>
      let x := s.task t
      if x.life.haltable && !h.halted && x.reply.isNone && !x.committing && !s.landing t then
        let s := (((s.cancelRoutine t).leaveWaiters t).dropMove t).withdrawOffers t
        (s.emitTask t 5 [if h.slice then 1 else 0, BitVec.ofNat 64 h.cls, x.here]).modTask t fun y =>
          { y with halt := some { h with halted := true }, theft := none }
      else s)

/-! ### SWAP_SAVE (R26, R185, R220, R222, R292) -/

/-- The context may be saved: halted, and every reply from a Transom is in (R254). -/
def Task.saveable (x : Task) : Bool :=
  x.halt.any (·.halted) && x.settledPorts && (match x.portWait with
    | none => true
    | some (.fire _ _) => true
    | some (.replied _ _) => true
    | some _ => false)

/-- A saved context (R24, R26). -/
def Task.swapOut (x : Task) : Task :=
  { x with life := .swapped x.life.kept, halt := none }

/-- A context leaves its slot for memory: its stream goes with it, its store buffer goes on draining (R220, R284). -/
def State.swapTask (s : State) (t : Nat) (engines : Tbl MatrixEngine) : State :=
  let s := (s.saveStream t).drainAll t
  let x := s.task t
  { s.setTask t Task.empty with swaps := s.swaps ++ [⟨x.swapOut, coreOf t, x.team.map (·.1), engines⟩] }

/-- The part of a core's memory that a run of banks holds. -/
def Memory.run (m : Memory) (bank n : Nat) : Memory := m.banks fun b => decide (bank ≤ b) && decide (b < bank + n)

/-- No active copy lands in the banks of a team (R222). -/
def State.banksQuiet (s : State) (quad bank n : Nat) : Bool :=
  !s.cores.any fun e => e.2.slots.toList.any fun k => k.copy.any fun y => y.landsIn e.1 quad bank n

/-- The engines an owner holds, by core (R166). -/
def State.enginesOf (s : State) (o : Bool × Nat) : Tbl MatrixEngine :=
  s.cores.filterMap fun e => if e.2.mx.owner = some o then some (e.1, e.2.mx) else none

/-- The queues of some engines have drained (R185). -/
def enginesIdle (es : Tbl MatrixEngine) : Bool := es.all fun e => e.2.queue.isEmpty

/-- Engines saved are free for others (R185). -/
def State.freeEngines (s : State) (es : Tbl MatrixEngine) : State :=
  es.foldl (fun s e => s.modCore e.1 fun k => { k with mx := MatrixEngine.reset }) s

/-- Saved engines are back on their cores (R185). -/
def State.putEngines (s : State) (es : Tbl MatrixEngine) : State :=
  es.foldl (fun s e => s.modCore e.1 fun k => { k with mx := e.2 }) s

/-- A whole team is saved: its contexts, its banks and its engines (R185, R292); a slice starts a new round, a pre-emption keeps the
time of the round. -/
def State.saveTeam (s : State) (key : Nat) (m : Team) (slice : Bool) : State :=
  let es := s.enginesOf (true, key)
  let m' : Team := { m with
    swapped := true, bySlice := slice, order := s.nextId,
    resident := if slice then 0 else (s.clock (quadCore m.quad 0)).toNat - m.resident,
    engines := es,
    banks := (quadCores m.quad).map fun c => (c, (s.core c).mem.run m.bank m.scr) }
  let s := (s.teamSlots key).foldl (fun s t => s.swapTask t []) s
  let s := s.freeEngines es
  { s with teams := tput s.teams key m', nextId := s.nextId + 1 }

/-- SWAP_SAVE (R292): a halted free task is saved with the engines it holds; a team is saved as a whole once every task of it is halted, the
copies into its banks are complete and its engines' queues have drained. -/
def execSwapSave (t : Nat) (s : State) : Host.Outcome State Fault Refusal :=
  let x := s.task t
  .next (match x.halt with
    | none => s
    | some h =>
      if !x.saveable then s
      else match x.team with
        | none =>
          let es := s.enginesOf x.owner
          if enginesIdle es then (s.swapTask t es).freeEngines es else s
        | some (key, _, _) => match tfind s.teams key with
          | none => s
          | some m =>
            if (s.teamSlots key).all (fun u => (s.task u).saveable) && s.banksQuiet m.quad m.bank m.scr &&
                enginesIdle (s.enginesOf (true, key)) then
              s.saveTeam key m h.slice
            else s)

/-! ### RESTORE (R23, R24, R185, R292, R303) -/

/-- The place of a team in its class's queue: teams that a pre-emption interrupted before the others, then the oldest (R292, R303). -/
def Team.before (a b : Team) : Bool := (!a.bySlice && b.bySlice) || (a.bySlice == b.bySlice && decide (a.order < b.order))

/-- Swapped work of the quad that goes before an entry (R288, R292, R303): the rest of a team on its way back, work of a lower class number,
or of its class, earlier, and able to return. -/
def State.swapAhead (s : State) (n : Nat) (w : Swap) : Bool :=
  s.swaps.zipIdx.any fun (v, i) => i != n && v.task.life != .retired && quadOf v.core == quadOf w.core && !(v.team.isSome && v.team == w.team) &&
    (s.dueBack v || decide (v.task.cls.toNat < w.task.cls.toNat) || (v.task.cls == w.task.cls &&
      (match v.team.bind (tfind s.teams), w.team.bind (tfind s.teams) with
        | some a, some b => a.before b && s.teamTurn a && s.teamReturns (v.team.getD 0) a
        | some a, none => decide (i < n) && s.teamTurn a && s.teamReturns (v.team.getD 0) a
        | none, _ => decide (i < n) && (quadCores (quadOf v.core)).any fun c => s.taskReturns v c)))

/-- Nothing of a lower class number waits for some cores: no trigger, team or pair, and no task on its way to one (R22, R258). -/
def State.nothingBelow (s : State) (cores : List Nat) (cls : Nat) : Bool :=
  cores.all fun c => !s.triggerBelow c cls && !s.teamBelow c cls && !s.pairBelow c cls && !s.tasks.any fun e =>
    e.2.moving.any fun m => m.dest == c && m.slot.isNone && decide (e.2.cls.toNat < cls)

/-- The banks and the engines of a team go back to its cores; its round goes on (R292, R303). -/
def State.teamBack (s : State) (key : Nat) (m : Team) : State :=
  let inb (o : Nat) : Bool := decide (m.bank ≤ o / 4096) && decide (o / 4096 < m.bank + m.scr)
  let put (s : State) (e : Nat × Memory) : State :=
    let s := s.modCore e.1 fun k => { k with mem := k.mem.graft (4096 * m.bank) (4096 * m.scr) e.2 (4096 * m.bank) }
    { s with hist := s.hist.filter fun w => match w.loc with
        | .bank c o => !(c == e.1 && inb o)
        | .glob _ _ => true }
  let s := m.banks.foldl put s
  let s := s.putEngines m.engines
  { s with teams := tput s.teams key { m with
      swapped := false, resident := (s.clock (quadCore m.quad 0)).toNat - (if m.bySlice then 0 else m.resident), engines := [], banks := [] } }

/-- A saved context in its new slot (R23, R24): its ports are bound anew from there (R254), and it is Ready. -/
def State.swapIn (s : State) (n : Nat) (w : Swap) (t base : Nat) : State :=
  let x := { w.task with leaseBase := if leaseSize w.task.leaseCls = 0 then 0 else base }
  let s := (({ s with swaps := s.swaps.eraseIdx n } : State).setTask t x).rebindPorts t
  let s := (s.modTask t fun y => { y with life := .ready }).refillStream t
  let s := s.putEngines w.engines
  s.emitTask t 6 [BitVec.ofNat 64 (coordOf (coreOf t)), BitVec.ofNat 64 (t % 16)]

/-- RESTORE (R292, R303): a free task returns to any core of its quad, a team task to the core it was halted on; the first of a team
brings its banks and engines back, the others follow. -/
def execRestore (n t base : Nat) (s : State) : Host.Outcome State Fault Refusal :=
  .next (match s.swaps[n]? with
    | none => s
    | some w =>
      let ok := w.task.life != .retired && decide (t < 10240) && s.placeFree t base w.task.leaseCls w.task.shadowKiB &&
        (s.core (coreOf t)).job == some w.task.job
      let first (cores : List Nat) : Bool := !s.swapAhead n w && s.nothingBelow cores w.task.cls.toNat
      match w.team with
      | none =>
        if ok && first [coreOf t] && quadOf (coreOf t) == quadOf w.core && s.taskReturns w (coreOf t) then s.swapIn n w t base else s
      | some key => match tfind s.teams key with
        | none => s
        | some m =>
          if !(ok && coreOf t == w.core) then s
          else if !m.swapped then s.swapIn n w t base
          else if first (quadCores m.quad) && s.teamTurn m && s.teamReturns key m then (s.teamBack key m).swapIn n w t base
          else s)

end Sys2Proof.Machine
end

