-- ==== Sys2Proof/Machine/Scalar.lean ====
section
/-! DEFINITION. Scalar arithmetic, bitfields, compare and select, fat pointers and immediates (R80-R87). -/

namespace Sys2Proof.Machine

/-- The end of every scalar instruction that writes one register: the result, then the PC (R80). -/
def alu (d : Gpr) (v : Word) (n : Nat) (s : State) : Host.Outcome State Fault Refusal := .next ((s.setG d v).retire n)

/-- Signed division rounding toward zero, with the corners of R82. -/
def divS (a b : Word) : Word :=
  if b = 0 then BitVec.allOnes 64 else BitVec.ofInt 64 (a.toInt.tdiv b.toInt)

/-- The signed remainder, whose sign follows the dividend (R82). -/
def remS (a b : Word) : Word := if b = 0 then a else BitVec.ofInt 64 (a.toInt.tmod b.toInt)

/-- Natural division (R82). -/
def divN (a b : Word) : Word := if b = 0 then BitVec.allOnes 64 else a / b

/-- The natural remainder (R82). -/
def remN (a b : Word) : Word := if b = 0 then a else a % b

/-- Leading zero bits (R81). -/
def clz64 (a : Word) : Word := if a = 0 then 64 else BitVec.ofNat 64 (63 - a.toNat.log2)

/-- Trailing zero bits (R81). -/
def ctz64 (a : Word) : Word := if a = 0 then 64 else BitVec.ofNat 64 ((a &&& (0 - a)).toNat.log2)

/-- One bits among the low n bits of a number. -/
def onesNat : Nat → Nat → Nat
  | 0, _ => 0
  | n + 1, v => v % 2 + onesNat n (v / 2)

/-- One bits (R81). -/
def popc64 (a : Word) : Word := BitVec.ofNat 64 (onesNat 64 a.toNat)

/-- `add`: D := A + B (R81). -/
def execAdd (d a b : Gpr) (s : State) : Host.Outcome State Fault Refusal := alu d (s.g a + s.g b) 4 s

/-- `sub`: D := A - B (R81). -/
def execSub (d a b : Gpr) (s : State) : Host.Outcome State Fault Refusal := alu d (s.g a - s.g b) 4 s

/-- `min`: signed (R81). -/
def execMin (d a b : Gpr) (s : State) : Host.Outcome State Fault Refusal := alu d (if (s.g a).slt (s.g b) then s.g a else s.g b) 4 s

/-- `minn`: natural (R81). -/
def execMinn (d a b : Gpr) (s : State) : Host.Outcome State Fault Refusal := alu d (if (s.g a).ult (s.g b) then s.g a else s.g b) 4 s

/-- `max`: signed (R81). -/
def execMax (d a b : Gpr) (s : State) : Host.Outcome State Fault Refusal := alu d (if (s.g b).slt (s.g a) then s.g a else s.g b) 4 s

/-- `maxn`: natural (R81). -/
def execMaxn (d a b : Gpr) (s : State) : Host.Outcome State Fault Refusal := alu d (if (s.g b).ult (s.g a) then s.g a else s.g b) 4 s

/-- `mul`: bits [63:0] of the product (R81). -/
def execMul (d a b : Gpr) (s : State) : Host.Outcome State Fault Refusal := alu d (s.g a * s.g b) 4 s

/-- `mulh`: bits [127:64] of the signed product (R81). -/
def execMulh (d a b : Gpr) (s : State) : Host.Outcome State Fault Refusal := alu d (BitVec.ofInt 64 ((s.g a).toInt * (s.g b).toInt / 2 ^ 64)) 4 s

/-- `mulhn`: bits [127:64] of the natural product (R81). -/
def execMulhn (d a b : Gpr) (s : State) : Host.Outcome State Fault Refusal := alu d (BitVec.ofNat 64 ((s.g a).toNat * (s.g b).toNat / 2 ^ 64)) 4 s

/-- `div` (R82). -/
def execDiv (d a b : Gpr) (s : State) : Host.Outcome State Fault Refusal := alu d (divS (s.g a) (s.g b)) 4 s

/-- `divn` (R82). -/
def execDivn (d a b : Gpr) (s : State) : Host.Outcome State Fault Refusal := alu d (divN (s.g a) (s.g b)) 4 s

/-- `rem` (R82). -/
def execRem (d a b : Gpr) (s : State) : Host.Outcome State Fault Refusal := alu d (remS (s.g a) (s.g b)) 4 s

/-- `remn` (R82). -/
def execRemn (d a b : Gpr) (s : State) : Host.Outcome State Fault Refusal := alu d (remN (s.g a) (s.g b)) 4 s

/-- `and` (R81). -/
def execAnd (d a b : Gpr) (s : State) : Host.Outcome State Fault Refusal := alu d (s.g a &&& s.g b) 4 s

/-- `or` (R81). -/
def execOr (d a b : Gpr) (s : State) : Host.Outcome State Fault Refusal := alu d (s.g a ||| s.g b) 4 s

/-- `xor` (R81). -/
def execXor (d a b : Gpr) (s : State) : Host.Outcome State Fault Refusal := alu d (s.g a ^^^ s.g b) 4 s

/-- `andn`: A and not B (R81). -/
def execAndn (d a b : Gpr) (s : State) : Host.Outcome State Fault Refusal := alu d (s.g a &&& ~~~(s.g b)) 4 s

/-- `shl`: the count is B[5:0] (R81). -/
def execShl (d a b : Gpr) (s : State) : Host.Outcome State Fault Refusal := alu d (s.g a <<< shiftOf (s.g b)) 4 s

/-- `shr`: zeros shifted in (R81). -/
def execShr (d a b : Gpr) (s : State) : Host.Outcome State Fault Refusal := alu d (s.g a >>> shiftOf (s.g b)) 4 s

/-- `sar`: sign copies shifted in (R81). -/
def execSar (d a b : Gpr) (s : State) : Host.Outcome State Fault Refusal := alu d ((s.g a).sshiftRight (shiftOf (s.g b))) 4 s

/-- `rol` (R81). -/
def execRol (d a b : Gpr) (s : State) : Host.Outcome State Fault Refusal := alu d ((s.g a).rotateLeft (shiftOf (s.g b))) 4 s

/-- `clz`: 64 when A = 0 (R81). -/
def execClz (d a : Gpr) (s : State) : Host.Outcome State Fault Refusal := alu d (clz64 (s.g a)) 4 s

/-- `ctz`: 64 when A = 0 (R81). -/
def execCtz (d a : Gpr) (s : State) : Host.Outcome State Fault Refusal := alu d (ctz64 (s.g a)) 4 s

/-- `popc` (R81). -/
def execPopc (d a : Gpr) (s : State) : Host.Outcome State Fault Refusal := alu d (popc64 (s.g a)) 4 s

/-- `zext`: the field zero-extended (R69, R85). -/
def execZext (d a : Gpr) (pos len : BitVec 6) (s : State) : Host.Outcome State Fault Refusal :=
  alu d (bitField (s.g a) pos.toNat (len.toNat + 1)) 4 s

/-- `sext`: the field extended from its highest extracted bit (R69, R85). -/
def execSext (d a : Gpr) (pos len : BitVec 6) (s : State) : Host.Outcome State Fault Refusal :=
  alu d (bitFieldS (s.g a) pos.toNat (len.toNat + 1)) 4 s

/-- `ins`: the low LEN bits of A replace the field of D (R69, R85). -/
def execIns (d a : Gpr) (pos len : BitVec 6) (s : State) : Host.Outcome State Fault Refusal :=
  alu d (bitInsert (s.g d) (s.g a) pos.toNat (len.toNat + 1)) 4 s

/-- `ext`: POS = B[5:0], LEN = B[11:6] + 1 (R69, R85). -/
def execExt (d a b : Gpr) (s : State) : Host.Outcome State Fault Refusal :=
  alu d (bitField (s.g a) (bits (s.g b) 0 6) (bits (s.g b) 6 6 + 1)) 4 s

/-- `cmp.cc`: 1 when A cc B, else 0 (R72, R83). -/
def execCmp (d a b : Gpr) (cc : BitVec 4) (s : State) : Host.Outcome State Fault Refusal :=
  alu d (if ccHolds cc (s.g a) (s.g b) then 1 else 0) 4 s

/-- `sel`: D is read before it is written (R83). -/
def execSel (d a b : Gpr) (s : State) : Host.Outcome State Fault Refusal :=
  alu d (if s.g d ≠ 0 then s.g a else s.g b) 4 s

/-- `ptag`: B[7:0] over A[55:0], unchecked (R86). -/
def execPtag (d a b : Gpr) (s : State) : Host.Outcome State Fault Refusal :=
  alu d ((s.g b).extractLsb' 0 8 ++ (s.g a).extractLsb' 0 56) 4 s

/-- `pfmt`: the tag byte (R86). -/
def execPfmt (d a : Gpr) (s : State) : Host.Outcome State Fault Refusal :=
  alu d (zx ((s.g a).extractLsb' 56 8)) 4 s

/-- The exact sum `padd` checks (R87). -/
def paddSum (a b : Word) : Int := (a.toNat % 2 ^ 56 : Nat) + b.toInt

/-- `padd`: A's tag over the sum; a sum outside 0 to 2^56 - 1 traps BOUND with SUB 1, A and B (R87, R105). -/
def execPadd (d a b : Gpr) (s : State) : Host.Outcome State Fault Refusal :=
  run s do
    need (!outside56 (paddSum (s.g a) (s.g b))) (.trap 8 1 (s.g a) (some (s.g b)))
    .ok ((s.setG d ((s.g a).extractLsb' 56 8 ++ BitVec.ofInt 56 (paddSum (s.g a) (s.g b)))).retire 4)

/-- `pstrip`: the tag removed (R86). -/
def execPstrip (d a : Gpr) (s : State) : Host.Outcome State Fault Refusal :=
  alu d (zx ((s.g a).extractLsb' 0 56)) 4 s

/-- `addi` (R84). -/
def execAddi (d a : Gpr) (imm : BitVec 14) (s : State) : Host.Outcome State Fault Refusal := alu d (s.g a + sx imm) 4 s

/-- `addi` with a prefix: a 34-bit immediate (R62, R84). -/
def execAddiPrefixed (d a : Gpr) (imm : BitVec 34) (s : State) : Host.Outcome State Fault Refusal := alu d (s.g a + sx imm) 8 s

/-- `shli` (R84). -/
def execShli (d a : Gpr) (n : BitVec 6) (s : State) : Host.Outcome State Fault Refusal := alu d (s.g a <<< n.toNat) 4 s

/-- `shri` (R84). -/
def execShri (d a : Gpr) (n : BitVec 6) (s : State) : Host.Outcome State Fault Refusal := alu d (s.g a >>> n.toNat) 4 s

/-- `sari` (R84). -/
def execSari (d a : Gpr) (n : BitVec 6) (s : State) : Host.Outcome State Fault Refusal :=
  alu d ((s.g a).sshiftRight n.toNat) 4 s

/-- `ldi` (R84). -/
def execLdi (d : Gpr) (imm : BitVec 20) (s : State) : Host.Outcome State Fault Refusal := alu d (sx imm) 4 s

/-- `ldi` with a prefix: a 40-bit immediate (R62, R84). -/
def execLdiPrefixed (d : Gpr) (imm : BitVec 40) (s : State) : Host.Outcome State Fault Refusal := alu d (sx imm) 8 s

/-- `ldih`: D[43:0] over the immediate (R84). -/
def execLdih (d : Gpr) (imm : BitVec 20) (s : State) : Host.Outcome State Fault Refusal :=
  alu d ((s.g d).extractLsb' 0 44 ++ imm) 4 s

end Sys2Proof.Machine
end

