-- ==== Sys2Proof/Machine/Dispatch.lean ====
section
/-! DEFINITION. One arm per constructor of `Instr`, each one direct call of its meaning. -/

namespace Sys2Proof.Machine

def exec (i : Instr) (s : State) : Host.Outcome State Fault Refusal :=
  match i with
  | .add d a b => Sys2Proof.Machine.execAdd d a b s
  | .sub d a b => Sys2Proof.Machine.execSub d a b s
  | .min d a b => Sys2Proof.Machine.execMin d a b s
  | .minn d a b => Sys2Proof.Machine.execMinn d a b s
  | .max d a b => Sys2Proof.Machine.execMax d a b s
  | .maxn d a b => Sys2Proof.Machine.execMaxn d a b s
  | .mul d a b => Sys2Proof.Machine.execMul d a b s
  | .mulh d a b => Sys2Proof.Machine.execMulh d a b s
  | .mulhn d a b => Sys2Proof.Machine.execMulhn d a b s
  | .div d a b => Sys2Proof.Machine.execDiv d a b s
  | .divn d a b => Sys2Proof.Machine.execDivn d a b s
  | .rem d a b => Sys2Proof.Machine.execRem d a b s
  | .remn d a b => Sys2Proof.Machine.execRemn d a b s
  | .and d a b => Sys2Proof.Machine.execAnd d a b s
  | .or d a b => Sys2Proof.Machine.execOr d a b s
  | .xor d a b => Sys2Proof.Machine.execXor d a b s
  | .andn d a b => Sys2Proof.Machine.execAndn d a b s
  | .shl d a b => Sys2Proof.Machine.execShl d a b s
  | .shr d a b => Sys2Proof.Machine.execShr d a b s
  | .sar d a b => Sys2Proof.Machine.execSar d a b s
  | .rol d a b => Sys2Proof.Machine.execRol d a b s
  | .clz d a => Sys2Proof.Machine.execClz d a s
  | .ctz d a => Sys2Proof.Machine.execCtz d a s
  | .popc d a => Sys2Proof.Machine.execPopc d a s
  | .zext d a pos len => Sys2Proof.Machine.execZext d a pos len s
  | .sext d a pos len => Sys2Proof.Machine.execSext d a pos len s
  | .ins d a pos len => Sys2Proof.Machine.execIns d a pos len s
  | .ext d a b => Sys2Proof.Machine.execExt d a b s
  | .cmp d a b cc => Sys2Proof.Machine.execCmp d a b cc s
  | .sel d a b => Sys2Proof.Machine.execSel d a b s
  | .ptag d a b => Sys2Proof.Machine.execPtag d a b s
  | .pfmt d a => Sys2Proof.Machine.execPfmt d a s
  | .padd d a b => Sys2Proof.Machine.execPadd d a b s
  | .pstrip d a => Sys2Proof.Machine.execPstrip d a s
  | .addi d a imm => Sys2Proof.Machine.execAddi d a imm s
  | .addiPrefixed d a imm => Sys2Proof.Machine.execAddiPrefixed d a imm s
  | .shli d a n => Sys2Proof.Machine.execShli d a n s
  | .shri d a n => Sys2Proof.Machine.execShri d a n s
  | .sari d a n => Sys2Proof.Machine.execSari d a n s
  | .ldi d imm => Sys2Proof.Machine.execLdi d imm s
  | .ldiPrefixed d imm => Sys2Proof.Machine.execLdiPrefixed d imm s
  | .ldih d imm => Sys2Proof.Machine.execLdih d imm s
  | .br off => Sys2Proof.Machine.execBr off s
  | .jal d off => Sys2Proof.Machine.execJal d off s
  | .bc a b cc off => Sys2Proof.Machine.execBc a b cc off s
  | .bz a off => Sys2Proof.Machine.execBz a off s
  | .bnz a off => Sys2Proof.Machine.execBnz a off s
  | .loop a off => Sys2Proof.Machine.execLoop a off s
  | .jr a off => Sys2Proof.Machine.execJr a off s
  | .ret a => Sys2Proof.Machine.execRet a s
  | .rep a len sd sa sb => Sys2Proof.Machine.execRep a len sd sa sb s
  | .fork d a b => Sys2Proof.Machine.execFork d a b s
  | .join d a => Sys2Proof.Machine.execJoin d a s
  | .joinT d a => Sys2Proof.Machine.execJoinT d a s
  | .spawn d a b => Sys2Proof.Machine.execSpawn d a b s
  | .yield => Sys2Proof.Machine.execYield s
  | .endTask => Sys2Proof.Machine.execEndTask s
  | .nop => Sys2Proof.Machine.execNop s
  | .wait d a => Sys2Proof.Machine.execWait d a s
  | .waitv d a b => Sys2Proof.Machine.execWaitv d a b s
  | .commit => Sys2Proof.Machine.execCommit s
  | .mfc d b => Sys2Proof.Machine.execMfc d b s
  | .mtc a b => Sys2Proof.Machine.execMtc a b s
  | .trap a => Sys2Proof.Machine.execTrap a s
  | .sys a => Sys2Proof.Machine.execSys a s
  | .eret => Sys2Proof.Machine.execEret s
  | .bkpt => Sys2Proof.Machine.execBkpt s
  | .tlbi a b => Sys2Proof.Machine.execTlbi a b s
  | .bmap d a b => Sys2Proof.Machine.execBmap d a b s
  | .qpool d a => Sys2Proof.Machine.execQpool d a s
  | .trace a b => Sys2Proof.Machine.execTrace a b s
  | .idle d a => Sys2Proof.Machine.execIdle d a s
  | .flush d a => Sys2Proof.Machine.execFlush d a s
  | .ld d a sp sz sx off => Sys2Proof.Machine.execLd d a sp sz sx off s
  | .ldPrefixed d a sp sz sx off ext => Sys2Proof.Machine.execLdPrefixed d a sp sz sx off ext s
  | .st d a sp sz off => Sys2Proof.Machine.execSt d a sp sz off s
  | .stPrefixed d a sp sz off ext => Sys2Proof.Machine.execStPrefixed d a sp sz off ext s
  | .amoAdd d a b z p => Sys2Proof.Machine.execAmoAdd d a b z p s
  | .amoMin d a b z p => Sys2Proof.Machine.execAmoMin d a b z p s
  | .amoMinn d a b z p => Sys2Proof.Machine.execAmoMinn d a b z p s
  | .amoMax d a b z p => Sys2Proof.Machine.execAmoMax d a b z p s
  | .amoMaxn d a b z p => Sys2Proof.Machine.execAmoMaxn d a b z p s
  | .amoAnd d a b z p => Sys2Proof.Machine.execAmoAnd d a b z p s
  | .amoOr d a b z p => Sys2Proof.Machine.execAmoOr d a b z p s
  | .amoXor d a b z p => Sys2Proof.Machine.execAmoXor d a b z p s
  | .amoSwap d a b z p => Sys2Proof.Machine.execAmoSwap d a b z p s
  | .amoCas d a b z p => Sys2Proof.Machine.execAmoCas d a b z p s
  | .amoFmin d a b p => Sys2Proof.Machine.execAmoFmin d a b p s
  | .amoFmax d a b p => Sys2Proof.Machine.execAmoFmax d a b p s
  | .amoPrefixed op d a b z p c scope aq rl => Sys2Proof.Machine.execAmoPrefixed op d a b z p c scope aq rl s
  | .redAdd a b z p => Sys2Proof.Machine.execRedAdd a b z p s
  | .redMin a b z p => Sys2Proof.Machine.execRedMin a b z p s
  | .redMinn a b z p => Sys2Proof.Machine.execRedMinn a b z p s
  | .redMax a b z p => Sys2Proof.Machine.execRedMax a b z p s
  | .redMaxn a b z p => Sys2Proof.Machine.execRedMaxn a b z p s
  | .redAnd a b z p => Sys2Proof.Machine.execRedAnd a b z p s
  | .redOr a b z p => Sys2Proof.Machine.execRedOr a b z p s
  | .redXor a b z p => Sys2Proof.Machine.execRedXor a b z p s
  | .redFmin a b p => Sys2Proof.Machine.execRedFmin a b p s
  | .redFmax a b p => Sys2Proof.Machine.execRedFmax a b p s
  | .cinv scope a b => Sys2Proof.Machine.execCinv scope a b s
  | .cwb scope a b => Sys2Proof.Machine.execCwb scope a b s
  | .cpref scope a b => Sys2Proof.Machine.execCpref scope a b s
  | .qsetCreate q a b => Sys2Proof.Machine.execQsetCreate q a b s
  | .qsetAttach q a b => Sys2Proof.Machine.execQsetAttach q a b s
  | .qsetRelease q a b => Sys2Proof.Machine.execQsetRelease q a b s
  | .qadvC q b => Sys2Proof.Machine.execQadvC q b s
  | .qadvP q b => Sys2Proof.Machine.execQadvP q b s
  | .qstat d q => Sys2Proof.Machine.execQstat d q s
  | .fence scope => Sys2Proof.Machine.execFence scope s
  | .acq scope => Sys2Proof.Machine.execAcq scope s
  | .rel scope => Sys2Proof.Machine.execRel scope s
  | .bar a scope => Sys2Proof.Machine.execBar a scope s
  | .phase d => Sys2Proof.Machine.execPhase d s
  | .send a b => Sys2Proof.Machine.execSend a b s
  | .post a b => Sys2Proof.Machine.execPost a b s
  | .dpush d a => Sys2Proof.Machine.execDpush d a s
  | .dpop d a => Sys2Proof.Machine.execDpop d a s
  | .dsteal d a b => Sys2Proof.Machine.execDsteal d a b s
  | .hbind d a b => Sys2Proof.Machine.execHbind d a b s
  | .hhold d a => Sys2Proof.Machine.execHhold d a s
  | .hrel d a => Sys2Proof.Machine.execHrel d a s
  | .launch d a b => Sys2Proof.Machine.execLaunch d a b s
  | .tid d a => Sys2Proof.Machine.execTid d a s
  | .migrate a => Sys2Proof.Machine.execMigrate a s
  | .rcmask d a => Sys2Proof.Machine.execRcmask d a s
  | .put p b => Sys2Proof.Machine.execPut p b s
  | .get d p b => Sys2Proof.Machine.execGet d p b s
  | .offer p b => Sys2Proof.Machine.execOffer p b s
  | .alt d a b => Sys2Proof.Machine.execAlt d a b s
  | .poll d p => Sys2Proof.Machine.execPoll d p s
  | .pwd d p => Sys2Proof.Machine.execPwd d p s
  | .cload d a => Sys2Proof.Machine.execCload d a s
  | .cunload d a => Sys2Proof.Machine.execCunload d a s
  | .cbind d p b => Sys2Proof.Machine.execCbind d p b s
  | .pstat d p => Sys2Proof.Machine.execPstat d p s
  | .cpy d a b => Sys2Proof.Machine.execCpy d a b s
  | .cpyM d a b => Sys2Proof.Machine.execCpyM d a b s
  | .cmcast d a b => Sys2Proof.Machine.execCmcast d a b s
  | .cseal d => Sys2Proof.Machine.execCseal d s
  | .cwait d a => Sys2Proof.Machine.execCwait d a s
  | .wmk d a => Sys2Proof.Machine.execWmk d a s
  | .cresume a => Sys2Proof.Machine.execCresume a s
  | .cabort a => Sys2Proof.Machine.execCabort a s
  | .streamOn a b => Sys2Proof.Machine.execStreamOn a b s
  | .streamOff d => Sys2Proof.Machine.execStreamOff d s
  | .rbind d a => Sys2Proof.Machine.execRbind d a s
  | .fold d x sx b => Sys2Proof.Machine.execFold d x sx b s
  | .scan d x e sx b => Sys2Proof.Machine.execScan d x e sx b s
  | .zip e sx b => Sys2Proof.Machine.execZip e sx b s
  | .outer t a b => Sys2Proof.Machine.execOuter t a b s
  | .hstat d a => Sys2Proof.Machine.execHstat d a s
  | .vadd d a b k f => Sys2Proof.Machine.execVadd d a b k f s
  | .vsub d a b k f => Sys2Proof.Machine.execVsub d a b k f s
  | .vmul d a b k f => Sys2Proof.Machine.execVmul d a b k f s
  | .vfma d a b k f => Sys2Proof.Machine.execVfma d a b k f s
  | .vfms d a b k f => Sys2Proof.Machine.execVfms d a b k f s
  | .vfnma d a b k f => Sys2Proof.Machine.execVfnma d a b k f s
  | .vmin d a b k f => Sys2Proof.Machine.execVmin d a b k f s
  | .vmax d a b k f => Sys2Proof.Machine.execVmax d a b k f s
  | .vabs d a k f => Sys2Proof.Machine.execVabs d a k f s
  | .vneg d a k f => Sys2Proof.Machine.execVneg d a k f s
  | .vrcp d a k f => Sys2Proof.Machine.execVrcp d a k f s
  | .vrsqrt d a k f => Sys2Proof.Machine.execVrsqrt d a k f s
  | .vexp2 d a k f => Sys2Proof.Machine.execVexp2 d a k f s
  | .vlog2 d a k f => Sys2Proof.Machine.execVlog2 d a k f s
  | .vmov d a k f => Sys2Proof.Machine.execVmov d a k f s
  | .vnot d a k f => Sys2Proof.Machine.execVnot d a k f s
  | .vand d a b k => Sys2Proof.Machine.execVand d a b k s
  | .vor d a b k => Sys2Proof.Machine.execVor d a b k s
  | .vxor d a b k => Sys2Proof.Machine.execVxor d a b k s
  | .vshl d a b k f => Sys2Proof.Machine.execVshl d a b k f s
  | .vshr d a b k f => Sys2Proof.Machine.execVshr d a b k f s
  | .vsar d a b k f => Sys2Proof.Machine.execVsar d a b k f s
  | .vsel d a b k => Sys2Proof.Machine.execVsel d a b k s
  | .vbscale d a b k f => Sys2Proof.Machine.execVbscale d a b k f s
  | .vcmp kd a b k f cc => Sys2Proof.Machine.execVcmp kd a b k f cc s
  | .vcvt d a src k f => Sys2Proof.Machine.execVcvt d a src k f s
  | .vcvtSat d a src k f => Sys2Proof.Machine.execVcvtSat d a src k f s
  | .vcvtSr d a src k f => Sys2Proof.Machine.execVcvtSr d a src k f s
  | .vpack d a j k f => Sys2Proof.Machine.execVpack d a j k f s
  | .vunpack d a j k f => Sys2Proof.Machine.execVunpack d a j k f s
  | .vdecode d a j k f => Sys2Proof.Machine.execVdecode d a j k f s
  | .vins d a b f => Sys2Proof.Machine.execVins d a b f s
  | .vext d a b f => Sys2Proof.Machine.execVext d a b f s
  | .vredAdd d a k f => Sys2Proof.Machine.execVredAdd d a k f s
  | .vredMax d a k f => Sys2Proof.Machine.execVredMax d a k f s
  | .vredMin d a k f => Sys2Proof.Machine.execVredMin d a k f s
  | .vperm d a b k => Sys2Proof.Machine.execVperm d a b k s
  | .vbcast d a k f => Sys2Proof.Machine.execVbcast d a k f s
  | .vslide d a b k => Sys2Proof.Machine.execVslide d a b k s
  | .vcompact d a k => Sys2Proof.Machine.execVcompact d a k s
  | .vexpand d a k => Sys2Proof.Machine.execVexpand d a k s
  | .vpopk d ka => Sys2Proof.Machine.execVpopk d ka s
  | .kand kd ka kb => Sys2Proof.Machine.execKand kd ka kb s
  | .kor kd ka kb => Sys2Proof.Machine.execKor kd ka kb s
  | .kxor kd ka kb => Sys2Proof.Machine.execKxor kd ka kb s
  | .knot kd ka => Sys2Proof.Machine.execKnot kd ka s
  | .kmov kd ka => Sys2Proof.Machine.execKmov kd ka s
  | .vldl d a sp k x => Sys2Proof.Machine.execVldl d a sp k x s
  | .vldlPrefixed d a sp k x c ext => Sys2Proof.Machine.execVldlPrefixed d a sp k x c ext s
  | .vstl d a sp k x => Sys2Proof.Machine.execVstl d a sp k x s
  | .vstlPrefixed d a sp k x c ext => Sys2Proof.Machine.execVstlPrefixed d a sp k x c ext s
  | .vld d a sp k f x => Sys2Proof.Machine.execVld d a sp k f x s
  | .vldPrefixed d a sp k f x c ext => Sys2Proof.Machine.execVldPrefixed d a sp k f x c ext s
  | .vst d a sp k f x => Sys2Proof.Machine.execVst d a sp k f x s
  | .vstPrefixed d a sp k f x c ext => Sys2Proof.Machine.execVstPrefixed d a sp k f x c ext s
  | .vgather d a sp k f x => Sys2Proof.Machine.execVgather d a sp k f x s
  | .vgatherPrefixed d a sp k f x c => Sys2Proof.Machine.execVgatherPrefixed d a sp k f x c s
  | .vscatter d a sp k f x => Sys2Proof.Machine.execVscatter d a sp k f x s
  | .vscatterPrefixed d a sp k f x c => Sys2Proof.Machine.execVscatterPrefixed d a sp k f x c s
  | .mma t fa fb a => Sys2Proof.Machine.execMma t fa fb a s
  | .mcfg d a b => Sys2Proof.Machine.execMcfg d a b s
  | .mzero k t => Sys2Proof.Machine.execMzero k t s
  | .mloadA k t a => Sys2Proof.Machine.execMloadA k t a s
  | .mlatchB a => Sys2Proof.Machine.execMlatchB a s
  | .mrot => Sys2Proof.Machine.execMrot s
  | .mring a b => Sys2Proof.Machine.execMring a b s
  | .msum t a => Sys2Proof.Machine.execMsum t a s
  | .mscale t a b => Sys2Proof.Machine.execMscale t a b s
  | .mdrain t a b => Sys2Proof.Machine.execMdrain t a b s
  | .mstat d => Sys2Proof.Machine.execMstat d s
  | .mmaF64 t a => Sys2Proof.Machine.execMmaF64 t a s
  | .vdiv d a b k f => Sys2Proof.Machine.execVdiv d a b k f s
  | .vsqrt d a k f => Sys2Proof.Machine.execVsqrt d a k f s
  | .vexp d a k f => Sys2Proof.Machine.execVexp d a k f s
  | .vlog d a k f => Sys2Proof.Machine.execVlog d a k f s
  | .glaunch a b => Sys2Proof.Machine.execGlaunch a b s
  | .gres a => Sys2Proof.Machine.execGres a s
  | .evcfg d a b => Sys2Proof.Machine.execEvcfg d a b s
  | .evsig a b => Sys2Proof.Machine.execEvsig a b s
  | .migration t => Sys2Proof.Machine.execMigration t s
  | .migrationAdmit t slot base => Sys2Proof.Machine.execMigrationAdmit t slot base s
  | .migrationContextLoaded t => Sys2Proof.Machine.execMigrationContextLoaded t s
  | .dispatch core slot base => Sys2Proof.Machine.execDispatch core slot base s
  | .contextLoaded t => Sys2Proof.Machine.execContextLoaded t s
  | .retiredToFree t => Sys2Proof.Machine.execRetiredToFree t s
  | .kill t => Sys2Proof.Machine.execKill t s
  | .pageResident asid va => Sys2Proof.Machine.execPageResident asid va s
  | .pageDeclaredInvalid asid va => Sys2Proof.Machine.execPageDeclaredInvalid asid va s
  | .coreError t => Sys2Proof.Machine.execCoreError t s
  | .engineInterrupt t => Sys2Proof.Machine.execEngineInterrupt t s
  | .sysRelease t served writes => Sys2Proof.Machine.execSysRelease t served writes s
  | .debuggerStop t => Sys2Proof.Machine.execDebuggerStop t s
  | .debuggerResume t => Sys2Proof.Machine.execDebuggerResume t s
  | .holdRequest die => Sys2Proof.Machine.execHoldRequest die s
  | .joinReread t => Sys2Proof.Machine.execJoinReread t s
  | .waitvReread t => Sys2Proof.Machine.execWaitvReread t s
  | .idleDeadline t => Sys2Proof.Machine.execIdleDeadline t s
  | .flagTreeUpdate n => Sys2Proof.Machine.execFlagTreeUpdate n s
  | .drain t w => Sys2Proof.Machine.execDrain t w s
  | .arrive w => Sys2Proof.Machine.execArrive w s
  | .atomicAtHome w => Sys2Proof.Machine.execAtomicAtHome w s
  | .settle w => Sys2Proof.Machine.execSettle w s
  | .cacheCopyDrop core line => Sys2Proof.Machine.execCacheCopyDrop core line s
  | .messageRingArrival m => Sys2Proof.Machine.execMessageRingArrival m s
  | .ringWaitExpiry m => Sys2Proof.Machine.execRingWaitExpiry m s
  | .negativeAcknowledgement m => Sys2Proof.Machine.execNegativeAcknowledgement m s
  | .mailboxMessage m => Sys2Proof.Machine.execMailboxMessage m s
  | .globalQueueRecord m => Sys2Proof.Machine.execGlobalQueueRecord m s
  | .stealAttempt core => Sys2Proof.Machine.execStealAttempt core s
  | .stealOperation core => Sys2Proof.Machine.execStealOperation core s
  | .stealReply core slot base => Sys2Proof.Machine.execStealReply core slot base s
  | .teamAdmission grid quad places => Sys2Proof.Machine.execTeamAdmission grid quad places s
  | .timeSliceExpiry quad team => Sys2Proof.Machine.execTimeSliceExpiry quad team s
  | .preemptionRequest quad cls victims => Sys2Proof.Machine.execPreemptionRequest quad cls victims s
  | .halt t => Sys2Proof.Machine.execHalt t s
  | .swapSave t => Sys2Proof.Machine.execSwapSave t s
  | .restore n t base => Sys2Proof.Machine.execRestore n t base s
  | .matrixCommandComplete core => Sys2Proof.Machine.execMatrixCommandComplete core s
  | .matrixGate core => Sys2Proof.Machine.execMatrixGate core s
  | .latchStream core => Sys2Proof.Machine.execLatchStream core s
  | .latchFlip core => Sys2Proof.Machine.execLatchFlip core s
  | .engineRelease core => Sys2Proof.Machine.execEngineRelease core s
  | .mdrainWakeup m => Sys2Proof.Machine.execMdrainWakeup m s
  | .routineCommandComplete core => Sys2Proof.Machine.execRoutineCommandComplete core s
  | .copyGate core slot => Sys2Proof.Machine.execCopyGate core slot s
  | .unitLand core slot => Sys2Proof.Machine.execUnitLand core slot s
  | .copyComplete core slot => Sys2Proof.Machine.execCopyComplete core slot s
  | .copyFreeze core slot => Sys2Proof.Machine.execCopyFreeze core slot s
  | .freezeServedByTardar core slot => Sys2Proof.Machine.execFreezeServedByTardar core slot s
  | .copyAbortComplete core slot => Sys2Proof.Machine.execCopyAbortComplete core slot s
  | .inboundEntryGrant core => Sys2Proof.Machine.execInboundEntryGrant core s
  | .stripFill core slot => Sys2Proof.Machine.execStripFill core slot s
  | .multicastAcknowledgement core slot receiver => Sys2Proof.Machine.execMulticastAcknowledgement core slot receiver s
  | .multicastRequest core slot => Sys2Proof.Machine.execMulticastRequest core slot s
  | .guardPairDispatch quad entry core slots bases => Sys2Proof.Machine.execGuardPairDispatch quad entry core slots bases s
  | .termFire core term => Sys2Proof.Machine.execTermFire core term s
  | .softwareLinePulse m => Sys2Proof.Machine.execSoftwareLinePulse m s
  | .offerArrival quad core => Sys2Proof.Machine.execOfferArrival quad core s
  | .fire quad cslot => Sys2Proof.Machine.execFire quad cslot s
  | .fireArrival quad core => Sys2Proof.Machine.execFireArrival quad core s
  | .withdraw quad core => Sys2Proof.Machine.execWithdraw quad core s
  | .withdrawReply quad core => Sys2Proof.Machine.execWithdrawReply quad core s
  | .bindingRequest quad core => Sys2Proof.Machine.execBindingRequest quad core s
  | .bindingReply quad core => Sys2Proof.Machine.execBindingReply quad core s
  | .barrierRelease scope inst index => Sys2Proof.Machine.execBarrierRelease scope inst index s
  | .sectorFill asid line sector => Sys2Proof.Machine.execSectorFill asid line sector s
  | .eviction asid line => Sys2Proof.Machine.execEviction asid line s
  | .sliceTranslation asid va pkg => Sys2Proof.Machine.execSliceTranslation asid va pkg s
  | .attributeQuery unit asid va => Sys2Proof.Machine.execAttributeQuery unit asid va s
  | .pendScan stack => Sys2Proof.Machine.execPendScan stack s
  | .replication asid line => Sys2Proof.Machine.execReplication asid line s
  | .withdrawAck asid line unit => Sys2Proof.Machine.execWithdrawAck asid line unit s
  | .hostWindowWrite fn q off data => Sys2Proof.Machine.execHostWindowWrite fn q off data s
  | .hostWindowRead fn q off n => Sys2Proof.Machine.execHostWindowRead fn q off n s
  | .wbase fn q v => Sys2Proof.Machine.execWbase fn q v s
  | .coldStart => Sys2Proof.Machine.execColdStart s
  | .warmStart => Sys2Proof.Machine.execWarmStart s
  | .stageComplete => Sys2Proof.Machine.execStageComplete s
  | .stageFailure code => Sys2Proof.Machine.execStageFailure code s
  | .stageTimeout => Sys2Proof.Machine.execStageTimeout s
  | .getMeasurements => Sys2Proof.Machine.execGetMeasurements s
  | .correctableError die loc => Sys2Proof.Machine.execCorrectableError die loc s
  | .coolantOutOfLimits => Sys2Proof.Machine.execCoolantOutOfLimits s
  | .coolantWithinLimits => Sys2Proof.Machine.execCoolantWithinLimits s
  | .collectiveRequestTaken die => Sys2Proof.Machine.execCollectiveRequestTaken die s
  | .reservationGrant die => Sys2Proof.Machine.execReservationGrant die s
  | .chunkWritten die coll chunk => Sys2Proof.Machine.execChunkWritten die coll chunk s
  | .finalAck coll chunk => Sys2Proof.Machine.execFinalAck coll chunk s
  | .chunkFailure coll chunk => Sys2Proof.Machine.execChunkFailure coll chunk s
  | .chunkNoProgress coll chunk => Sys2Proof.Machine.execChunkNoProgress coll chunk s
  | .memberLost coll => Sys2Proof.Machine.execMemberLost coll s
  | .collectiveEnd die coll => Sys2Proof.Machine.execCollectiveEnd die coll s
  | .linkFailure link => Sys2Proof.Machine.execLinkFailure link s
  | .noPath pkg => Sys2Proof.Machine.execNoPath pkg s
  | .rootSwitchOrder w => Sys2Proof.Machine.execRootSwitchOrder w s
  | .switchCombine w1 w2 => Sys2Proof.Machine.execSwitchCombine w1 w2 s
  | .moveRequest asid va dest made => Sys2Proof.Machine.execMoveRequest asid va dest made s
  | .skewMeasurement die nbr t1 t2 t3 t4 => Sys2Proof.Machine.execSkewMeasurement die nbr t1 t2 t3 t4 s
  | .lamportDelivery die carried => Sys2Proof.Machine.execLamportDelivery die carried s
  | .traceRecord die unit => Sys2Proof.Machine.execTraceRecord die unit s
  | .jobStart j => Sys2Proof.Machine.execJobStart j s
  | .jobEnd job => Sys2Proof.Machine.execJobEnd job s
  | .tracectlWrite die base v => Sys2Proof.Machine.execTracectlWrite die base v s
  | .debuggerAttach job on t brk watch => Sys2Proof.Machine.execDebuggerAttach job on t brk watch s

end Sys2Proof.Machine
end

