-- ==== Sys2Proof/Machine/Step.lean ====
section
/-! DEFINITION. One move of the machine (R276, DESIGN CHOICE, log 2): the next scheduled move, else the context in focus issues. -/

namespace Sys2Proof.Machine

/-- What a context at hand does: it takes what was pending at its boundary, or runs the instruction of its frame or of its
program counter (R23, R25, R77, R108, R114, R213). -/
def issueStep (s : State) : Host.Outcome State Fault Refusal :=
  match s.issueChoice with
  | .done t => .next t
  | .run i t => exec i t

/-- A scheduled move: a context issues, an event of the opcode table happens, or one of what lies outside the machine (R276, DESIGN CHOICE, log 2). -/
def moveStep (m : Move) (s : State) : Host.Outcome State Fault Refusal :=
  match m with
  | .issue t => issueStep { s with focus := t }
  | .event i => if isEvent i then exec i s else .next s
  | .pass c n => .next (s.pass c n)
  | .entry pa e => .next (s.writeEntry pa e)
  | .peer asid va members root => .next (s.writePeer asid va members root)
  | .mqHead n => .next (s.mqRead n)
  | .record frame whole => .next (s.clearRecord frame whole)
  | .msix fn vector => .next (s.msix fn vector)
  | .bar2 fn off v => .next (s.bar2 fn off v)
  | .poisonedWrite fn window off data => .next (s.hostAsks window (.write fn off data true))
  | .spdm r => .next (s.spdm r)
  | .remote pkg asid va bytes mask op rel => .next (s.remoteWrite pkg asid va bytes mask op rel)
  | .upset u => .next (s.upset u)
  | .coolant inlet flow => coolantIs inlet flow s
  | .image i => .next { s with image := i }
  | .tardar f => .next { s with tardar := f }

/-- What a device that stopped still does (R335-R337): power-on starts it anew, its mailboxes answer, and an image may be stored for that start. -/
def Move.afterStop : Move → Bool
  | .event .coldStart => true
  | .event .getMeasurements => true
  | .bar2 _ _ _ => true
  | .spdm _ => true
  | .image _ => true
  | .tardar _ => true
  | _ => false

/-- The cycles that a move takes are counted as search cycles of the cores that search (R300). -/
def timed (s : State) : Host.Outcome State Fault Refusal → Host.Outcome State Fault Refusal
  | .next t => .next (s.searched t)
  | o => o

/-- One step: the next scheduled move, else the context in focus issues; in a device that stopped nothing issues, and a move that it does
not take has no effect (R337). -/
def step (s : State) : Host.Outcome State Fault Refusal :=
  match s.schedule with
  | [] => if s.boot.fail then .next s else timed s (issueStep s)
  | m :: r => if s.boot.fail && !m.afterStop then .next { s with schedule := r } else timed s (moveStep m { s with schedule := r })

/-- The machine with an instruction's bytes at the place its next instruction is fetched from (DESIGN CHOICE, log 1): the context in focus runs
there, its page is executable, the L2 line holds the bytes. -/
def State.withFetchWord (s : State) (nbits w : Nat) : State := s.placeCode (tableBytes nbits w)

end Sys2Proof.Machine
end

