-- ==== Sys2Proof/Certificates/Slice0/Obligations.lean ====
section
/-! DEFINITION. The statements for the provers: what the instructions and the machine do, by the numbered rules of the manual. -/

open Sys2Proof Sys2Proof.Machine

/-! ### What a statement says of the next state -/

/-- The state after an instruction of n bytes whose one effect is to write v to scalar register d: g0 keeps 0 (R13), the PC or the
repeat frame moves on (R59, R77); every other register, every flag, all memory and every other part of the machine is as it was. -/
def Claims.wrote (s : State) (d : Gpr) (v : Word) (n : Nat) : State :=
  { s with tasks := tput s.tasks s.focus (Task.next n { s.task s.focus with
      g := if d = 0 then (s.task s.focus).g else (s.task s.focus).g.set d.toNat v }) }

/-- The state after an instruction of n bytes that has no effect. -/
def Claims.passed (s : State) (n : Nat) : State := { s with tasks := tput s.tasks s.focus (Task.next n (s.task s.focus)) }

/-- The barriers a task still stands in after an instruction that is no `bar`: those it met on the other side of its trap entry (R286). -/
def Claims.barsLeft (x : Task) : List BarWait := x.bars.filter fun b => b.nest != x.nest

/-- The state after a branch: PC := target, nothing else. -/
def Claims.jumped (s : State) (target : Nat) : State :=
  { s with tasks := tput s.tasks s.focus { s.task s.focus with
      pc := BitVec.ofNat 64 (target % 2 ^ 56), skipStop := 0, bars := Claims.barsLeft (s.task s.focus) } }

/-- The task does not buffer its writes, and nothing is left of a buffer it has committed (R101, R111). -/
def Claims.direct (x : Task) : Prop := x.buffers = false ∧ x.shadow = []

/-- A scalar register as a numbered rule reads it (R13). -/
def Claims.reg (s : State) (r : Gpr) : Word := if r = 0 then 0 else (s.task s.focus).g[r.toNat]

/-- The instruction traps at its own address: the trap of R104 and R108 with this cause, SUB, TRAPVAL and TRAPINFO, and nothing
else of it happens (R74). What a trap does is stated by `TrapEntry`: it is delivered, or recorded where a halt takes the boundary (R113). -/
def Claims.traps (i : Instr) (s : State) (cause sub : Nat) (val : Word) (info : Option Word) : Prop :=
  exec i s = .next (s.trapAt s.me.here cause sub val info)

/-! ### Scalar instructions (R80-R89) -/

/-- `add`, `sub`, `mul`, `mulh`, `mulhn`, the minima and maxima: D receives the value R81 gives, and nothing else changes. -/
def Claims.arithmeticResults : Prop :=
  ∀ (s : State) (d a b : Gpr), let x := Claims.reg s a; let y := Claims.reg s b
    exec (.add d a b) s = .next (Claims.wrote s d (BitVec.ofNat 64 (x.toNat + y.toNat)) 4) ∧
    exec (.sub d a b) s = .next (Claims.wrote s d (BitVec.ofInt 64 (x.toInt - y.toInt)) 4) ∧
    exec (.min d a b) s = .next (Claims.wrote s d (if x.toInt < y.toInt then x else y) 4) ∧
    exec (.minn d a b) s = .next (Claims.wrote s d (if x.toNat < y.toNat then x else y) 4) ∧
    exec (.max d a b) s = .next (Claims.wrote s d (if x.toInt > y.toInt then x else y) 4) ∧
    exec (.maxn d a b) s = .next (Claims.wrote s d (if x.toNat > y.toNat then x else y) 4) ∧
    exec (.mul d a b) s = .next (Claims.wrote s d (BitVec.ofNat 64 (x.toNat * y.toNat)) 4) ∧
    exec (.mulh d a b) s = .next (Claims.wrote s d (BitVec.ofInt 64 (x.toInt * y.toInt / 2 ^ 64)) 4) ∧
    exec (.mulhn d a b) s = .next (Claims.wrote s d (BitVec.ofNat 64 (x.toNat * y.toNat / 2 ^ 64)) 4)

/-- Logic, shifts and bit counts: D receives the value R81 gives; a shift uses only B[5:0]. -/
def Claims.logicAndShiftResults : Prop :=
  ∀ (s : State) (d a b : Gpr), let x := Claims.reg s a; let y := Claims.reg s b; let n := y.toNat % 64
    exec (.and d a b) s = .next (Claims.wrote s d (x &&& y) 4) ∧
    exec (.or d a b) s = .next (Claims.wrote s d (x ||| y) 4) ∧
    exec (.xor d a b) s = .next (Claims.wrote s d (x ^^^ y) 4) ∧
    exec (.andn d a b) s = .next (Claims.wrote s d (x &&& ~~~y) 4) ∧
    exec (.shl d a b) s = .next (Claims.wrote s d (BitVec.ofNat 64 (x.toNat * 2 ^ n)) 4) ∧
    exec (.shr d a b) s = .next (Claims.wrote s d (BitVec.ofNat 64 (x.toNat / 2 ^ n)) 4) ∧
    exec (.sar d a b) s = .next (Claims.wrote s d (BitVec.ofInt 64 (x.toInt / 2 ^ n)) 4) ∧
    exec (.rol d a b) s = .next (Claims.wrote s d (BitVec.ofNat 64 (x.toNat * 2 ^ n + x.toNat / 2 ^ (64 - n))) 4) ∧
    (∃ k, (x = 0 → k = 64) ∧ (x ≠ 0 → k < 64 ∧ x.getLsbD (63 - k) = true ∧ ∀ j, 63 - k < j → x.getLsbD j = false) ∧
      exec (.clz d a) s = .next (Claims.wrote s d (BitVec.ofNat 64 k) 4)) ∧
    (∃ k, (x = 0 → k = 64) ∧ (x ≠ 0 → x.getLsbD k = true ∧ ∀ j, j < k → x.getLsbD j = false) ∧
      exec (.ctz d a) s = .next (Claims.wrote s d (BitVec.ofNat 64 k) 4)) ∧
    exec (.popc d a) s = .next (Claims.wrote s d (BitVec.ofNat 64 ((List.range 64).filter fun j => x.getLsbD j).length) 4)

/-- Division never traps: the quotients and remainders of R82 with their corners, and A = B × quotient + remainder modulo 2^64. -/
def Obligations.DivisionResults : Prop :=
  ∀ (s : State) (d a b : Gpr), let x := Claims.reg s a; let y := Claims.reg s b
    let q : Word := if y = 0 then BitVec.ofInt 64 (-1) else if x.toInt = -2 ^ 63 ∧ y.toInt = -1 then BitVec.ofInt 64 (-2 ^ 63)
      else BitVec.ofInt 64 (x.toInt.tdiv y.toInt)
    let r : Word := if y = 0 then x else if x.toInt = -2 ^ 63 ∧ y.toInt = -1 then 0
      else BitVec.ofInt 64 (x.toInt - y.toInt * x.toInt.tdiv y.toInt)
    let qn : Word := if y = 0 then BitVec.ofNat 64 (2 ^ 64 - 1) else BitVec.ofNat 64 (x.toNat / y.toNat)
    let rn : Word := if y = 0 then x else BitVec.ofNat 64 (x.toNat % y.toNat)
    exec (.div d a b) s = .next (Claims.wrote s d q 4) ∧ exec (.rem d a b) s = .next (Claims.wrote s d r 4) ∧
    exec (.divn d a b) s = .next (Claims.wrote s d qn 4) ∧ exec (.remn d a b) s = .next (Claims.wrote s d rn 4) ∧
    (y ≠ 0 → y * q + r = x ∧ y * qn + rn = x)

/-- A[pos + len - 1 : pos] with every bit at or above 64 reading as zero (R69). -/
def Claims.field (x : Word) (pos len : Nat) : Nat := x.toNat / 2 ^ pos % 2 ^ len

/-- The bitfield instructions (R69, R85), bit by bit: `zext` and `ext` zero-extend the field, `sext` extends from its highest extracted bit,
`ins` replaces D's field and keeps D's other bits. LEN is the encoded field plus 1. -/
def Obligations.BitfieldResults : Prop :=
  ∀ (s : State) (d a b : Gpr) (pos len : BitVec 6), let x := Claims.reg s a; let y := Claims.reg s b
    let p := pos.toNat; let l := len.toNat + 1; let f := Claims.field x p l
    exec (.zext d a pos len) s = .next (Claims.wrote s d (BitVec.ofNat 64 f) 4) ∧
    exec (.sext d a pos len) s = .next (Claims.wrote s d (BitVec.ofInt 64 (if f < 2 ^ (l - 1) then (f : Int) else f - (2 ^ l : Nat))) 4) ∧
    (∃ v : Word, exec (.ins d a pos len) s = .next (Claims.wrote s d v 4) ∧
      ∀ j, j < 64 → v.getLsbD j = if p ≤ j ∧ j < p + l then x.getLsbD (j - p) else (Claims.reg s d).getLsbD j) ∧
    exec (.ext d a b) s = .next (Claims.wrote s d (BitVec.ofNat 64 (Claims.field x (y.toNat % 64) (y.toNat / 64 % 64 + 1))) 4)

/-- A cc B for the scalar condition codes 0-9 (R72). -/
def Claims.holds (cc : Nat) (x y : Word) : Prop :=
  (cc = 0 ∧ x = y) ∨ (cc = 1 ∧ x ≠ y) ∨ (cc = 2 ∧ x.toInt < y.toInt) ∨ (cc = 3 ∧ x.toInt ≥ y.toInt) ∨
  (cc = 4 ∧ x.toNat < y.toNat) ∨ (cc = 5 ∧ x.toNat ≥ y.toNat) ∨ (cc = 6 ∧ x.toInt ≤ y.toInt) ∨ (cc = 7 ∧ x.toInt > y.toInt) ∨
  (cc = 8 ∧ x.toNat ≤ y.toNat) ∨ (cc = 9 ∧ x.toNat > y.toNat)

/-- `cmp.cc` sets D to 1 when A cc B holds under R72 and to 0 otherwise; its codes 10-15 decode to no instruction. `sel` sets D to A if D is
not 0, else to B, with D read before it is written (R83). -/
def Obligations.CompareAndSelect : Prop :=
  (∀ (s : State) (d a b : Gpr) (cc : BitVec 4), cc.toNat < 10 →
    (Claims.holds cc.toNat (Claims.reg s a) (Claims.reg s b) → exec (.cmp d a b cc) s = .next (Claims.wrote s d 1 4)) ∧
    (¬Claims.holds cc.toNat (Claims.reg s a) (Claims.reg s b) → exec (.cmp d a b cc) s = .next (Claims.wrote s d 0 4))) ∧
  (∀ (s : State) (d a b : Gpr),
    exec (.sel d a b) s = .next (Claims.wrote s d (if Claims.reg s d ≠ 0 then Claims.reg s a else Claims.reg s b) 4)) ∧
  (∀ (w : Half32), fld w 26 6 = 0x05 → fld w 4 4 = 0 → 10 ≤ (fld w 0 4).toNat → decodeWord w = .error .badMinor)

/-- The fat-pointer instructions (R86): `ptag`, `pfmt` and `pstrip` move the tag byte [63:56] and the address [55:0]. `padd` adds B to the
address exactly; a sum below 0 or from 2^56 on traps BOUND with SUB 1 (R105), A in TRAPVAL and B in TRAPINFO, and writes nothing (R87). -/
def Obligations.FatPointers : Prop :=
  ∀ (s : State) (d a b : Gpr), let x := Claims.reg s a; let y := Claims.reg s b
    let t : Int := (x.toNat % 2 ^ 56 : Nat) + y.toInt
    exec (.ptag d a b) s = .next (Claims.wrote s d (BitVec.ofNat 64 (y.toNat % 256 * 2 ^ 56 + x.toNat % 2 ^ 56)) 4) ∧
    exec (.pfmt d a) s = .next (Claims.wrote s d (BitVec.ofNat 64 (x.toNat / 2 ^ 56)) 4) ∧
    exec (.pstrip d a) s = .next (Claims.wrote s d (BitVec.ofNat 64 (x.toNat % 2 ^ 56)) 4) ∧
    (0 ≤ t → t < 2 ^ 56 → exec (.padd d a b) s = .next (Claims.wrote s d (BitVec.ofNat 64 (x.toNat / 2 ^ 56 * 2 ^ 56 + t.toNat)) 4)) ∧
    (t < 0 ∨ 2 ^ 56 ≤ t → Claims.traps (.padd d a b) s 8 1 x (some y))

/-- The immediate instructions (R84), the prefixed forms of `addi` and `ldi` with their wider immediate. -/
def Obligations.ImmediateResults : Prop :=
  ∀ (s : State) (d a : Gpr), let x := Claims.reg s a
    (∀ imm : BitVec 14, exec (.addi d a imm) s = .next (Claims.wrote s d (BitVec.ofInt 64 (x.toInt + imm.toInt)) 4)) ∧
    (∀ imm : BitVec 34, exec (.addiPrefixed d a imm) s = .next (Claims.wrote s d (BitVec.ofInt 64 (x.toInt + imm.toInt)) 8)) ∧
    (∀ n : BitVec 6, exec (.shli d a n) s = .next (Claims.wrote s d (BitVec.ofNat 64 (x.toNat * 2 ^ n.toNat)) 4) ∧
      exec (.shri d a n) s = .next (Claims.wrote s d (BitVec.ofNat 64 (x.toNat / 2 ^ n.toNat)) 4) ∧
      exec (.sari d a n) s = .next (Claims.wrote s d (BitVec.ofInt 64 (x.toInt / 2 ^ n.toNat)) 4)) ∧
    (∀ imm : BitVec 20, exec (.ldi d imm) s = .next (Claims.wrote s d (BitVec.ofInt 64 imm.toInt) 4) ∧
      exec (.ldih d imm) s = .next (Claims.wrote s d (BitVec.ofNat 64 ((Claims.reg s d).toNat % 2 ^ 44 * 2 ^ 20 + imm.toNat)) 4)) ∧
    (∀ imm : BitVec 40, exec (.ldiPrefixed d imm) s = .next (Claims.wrote s d (BitVec.ofInt 64 imm.toInt) 8))

/-! ### Branches and the repeat frame (R59, R76-R78, R88, R89) -/

/-- PC + 4 × sext(OFF), modulo 2^56 (R88, R89). -/
def Claims.target {n : Nat} (s : State) (off : BitVec n) : Nat := ((((s.task s.focus).pc.toNat : Int) + 4 * off.toInt) % 2 ^ 56).toNat

/-- Every PC-relative branch (R89): `br` and `jal` jump, `jal` links the address of the next instruction; `bc.cc`, `bz`, `bnz` and `loop`
jump when their condition holds and otherwise only move on; `loop` decides on the value it computed, also for g0. -/
def Claims.branchResults : Prop :=
  ∀ (s : State) (d a b : Gpr), let x := Claims.reg s a; let v := x - 1
    (∀ off : BitVec 26, exec (.br off) s = .next (Claims.jumped s (Claims.target s off))) ∧
    (∀ off : BitVec 20, exec (.jal d off) s = .next { s with tasks := tput s.tasks s.focus { s.task s.focus with
      g := if d = 0 then (s.task s.focus).g
        else (s.task s.focus).g.set d.toNat (BitVec.ofNat 64 (((s.task s.focus).pc.toNat + 4) % 2 ^ 56)),
      pc := BitVec.ofNat 64 (Claims.target s off), skipStop := 0, bars := Claims.barsLeft (s.task s.focus) } }) ∧
    (∀ (cc : BitVec 4) (off : BitVec 10), cc.toNat < 10 →
      (Claims.holds cc.toNat x (Claims.reg s b) → exec (.bc a b cc off) s = .next (Claims.jumped s (Claims.target s off))) ∧
      (¬Claims.holds cc.toNat x (Claims.reg s b) → exec (.bc a b cc off) s = .next (Claims.passed s 4))) ∧
    (∀ off : BitVec 17,
      (exec (.bz a off) s = .next (if x = 0 then Claims.jumped s (Claims.target s off) else Claims.passed s 4)) ∧
      (exec (.bnz a off) s = .next (if x ≠ 0 then Claims.jumped s (Claims.target s off) else Claims.passed s 4)) ∧
      (v ≠ 0 → exec (.loop a off) s = .next { s with tasks := tput s.tasks s.focus { s.task s.focus with
        g := if a = 0 then (s.task s.focus).g else (s.task s.focus).g.set a.toNat v,
        pc := BitVec.ofNat 64 (Claims.target s off), skipStop := 0, bars := Claims.barsLeft (s.task s.focus) } }) ∧
      (v = 0 → exec (.loop a off) s = .next (Claims.wrote s a 0 4)))

/-- `jr` and `ret` (R59, R88, R89): the tag byte is dropped and the target taken modulo 2^56; a target that is not a multiple of 4 does not
execute and traps MISALIGN with the target in TRAPVAL. -/
def Claims.indirectBranches : Prop :=
  ∀ (s : State) (a : Gpr) (off : BitVec 17), let x := Claims.reg s a
    let j := (((x.toNat : Int) + 4 * off.toInt) % 2 ^ 56).toNat; let r := x.toNat % 2 ^ 56
    (j % 4 = 0 → exec (.jr a off) s = .next (Claims.jumped s j)) ∧
    (j % 4 ≠ 0 → Claims.traps (.jr a off) s 2 0 (BitVec.ofNat 64 j) none) ∧
    (r % 4 = 0 → exec (.ret a) s = .next (Claims.jumped s r)) ∧
    (r % 4 ≠ 0 → Claims.traps (.ret a) s 2 0 (BitVec.ofNat 64 r) none)

/-- The arithmetic, logic, shift and bit-count instructions (R81). -/
def Obligations.ArithmeticAndLogicResults : Prop := Claims.arithmeticResults ∧ Claims.logicAndShiftResults

/-- Every branch: relative to the PC and through a register (R59, R88, R89). -/
def Obligations.BranchResults : Prop := Claims.branchResults ∧ Claims.indirectBranches

/-- `rep` (R76, R108): outside the trap entry, with a window of instructions that may stand in one, it captures the window, the count
A[31:0] and the strides, and goes to the window's first instruction; a count of 0 skips the window. A window with a word that may not
stand there traps ILLEGAL at the `rep` with that word. In the trap entry `rep` traps ILLEGAL. -/
def Claims.repeatCapture : Prop :=
  ∀ (s : State) (a : Gpr) (len : BitVec 4) (sd sa sb : BitVec 2) (l : List (Instr × Word × Nat)), let n := (Claims.reg s a).toNat % 2 ^ 32
    let x := s.task s.focus
    (x.nest = false → s.scanWindow (len.toNat + 1) (x.pc.toNat + 4) = (l, none, false) →
      (n ≠ 0 → exec (.rep a len sd sa sb) s = .next { s with tasks := tput s.tasks s.focus { x with
        frame := some ⟨l, n, 0, 0, sd.toNat, sa.toNat, sb.toNat⟩, pc := pcPlus x.pc 4, skipStop := 0, bars := Claims.barsLeft x } }) ∧
      (n = 0 → exec (.rep a len sd sa sb) s = .next (Claims.passed s (4 + (l.map fun e => e.2.2).sum)))) ∧
    (∀ v : Word, x.nest = false → s.scanWindow (len.toNat + 1) (x.pc.toNat + 4) = (l, some (.trap 1 0 v none), false) →
      Claims.traps (.rep a len sd sa sb) s 1 0 v none) ∧
    (x.nest = true → Claims.traps (.rep a len sd sa sb) s 1 0 (wordOf (.rep a len sd sa sb)) none)

/-- What the capture reads is what stands in memory: instruction after instruction from the word after the `rep`, a pair counting as one,
each of the set R76 permits. -/
def Claims.repeatWindow : Prop :=
  (∀ (s : State) (pc : Nat), s.scanWindow 0 pc = ([], none, false)) ∧
  (∀ (s : State) (k pc n : Nat) (i : Instr) (d : Bool), s.fetch s.focus pc = .ok (.instr i n d) → inWindow i = true →
    (s.scanWindow (k + 1) pc).1 = (i, pcPlus (s.task s.focus).pc (pc - (s.task s.focus).pc.toNat), n) :: (s.scanWindow k (pc + n)).1 ∧
    (s.scanWindow (k + 1) pc).2.1 = (s.scanWindow k (pc + n)).2.1) ∧
  (∀ (s : State) (k pc n : Nat) (i : Instr) (d : Bool), s.fetch s.focus pc = .ok (.instr i n d) → inWindow i = false →
    s.scanWindow (k + 1) pc = ([], some (.trap 1 0 (wordOf i) none), d)) ∧
  (∀ (s : State) (k pc : Nat) (v : Word) (d : Bool), s.fetch s.focus pc = .ok (.bad v d) →
    s.scanWindow (k + 1) pc = ([], some (.trap 1 0 v none), d)) ∧
  (∀ (s : State) (k pc : Nat) (e : Exit), s.fetch s.focus pc = .error e → s.scanWindow (k + 1) pc = ([], some e, false))

/-- What `rep` captures (R76): `Claims.repeatCapture` says what it does with a window, `Claims.repeatWindow` what it finds in memory. -/
def Claims.repeatCapturePart : Prop := Claims.repeatCapture ∧ Claims.repeatWindow

/-- A task whose instruction has completed: what it had begun is forgotten, and the barriers of its level are left. -/
def Claims.stepped (x : Task) : Task := { x with skipStop := 0, stalled := none, theft := none, bars := Claims.barsLeft x }

/-- The frame executes the window n times in order (R77): after instruction j of replay i comes j + 1, after the last one the next replay,
and after the last replay the instruction behind the window. Outside a frame the PC moves on by the instruction's length (R59). -/
def Claims.repeatAdvance : Prop :=
  (∀ (n : Nat) (x : Task), x.frame = none → Task.next n x =
    { Claims.stepped x with pc := BitVec.ofNat 64 ((x.pc.toNat + n) % 2 ^ 56) }) ∧
  (∀ (n : Nat) (x : Task) (f : Frame), x.frame = some f →
    (∀ e, f.window[f.j + 1]? = some e → Task.next n x =
      { Claims.stepped x with frame := some { f with j := f.j + 1 }, pc := e.2.1 }) ∧
    (∀ e, f.window.length ≤ f.j + 1 → f.i + 1 < f.n → f.window[0]? = some e →
      Task.next n x = { Claims.stepped x with frame := some { f with i := f.i + 1, j := 0 }, pc := e.2.1 }) ∧
    (∀ e, f.j + 1 = f.window.length → f.n ≤ f.i + 1 → f.window[f.j]? = some e →
      Task.next n x = { Claims.stepped x with frame := none, pc := BitVec.ofNat 64 ((e.2.1.toNat + n) % 2 ^ 56) }))

/-- The majors of the words in Vec form that a window may hold (R76). -/
def Claims.vecMajors : List Nat := [0x20, 0x21, 0x22, 0x23, 0x24, 0x25, 0x26, 0x31]

/-- What runs at (i, j) is window instruction j with its vector registers advanced modulo 32 (R77): every permitted word in Vec form, register by
register, with VD, VA and VB by their own strides; mask, scalar, format and immediate fields stay, and so does every other instruction. -/
def Claims.repeatRegisters : Prop :=
  ∀ (f : Frame) (pc : Word) (n : Nat) (d a b : Vr) (k kd : Kr) (m : Fmt), let at_ : Instr → Prop := fun i => f.window[f.j]? = some (i, pc, n)
    let r : Vr → Nat → Vr := fun v stride => BitVec.ofNat 5 ((v.toNat + f.i * stride) % 32)
    (∀ c ∈ ([.vadd, .vsub, .vmul, .vfma, .vfms, .vfnma, .vmin, .vmax, .vshl, .vshr, .vsar, .vbscale, .vdiv] :
      List (Vr → Vr → Vr → Kr → Fmt → Instr)), at_ (c d a b k m) → f.instr = some (c (r d f.sd) (r a f.sa) (r b f.sb) k m)) ∧
    (∀ c ∈ ([.vand, .vor, .vxor, .vsel, .vperm] : List (Vr → Vr → Vr → Kr → Instr)),
      at_ (c d a b k) → f.instr = some (c (r d f.sd) (r a f.sa) (r b f.sb) k)) ∧
    (∀ c ∈ ([.vabs, .vneg, .vrcp, .vrsqrt, .vexp2, .vlog2, .vredAdd, .vredMax, .vredMin, .vsqrt, .vexp, .vlog] :
      List (Vr → Vr → Kr → Fmt → Instr)), at_ (c d a k m) → f.instr = some (c (r d f.sd) (r a f.sa) k m)) ∧
    (∀ c ∈ ([.vcompact, .vexpand] : List (Vr → Vr → Kr → Instr)), at_ (c d a k) → f.instr = some (c (r d f.sd) (r a f.sa) k)) ∧
    (∀ cc : BitVec 3, at_ (.vcmp kd a b k m cc) → f.instr = some (.vcmp kd (r a f.sa) (r b f.sb) k m cc)) ∧
    (∀ c ∈ ([.vcvt, .vcvtSat, .vcvtSr] : List (Vr → Vr → Fmt → Kr → Fmt → Instr)), ∀ src, at_ (c d a src k m) →
      f.instr = some (c (r d f.sd) (r a f.sa) src k m)) ∧
    (∀ c ∈ ([.vpack, .vunpack] : List (Vr → Vr → BitVec 5 → Kr → Fmt → Instr)), ∀ j, at_ (c d a j k m) →
      f.instr = some (c (r d f.sd) (r a f.sa) j k m)) ∧
    (∀ c ∈ ([.vmov, .vnot] : List (Vr → Vr → Kr → BitVec 1 → Instr)), ∀ z, at_ (c d a k z) → f.instr = some (c (r d f.sd) (r a f.sa) k z)) ∧
    (∀ j : BitVec 3, at_ (.vdecode d a j k m) → f.instr = some (.vdecode (r d f.sd) (r a f.sa) j k m)) ∧
    (at_ (.vins d a b m) → f.instr = some (.vins (r d f.sd) a b m)) ∧ (at_ (.vext d a b m) → f.instr = some (.vext d (r a f.sa) b m)) ∧
    (at_ (.vbcast d a k m) → f.instr = some (.vbcast (r d f.sd) a k m)) ∧
    (at_ (.vslide d a b k) → f.instr = some (.vslide (r d f.sd) (r a f.sa) b k)) ∧
    (∀ (i : Instr) (w : Half32), at_ i → (encode i = [w] ∨ ∃ p, encode i = [p, w]) → (fld w 26 6).toNat ∉ Claims.vecMajors →
      f.instr = some i)

/-- g0 reads as zero and ignores writes, k0 reads as all ones and ignores writes (R13); every other register holds what was written, and a
write leaves every other register alone. -/
def Obligations.RegisterReads : Prop :=
  ∀ (x : Task) (d r : Gpr) (kd k : Kr) (vd v : Vr) (w : Word) (m : BitVec 256) (u : BitVec 8192),
    x.getG 0 = 0 ∧ x.setG 0 w = x ∧ (d ≠ 0 → (x.setG d w).getG d = w) ∧ (r ≠ d → (x.setG d w).getG r = x.getG r) ∧
    x.getK 0 = BitVec.allOnes 256 ∧ x.setK 0 m = x ∧ (kd ≠ 0 → (x.setK kd m).getK kd = m) ∧ (k ≠ kd → (x.setK kd m).getK k = x.getK k) ∧
    (x.setV vd u).getV vd = u ∧ (v ≠ vd → (x.setV vd u).getV v = x.getV v)

/-! ### Traps, their entry and the return (R104, R108-R110) -/

/-- TRAPCAUSE as R104 lays it out. -/
def Claims.cause (nest : Bool) (cause sub info : Nat) : Word :=
  BitVec.ofNat 64 ((if nest then 2 ^ 63 else 0) + sub * 2 ^ 8 + info * 2 ^ 5 + cause)

/-- TRAPINFO and INFO of a trap (R104): the frame's position with INFO = 1 where a window instruction raised it, else the cause's own with
INFO = 0; an ENGINE interrupt, cause 9, is never raised by a window instruction. -/
def Claims.info (x : Task) (cause : Nat) (info : Word) : Nat × Word :=
  match x.frame with
  | some f => if cause = 9 then (0, info) else (1, BitVec.ofNat 64 (f.j % 16 * 2 ^ 48 + f.i % 2 ^ 32))
  | none => (0, info)

/-- The context of a task as its trap entry finds it (R104, R108): the four trap registers describe the trap, NEST = 1, the repeat frame is
set aside, PC is the job trap entry; every other register of it is as it was, so no destination is written. What the instruction had begun
(a release, a wait for a slot) it begins anew. -/
def Claims.entered (x : Task) (entry pc : Word) (cause sub : Nat) (val info : Word) : Task :=
  { x with
    trapPc := BitVec.ofNat 64 (pc.toNat % 2 ^ 56), trapCause := Claims.cause true cause sub (Claims.info x cause info).1, trapVal := val,
    trapInfo := (Claims.info x cause info).2, frame := none, frameAside := x.frame, life := .running, portWait := none,
    pc := BitVec.ofNat 64 (entry.toNat % 2 ^ 56), skipStop := 0, stalled := none, theft := none,
    view := { x.view with relStarted := false } }

/-- The machine after a delivery: the TRAP record of R353 where such records are collected, the context, and the task no longer in `wait`. -/
def Claims.delivered (s : State) (t : Nat) (x y : Task) (pc : Word) (cause sub : Nat) (val info : Word) : State :=
  ((s.emitTask t 4 [Claims.cause x.nest cause sub (Claims.info x cause info).1, BitVec.ofNat 64 (pc.toNat % 2 ^ 56), val,
    (Claims.info x cause info).2]).setTask t y).leaveWaiters t

/-- Taking a trap (R104, R108): with a job trap entry, NEST = 0 and no debugger for it, the trap is delivered to the entry. -/
def Claims.trapEntry : Prop :=
  ∀ (s : State) (t : Nat) (pc : Word) (cause sub : Nat) (val info : Word), let x := s.task t; let j := s.job x.job
    cause < 32 → sub < 256 → x.nest = false → j.desc.trapEntry ≠ 0 → (j.debugger = false ∨ (cause ≠ 10 ∧ cause ≠ 12)) →
    s.deliver t pc cause sub val (some info) =
      Claims.delivered s t x (Claims.entered x j.desc.trapEntry pc cause sub val info) pc cause sub val info

/-- `trap` delivers SYS with SUB 0 and A, `bkpt` delivers BKPT with SUB 0 and the PC, both with TRAPPC := PC + 4 (R110), to the job trap
entry. No rule gives their TRAPINFO: it is a free value (DESIGN CHOICE, log 22). -/
def Claims.trapAndBreakpoint : Prop :=
  ∀ (s : State) (a : Gpr), let x := s.task s.focus; let j := s.job x.job
    x.frame = none → x.nest = false → x.halt = none → j.desc.trapEntry ≠ 0 → j.debugger = false →
    (∃ t u, exec (.trap a) s = .next t ∧ t.task s.focus = Claims.entered x j.desc.trapEntry (pcPlus x.pc 4) 11 0 (Claims.reg s a) u ∧
      ∀ n, n ≠ s.focus → t.task n = { s.task n with life := (t.task n).life }) ∧
    (∃ t u, exec .bkpt s = .next t ∧ t.task s.focus = Claims.entered x j.desc.trapEntry (pcPlus x.pc 4) 10 0 x.pc u ∧
      ∀ n, n ≠ s.focus → t.task n = { s.task n with life := (t.task n).life })

/-- `sys` (R110): with NEST = 0 it sets SYS with SUB 1, A and the next instruction's address in the trap registers, with NEST = 1 it
writes none of them; in both cases the task is Held behind the instruction and its service core has the request A[7:0]. -/
def Claims.sysCall : Prop :=
  ∀ (s : State) (a : Gpr), let x := s.task s.focus; let v := Claims.reg s a
    x.frame = none →
    exec (.sys a) s = .next { s with notices := s.notices ++ [.sysRequest x.tid (BitVec.ofNat 8 v.toNat)], tasks := tput s.tasks s.focus { x with
      trapPc := if x.nest then x.trapPc else pcPlus x.pc 4,
      trapCause := if x.nest then x.trapCause else Claims.cause false 11 1 0,
      trapVal := if x.nest then x.trapVal else v,
      pc := pcPlus x.pc 4, skipStop := 0, stalled := none, theft := none, bars := Claims.barsLeft x, life := .held none, holdSys := true } }

/-- `trap`, `bkpt` and `sys` (R110). -/
def Claims.trapInstructions : Prop := Claims.trapAndBreakpoint ∧ Claims.sysCall

/-- `eret` (R110): with NEST = 0 it traps ILLEGAL; with a TRAPPC that is no multiple of 4 it traps MISALIGN; else PC := TRAPPC[55:0],
NEST := 0 and the frame set aside is restored; nothing else changes, but that the barriers met in the entry are left and a stop at the
instruction returned to is still to be reported. -/
def Claims.exceptionReturn : Prop :=
  ∀ (s : State), let x := s.task s.focus
    (x.nest = false → Claims.traps .eret s 1 0 (wordOf .eret) none) ∧
    (x.nest = true → x.trapPc.toNat % 4 ≠ 0 → Claims.traps .eret s 2 0 (BitVec.ofNat 64 (x.trapPc.toNat % 2 ^ 56)) none) ∧
    (x.nest = true → x.trapPc.toNat % 4 = 0 → exec .eret s = .next { s with tasks := tput s.tasks s.focus { x with
      pc := BitVec.ofNat 64 (x.trapPc.toNat % 2 ^ 56), trapCause := BitVec.ofNat 64 (x.trapCause.toNat % 2 ^ 63),
      frame := x.frameAside, frameAside := none, skipStop := 0, bars := Claims.barsLeft x } })

/-- A trap while NEST = 1, or of a job without a trap entry, is fatal (R108, R109): the task is Retired by its fatal trap, its uncommitted
shadow buffer is discarded, and Tardar is told its TASKID with the four trap registers; with a debugger the task is Held instead. -/
def Claims.fatalTrap : Prop :=
  ∀ (s : State) (t : Nat) (pc : Word) (cause sub : Nat) (val info : Word), let x := s.task t; let j := s.job x.job
    let n := Claims.info x cause info
    cause < 32 → sub < 256 → (x.nest = true ∨ j.desc.trapEntry = 0) → (j.debugger = false ∨ (cause ≠ 10 ∧ cause ≠ 12)) →
    ∃ u, s.deliver t pc cause sub val (some info) = u ∧
      (Notice.fatal x.tid.toNat (Claims.cause x.nest cause sub n.1).toNat (pc.toNat % 2 ^ 56) val.toNat n.2.toNat) ∈ u.notices ∧
      (j.debugger = true → (∃ w, (u.task t).life = .held w) ∧ (u.task t).holdDbg = true) ∧
      (j.debugger = false → (u.task t).life = .retired ∧ (u.task t).how = 2 ∧ (x.buffers = true → (u.task t).shadow = []))

/-! ### Control registers (R15, R73) -/

/-- `mfc` (R73): each number reads its register; 15 and the numbers from 31 on are unlisted and ILLEGAL, with the word in TRAPVAL. -/
def Claims.crReads : Prop :=
  ∀ (s : State) (d : Gpr), let x := s.task s.focus; let c := s.core (coreOf s.focus)
    let reads : Gpr → Word → Prop := fun n v => exec (.mfc d n) s = .next (Claims.wrote s d v 4)
    reads 0 x.tid ∧ reads 1 (x.lcn.setWidth 64) ∧ reads 2 x.seed ∧ reads 3 (x.round.setWidth 64) ∧ reads 4 (x.fflags.setWidth 64) ∧
    reads 5 (x.ftrapen.setWidth 64) ∧ reads 6 (x.gtol.setWidth 64) ∧ reads 8 (if quadIndex (coreOf s.focus) = 0 then 1 else 0) ∧
    reads 10 ((s.quad (quadOf (coreOf s.focus))).qpool.setWidth 64) ∧ reads 11 (x.cls.setWidth 64) ∧ reads 12 (x.phase.setWidth 64) ∧
    reads 13 ((s.quad (quadOf (coreOf s.focus))).qflags.setWidth 64) ∧ reads 14 ((s.die (dieOf (coreOf s.focus))).dflags.setWidth 64) ∧
    reads 24 x.trapPc ∧ reads 25 x.trapCause ∧ reads 26 x.trapVal ∧ reads 27 x.trapInfo ∧ reads 28 (c.ringwait.setWidth 64) ∧
    reads 29 ((s.die (dieOf (coreOf s.focus))).lamport.setWidth 64) ∧ reads 30 (s.die (dieOf (coreOf s.focus))).dieclk ∧
    reads 7 (BitVec.ofNat 64 (x.leaseBase % 128 * 4 + x.leaseCls.toNat)) ∧
    (∃ v, reads 9 v ∧ v.toNat / 2 ^ 48 = c.xbar.ovf.toNat ∧ ∀ i, i < 32 → v.getLsbD i = (vget c.xbar.terms i ⟨0, false, 0, false, 0⟩).en) ∧
    (∀ n : Gpr, 16 ≤ n.toNat → n.toNat ≤ 23 → let k := (vget c.slots (n.toNat - 16) CopySlot.reset).wmk
      ∃ v, reads n v ∧ v.toNat % 2 ^ 56 = k.addr.toNat ∧ v.getLsbD 63 = k.act ∧ v.getLsbD 62 = k.frz ∧ v.getLsbD 61 = k.uno ∧
        v.getLsbD 60 = k.abt ∧ v.getLsbD 59 = k.strm) ∧
    (∀ n : Gpr, n = 15 ∨ 31 ≤ n.toNat → Claims.traps (.mfc d n) s 1 0 (wordOf (.mfc d n)) none)

/-- `mtc` (R15, R47, R73): the registers a task may write take the value, as wide as they are, and nothing else changes; a register that
tasks only read, an unlisted number, and ROUND with 6 or 7 trap ILLEGAL with the word in TRAPVAL and change nothing. -/
def Claims.crWrites : Prop :=
  ∀ (s : State) (a : Gpr), let x := s.task s.focus; let v := Claims.reg s a
    let writes : Gpr → Task → Prop := fun n y => exec (.mtc a n) s = .next { s with tasks := tput s.tasks s.focus (Task.next 4 y) }
    (v.toNat % 8 ≤ 5 → writes 3 { x with round := BitVec.ofNat 3 v.toNat }) ∧
    (5 < v.toNat % 8 → Claims.traps (.mtc a 3) s 1 0 (wordOf (.mtc a 3)) none) ∧
    writes 4 { x with fflags := BitVec.ofNat 7 v.toNat } ∧ writes 5 { x with ftrapen := BitVec.ofNat 7 v.toNat } ∧
    writes 6 { x with gtol := BitVec.ofNat 32 v.toNat } ∧ writes 24 { x with trapPc := BitVec.ofNat 64 (v.toNat % 2 ^ 56) } ∧
    (∃ t, exec (.mtc a 13) s = .next (Claims.passed t 4) ∧ t.tasks = s.tasks ∧ t.focus = s.focus ∧
      (t.quad (quadOf (coreOf s.focus))).qflags = (s.quad (quadOf (coreOf s.focus))).qflags &&& ~~~(BitVec.ofNat 7 v.toNat)) ∧
    (∃ t, exec (.mtc a 14) s = .next (Claims.passed t 4) ∧ t.tasks = s.tasks ∧ t.focus = s.focus ∧
      (t.die (dieOf (coreOf s.focus))).dflags = (s.die (dieOf (coreOf s.focus))).dflags &&& ~~~(BitVec.ofNat 7 v.toNat)) ∧
    writes 25 { x with trapCause := v &&& 0x800000000000FFFF } ∧ writes 26 { x with trapVal := v } ∧ writes 27 { x with trapInfo := v } ∧
    (∀ n : Gpr, n.toNat ≤ 2 ∨ (7 ≤ n.toNat ∧ n.toNat ≤ 12) ∨ (15 ≤ n.toNat ∧ n.toNat ≤ 23) ∨ 28 ≤ n.toNat →
      Claims.traps (.mtc a n) s 1 0 (wordOf (.mtc a n)) none)

/-- `mfc` and `mtc` over every control register (R15, R73). -/
def Obligations.ControlRegisters : Prop := Claims.crReads ∧ Claims.crWrites

/-- What `rep` captures and how its frame runs (R76, R77). -/
def Obligations.RepeatCaptureAndAdvance : Prop := Claims.repeatCapturePart ∧ Claims.repeatAdvance ∧ Claims.repeatRegisters

/-- A trap where no halt takes its boundary is delivered; so is a stop that an attached debugger takes; any other is recorded with the task and
delivered at its next boundary, before an instruction runs (R113). -/
def Claims.trapAtBoundary : Prop :=
  ∀ (s : State) (pc : Word) (cause sub : Nat) (val v : Word), let x := s.task s.focus
    let stops := (s.job x.job).debugger = true ∧ (cause = 10 ∨ cause = 12)
    (x.halt = none ∨ stops → ∀ info, s.trapAt pc cause sub val info = s.deliver s.focus pc cause sub val info) ∧
    (∀ h, x.halt = some h → ¬stops → s.trapAt pc cause sub val (some v) = { s with tasks := tput s.tasks s.focus { x with
      pendingTrap := some (pc, cause, sub, val, v) } }) ∧
    (x.pendingTrap = some (pc, cause, sub, val, v) → x.issues = true → x.owes = false → s.yieldOver s.focus = true →
      s.issueChoice = .done (({ s with tasks := tput s.tasks s.focus { x with pendingTrap := none } } : State).deliver s.focus pc cause sub val (some v)))

/-- Taking a trap: delivered to the job's entry, fatal, or recorded at a halt (R104, R108, R109, R113). -/
def Obligations.TrapEntry : Prop := Claims.trapEntry ∧ Claims.fatalTrap ∧ Claims.trapAtBoundary

/-- `trap`, `bkpt`, `sys` and `eret` (R110). -/
def Obligations.TrapInstructionsAndReturn : Prop := Claims.trapInstructions ∧ Claims.exceptionReturn

/-! ### Memory: places, loads, stores, atomics (R64, R115, R121-R127, R130, R276) -/

/-- No write of a reader's own and no arrival lies on n bytes from a location on: the bytes of its home are the one outcome (R276). -/
def Claims.quiet (s : State) (l : Loc) (n : Nat) : Prop :=
  ((s.ownPending s.focus).any (·.meets l n)) = false ∧ (s.hist.any (·.meets l n)) = false

/-- The address a scalar memory operand names outside the ring space (R64): A + OFF × size, where OFF is the 9-bit field, widened by a
prefix and sign-extended; in the near space only its low three bits count, without a prefix from 0 to 7. -/
def Claims.address (s : State) (a : Gpr) (sp : BitVec 2) (off : BitVec 9) (ext : Option (BitVec 20)) (size : Nat) : Nat :=
  let o : Int := if sp = 2 then (match ext with | some e => (e ++ off.extractLsb' 0 3).toInt | none => off.toNat % 8)
    else match ext with | some e => (e ++ off).toInt | none => off.toInt
  (((Claims.reg s a).toNat : Int) + o * size % 2 ^ 64).toNat % 2 ^ 64

/-- The n bytes from a local address on can be read at once: inside the banks that take part in loads, sound, unwatched (R117, R207, R333). -/
def Claims.readableBank (s : State) (c off n : Nat) : Prop :=
  (s.core c).refused false off n = none ∧ s.watchedRange c off n = false ∧ s.checkLoad c (.bank c off) n = .ok ()

/-- A local load (R64, R123): D receives the size's bytes at the address, lowest address first, zero-extended, or sign-extended with S = 1;
nothing else changes. `ld` and its prefixed form. -/
def Claims.localLoads : Prop :=
  ∀ (s : State) (d a : Gpr) (sz : BitVec 2) (sg : BitVec 1) (off : BitVec 9) (ext : BitVec 20), let n := 2 ^ sz.toNat
    let value := fun (v : Nat) => let m := leNat ((s.core (coreOf s.focus)).mem.bytes v n)
      if sg = 1 then BitVec.ofInt 64 (toS (8 * n) m) else BitVec.ofNat 64 m
    (∀ A, A = Claims.address s a 1 off none n → A % n = 0 → Claims.readableBank s (coreOf s.focus) (A % 2 ^ 56) n →
      Claims.quiet s (.bank (coreOf s.focus) (A % 2 ^ 56)) n →
      exec (.ld d a 1 sz sg off) s = .next (Claims.wrote s d (value (A % 2 ^ 56)) 4)) ∧
    (∀ A, A = Claims.address s a 1 off (some ext) n → A % n = 0 → Claims.readableBank s (coreOf s.focus) (A % 2 ^ 56) n →
      Claims.quiet s (.bank (coreOf s.focus) (A % 2 ^ 56)) n →
      exec (.ldPrefixed d a 1 sz sg off ext) s = .next (Claims.wrote s d (value (A % 2 ^ 56)) 8))

/-- L2 holds the n bytes from l on, or they lie in a core's banks: a load of them fills nothing (R266). -/
def Claims.present (s : State) (l : Loc) (n : Nat) : Prop :=
  ∀ j, j < n → ∀ a va, l.plus j = .glob a va → (s.line a va).has (va % 256) = true

/-- A load of any space (R123, R130): where its place is l and every check passes, D receives the bytes of l's home, the attribute cache
holds the page of a global place, its line has been looked up and filled where no cache held it, and a ring load is an acquire at `.quad`.
Where L2 holds the bytes no byte of memory changes; words that L2 does not hold are filled from the page (R266). -/
def Claims.placedLoads : Prop :=
  ∀ (s : State) (d a : Gpr) (sp sz : BitVec 2) (sg : BitVec 1) (off : BitVec 9) (ext : BitVec 20) (l : Loc), let n := 2 ^ sz.toNat
    let s1 := (s.fillLoc l n).lookUpLoc (coreOf s.focus) l n
    let v : Word := if sg = 1 then BitVec.ofInt 64 (toS (8 * n) (leNat (s1.homeBytes l n))) else BitVec.ofNat 64 (leNat (s1.homeBytes l n))
    let after := fun (u : State) => if sp = 3 then u.acquireRing (a.toNat % 16) else u
    Claims.quiet s l n →
    (s.loadPlace (.ld d a sp sz sg off) a sp sz off none = .ok l →
      exec (.ld d a sp sz sg off) s = .next ((after (s1.setG d v)).retire 4)) ∧
    (s.loadPlace (.ldPrefixed d a sp sz sg off ext) a sp sz off (some ext) = .ok l →
      exec (.ldPrefixed d a sp sz sg off ext) s = .next ((after (s1.setG d v)).retire 8)) ∧
    (Claims.present s l n → ∀ x, ((after (s1.setG d v)).retire 4).homeByte x = s.homeByte x) ∧
    (∀ b va, l = .glob b va → n ≤ 64 → va % n = 0 → s.farMember b va = none → s.peerOf b va = none → va < 2 ^ 56 →
      (s.line b va).mask = 0 → (s.setMates b va).length < 16 → (s.translate b va).kind = 2 →
      holdsLine (s.core (coreOf s.focus)).cacheLines (lineKey b va) s.cycle = false → (s.quad (quadOf (coreOf s.focus))).pooled = false →
      (s1.line b va).mask = (0xFFFF : BitVec 64) <<< (16 * (va / 64 % 4)) ∧
      s1.homeBytes l n = s.hbm.bytes (physical (s.translate b va).pte va) n)

/-- `ld` of every space and form (R64, R123, R130). -/
def Obligations.Loads : Prop := Claims.localLoads ∧ Claims.placedLoads

/-- The arrived writes of n bytes that have settled: every view holds them (R276 Settle). -/
def Claims.settled (s : State) (l : Loc) (n : Nat) : List Nat := ((s.hist.filter (·.meets l n)).filter (·.settled)).map (·.id)

/-- The write a store or `red.*` of the issuing task puts into its store buffer (R276 Issue): its place, its bytes, its operation, the phase,
view and release it carries. -/
def Claims.issued (s : State) (l : Loc) (bs mask : List Byte) (op : Option (BitVec 4)) (cls : Nat) : Write :=
  let x := s.task s.focus
  { id := s.nextId, party := .task x.tid (coreOf s.focus), loc := l, bytes := bs, mask := mask, op := op, phase := x.phase,
    view := union (Claims.settled s l bs.length) x.view.known, rel := x.view.rel.toList, cls := cls, xy := x.ord.getLsbD cls, old := [], preds := [], sent := 0, arrivedAt := 0,
    settled := false, cover := false, bad := false }

/-- The state after a write of an instruction of n bytes has joined the store buffer: the buffer, the task's view, the count of its phase
and the PC; no register and no byte of memory. -/
def Claims.buffered (s : State) (w : Write) (n : Nat) : State :=
  let x := s.task s.focus
  { s with nextId := s.nextId + 1, tasks := tput s.tasks s.focus (Task.next n { x with
      sb := x.sb ++ [w],
      view := { x.view with known := insertNat x.view.known w.id,
                            issued := lset x.view.issued x.phase.toNat ((x.view.issued[x.phase.toNat]?).getD 0 + 1) } }) }

/-- A store (R64, R123, R276) of a task that does not buffer: where its place is l and every check passes, the size's low bytes of D, lowest
first, join the store buffer as one write to l; no register changes and no byte of memory does before the write arrives. -/
def Claims.directStores : Prop :=
  ∀ (s : State) (d a : Gpr) (sp sz : BitVec 2) (off : BitVec 9) (ext : BitVec 20) (l : Loc), let n := 2 ^ sz.toNat
    let s1 := s.fillLoc l n
    let w := Claims.issued s1 l (natBytes (Claims.reg s d).toNat n) [] none (if sp = 3 then 8 else s.routeOf l)
    (s.task s.focus).buffers = false →
    (s.storePlace (.st d a sp sz off) a sp sz off none = .ok l → exec (.st d a sp sz off) s = .next (Claims.buffered s1 w 4)) ∧
    (s.storePlace (.stPrefixed d a sp sz off ext) a sp sz off (some ext) = .ok l →
      exec (.stPrefixed d a sp sz off ext) s = .next (Claims.buffered s1 w 8)) ∧
    (∀ x, (Claims.buffered s1 w 4).homeByte x = s.homeByte x)

/-- An FP32 NaN. -/
def Claims.nan32 (x : Nat) : Prop := x / 2 ^ 23 % 256 = 255 ∧ x % 2 ^ 23 ≠ 0

/-- The state after a write of an instruction of n bytes has joined the shadow buffer, which it takes 16 bytes of (R111): nothing leaves the task. -/
def Claims.shadowing (s : State) (w : Write) (n : Nat) : State :=
  let x := s.task s.focus
  { s with nextId := s.nextId + 1, tasks := tput s.tasks s.focus (Task.next n { x with
      shadow := x.shadow ++ [.write w], shadowUsed := x.shadowUsed + 16 }) }

/-- The issuing task buffers its writes and has room for one more (R111). -/
def Claims.hasRoom (x : Task) : Prop := x.buffers = true ∧ x.shadowUsed + 16 ≤ x.shadowKiB * 1024

/-- A place whose stores a task that buffers keeps (R111): global, or the banks of another core. -/
def Claims.elsewhere (s : State) (l : Loc) : Prop := ∀ c o, l = .bank c o → c ≠ coreOf s.focus

/-- A store or `red.*` of a restartable task that has not committed, to global or near memory, with or without a prefix, waits in its shadow
buffer while it fits, 16 bytes each (R111). A NaN in B sets NV for the float reductions. -/
def Claims.shadowedStores : Prop :=
  ∀ (s : State) (d a b c : Gpr) (sp sz p scope2 : BitVec 2) (z : BitVec 1) (off : BitVec 9) (ext : BitVec 20) (l : Loc),
    let n := 2 ^ sz.toNat; let m := if z = 1 then 8 else 4; let y := (Claims.reg s b).toNat
    let st := Claims.issued (s.fillLoc l n) l (natBytes (Claims.reg s d).toNat n) [] none (s.routeOf l)
    let red := fun (k : Nat) (op : BitVec 4) => Claims.issued (s.fillLoc l k) l (natBytes (y % 2 ^ (8 * k)) k) [] (some op) (s.routeOf l)
    let redDone := fun (op : BitVec 4) => Host.Outcome.next (Claims.shadowing (s.fillLoc l m) (red m op) 4)
    let scope : BitVec 3 := scope2.setWidth 3 + 1
    Claims.hasRoom (s.task s.focus) → Claims.elsewhere s l →
    (sp = 0 ∨ sp = 2 →
      (s.storePlace (.st d a sp sz off) a sp sz off none = .ok l →
        exec (.st d a sp sz off) s = .next (Claims.shadowing (s.fillLoc l n) st 4)) ∧
      (s.storePlace (.stPrefixed d a sp sz off ext) a sp sz off (some ext) = .ok l →
        exec (.stPrefixed d a sp sz off ext) s = .next (Claims.shadowing (s.fillLoc l n) st 8))) ∧
    (s.amoPlace 0 a z p (plainAmo p) = .ok l →
      exec (.redAdd a b z p) s = redDone 0 ∧ exec (.redMin a b z p) s = redDone 1 ∧ exec (.redMinn a b z p) s = redDone 2 ∧
      exec (.redMax a b z p) s = redDone 3 ∧ exec (.redMaxn a b z p) s = redDone 4 ∧ exec (.redAnd a b z p) s = redDone 5 ∧
      exec (.redOr a b z p) s = redDone 6 ∧ exec (.redXor a b z p) s = redDone 7) ∧
    (s.amoPlace 0 a 0 p (plainAmo p) = .ok l → ∀ e ∈ ([(.redFmin a b p, 10), (.redFmax a b p, 11)] : List (Instr × BitVec 4)),
      let u := Claims.shadowing (s.fillLoc l 4) (red 4 e.2) 4
      (¬Claims.nan32 (y % 2 ^ 32) → exec e.1 s = .next u) ∧
      (Claims.nan32 (y % 2 ^ 32) → ∃ t, exec e.1 s = .next t ∧ (t.task s.focus).fflags = (s.task s.focus).fflags ||| flagNV ∧
        (t.task s.focus).shadow = (u.task s.focus).shadow ∧ (t.task s.focus).shadowUsed = (u.task s.focus).shadowUsed)) ∧
    (s.amoPlace 0 a z p ⟨scope.toNat, false, false, c⟩ = .ok l → ∀ op : BitVec 4, op.toNat < 8 →
      exec (.amoPrefixed op 0 a b z p c scope 0 0) s = .next (Claims.shadowing (s.fillLoc l m) (red m op) 8))

/-- `st` of every space and form, and the shadow buffer of a restartable task (R64, R111, R123, R276). -/
def Obligations.Stores : Prop := Claims.directStores ∧ Claims.shadowedStores

/-- Scalar accesses and atomics are naturally aligned (R122): where the coordinate and the bank roles are in order (R117, R121, R123), an address that
is no multiple of the size traps MISALIGN with the address in TRAPVAL, for `ld` and `st` of the global, local and near spaces, with and without a
prefix, and for every atomic and reduction. TRAPVAL is the 64-bit sum with its tag byte (DESIGN CHOICE, log 104). -/
def Obligations.AlignmentTraps : Prop :=
  (∀ (s : State) (d a : Gpr) (sp sz : BitVec 2) (sg : BitVec 1) (off : BitVec 9) (ext : BitVec 20) (l : Loc), let n := 2 ^ sz.toNat
    let at_ := fun (e : Option (BitVec 20)) => Claims.address s a sp off e n
    let coord := Claims.reg s (off.extractLsb' 3 6)
    let ready := fun (e : Option (BitVec 20)) (acc : Access) => sp ≠ 3 ∧ at_ e % n ≠ 0 ∧
      s.place sp (BitVec.ofNat 64 (at_ e)) coord acc.kind = .ok l ∧ s.checkRole l n acc = .ok ()
    (ready none accLoad → Claims.traps (.ld d a sp sz sg off) s 2 0 (BitVec.ofNat 64 (at_ none)) none) ∧
    (ready none accStore → Claims.traps (.st d a sp sz off) s 2 0 (BitVec.ofNat 64 (at_ none)) none) ∧
    (ready (some ext) accLoad → Claims.traps (.ldPrefixed d a sp sz sg off ext) s 2 0 (BitVec.ofNat 64 (at_ (some ext))) none) ∧
    (ready (some ext) accStore → Claims.traps (.stPrefixed d a sp sz off ext) s 2 0 (BitVec.ofNat 64 (at_ (some ext))) none)) ∧
  (∀ (s : State) (d a b c : Gpr) (z : BitVec 1) (p : BitVec 2) (l : Loc), let x := Claims.reg s a; let m := if z = 1 then 8 else 4
    let ready := fun (coord : Word) (size : Nat) (acc : Access) => x.toNat % size ≠ 0 ∧ s.place p x coord 3 = .ok l ∧ s.checkRole l size acc = .ok ()
    let amo := if d = 0 then accRed else accAtomic
    (∀ i ∈ ([.amoAdd, .amoMin, .amoMinn, .amoMax, .amoMaxn, .amoAnd, .amoOr, .amoXor, .amoSwap, .amoCas] :
      List (Gpr → Gpr → Gpr → BitVec 1 → BitVec 2 → Instr)), ready 0 m amo → Claims.traps (i d a b z p) s 2 0 x none) ∧
    (∀ i ∈ ([.redAdd, .redMin, .redMinn, .redMax, .redMaxn, .redAnd, .redOr, .redXor] :
      List (Gpr → Gpr → BitVec 1 → BitVec 2 → Instr)), ready 0 m accRed → Claims.traps (i a b z p) s 2 0 x none) ∧
    (ready 0 4 amo → Claims.traps (.amoFmin d a b p) s 2 0 x none ∧ Claims.traps (.amoFmax d a b p) s 2 0 x none) ∧
    (ready 0 4 accRed → Claims.traps (.redFmin a b p) s 2 0 x none ∧ Claims.traps (.redFmax a b p) s 2 0 x none) ∧
    (∀ (op : BitVec 4) (scope : BitVec 3) (aq rl : BitVec 1), ready (Claims.reg s c) m amo →
      Claims.traps (.amoPrefixed op d a b z p c scope aq rl) s 2 0 x none))

/-- The new value of an atomic operation on `old` with B (and the register after B for `cas`), w bits wide (R126). -/
def Claims.atomic (op w old b b1 : Nat) : Nat :=
  match op with
  | 0 => (old + b) % 2 ^ w
  | 1 => if toS w old ≤ toS w b then old else b
  | 2 => min old b
  | 3 => if toS w old ≤ toS w b then b else old
  | 4 => max old b
  | 5 => old &&& b
  | 6 => old ||| b
  | 7 => old ^^^ b
  | 8 => b
  | _ => if old = b then b1 else old

/-- What an atomic with a result gives D (R126): the old value, sign-extended by `min` and `max`, else zero-extended. -/
def Claims.atomicOld (op w old : Nat) : Word := if op = 1 ∨ op = 3 then BitVec.ofInt 64 (toS w old) else BitVec.ofNat 64 old

/-- Nothing on its way holds an atomic up: no packet of its core on the same route to the same home, no withdrawal, and the home can be
reached (R263, R270, R349). -/
def Claims.clear (s : State) (l : Loc) : Prop :=
  s.behindPackets (coreOf s.focus) (s.routeOf l) ((s.task s.focus).ord.getLsbD (s.routeOf l)) l = false ∧ s.unserved l = false ∧
    s.replicated l = false

/-- Every atomic with D ≠ 0 and every width, where its place is l and no store of its own waits on it (R125, R126): one indivisible step reads
the home, writes the new value there, and gives D the old one. -/
def Claims.integerAtomics : Prop :=
  ∀ (s : State) (d a b : Gpr) (z : BitVec 1) (p : BitVec 2) (l : Loc), let n := if z = 1 then 8 else 4; let w := 8 * n
    let s1 := s.fillLoc l n; let old := leNat (s1.homeBytes l n)
    let y := (Claims.reg s b).toNat % 2 ^ w; let y1 := (Claims.reg s (b + 1)).toNat % 2 ^ w
    let done := fun (op : Nat) => Host.Outcome.next (((s1.performNow s.focus (Claims.issued s1 l (natBytes (Claims.atomic op w old y y1) n) []
      none (s1.routeOf l))).setG d (Claims.atomicOld op w old)).retire 4)
    d ≠ 0 → Claims.direct (s.task s.focus) → (s.task s.focus).guarded = false → Claims.clear s l →
    s.amoPlace d a z p (plainAmo p) = .ok l → ((s.ownPending s.focus).any (·.meets l n)) = false →
    exec (.amoAdd d a b z p) s = done 0 ∧ exec (.amoMin d a b z p) s = done 1 ∧ exec (.amoMinn d a b z p) s = done 2 ∧
    exec (.amoMax d a b z p) s = done 3 ∧ exec (.amoMaxn d a b z p) s = done 4 ∧ exec (.amoAnd d a b z p) s = done 5 ∧
    exec (.amoOr d a b z p) s = done 6 ∧ exec (.amoXor d a b z p) s = done 7 ∧ exec (.amoSwap d a b z p) s = done 8 ∧
    exec (.amoCas d a b z p) s = done 9

/-- The FP32 value order with -0 below +0, as an integer key. -/
def Claims.key32 (x : Nat) : Int := if x / 2 ^ 31 = 1 then -((x % 2 ^ 31 : Nat) : Int) - 1 else x

/-- `amo.fmin` and `amo.fmax` (R127): a NaN on either side leaves the location as it is and sets NV; else the lower or higher value is
stored, -0 below +0. Neither ever traps, whatever FTRAPEN holds. -/
def Claims.floatAtomics : Prop :=
  ∀ (s : State) (d a b : Gpr) (p : BitVec 2) (l : Loc), let s1 := s.fillLoc l 4; let old := leNat (s1.homeBytes l 4)
    let y := (Claims.reg s b).toNat % 2 ^ 32
    let done := fun (new : Nat) => (s1.performNow s.focus (Claims.issued s1 l (natBytes new 4) [] none (s1.routeOf l))).setG d (BitVec.ofNat 64 old)
    let lo := if Claims.key32 y < Claims.key32 old then y else old
    let hi := if Claims.key32 old < Claims.key32 y then y else old
    d ≠ 0 → Claims.direct (s.task s.focus) → (s.task s.focus).guarded = false → Claims.clear s l →
    s.amoPlace d a 0 p (plainAmo p) = .ok l → ((s.ownPending s.focus).any (·.meets l 4)) = false →
    (Claims.nan32 old ∨ Claims.nan32 y →
      exec (.amoFmin d a b p) s = .next (((done old).raise s.focus flagNV).retire 4) ∧
      exec (.amoFmax d a b p) s = .next (((done old).raise s.focus flagNV).retire 4)) ∧
    (¬Claims.nan32 old → ¬Claims.nan32 y →
      exec (.amoFmin d a b p) s = .next ((done lo).retire 4) ∧ exec (.amoFmax d a b p) s = .next ((done hi).retire 4))

/-- A prefix gives an atomic a coordinate register, a scope, acquire and release (R65): with `.rl` what the release at the scope makes of the
state comes first, with `.aq` an acquire at the scope follows; here for `add` on the coordinate register's core or another space. -/
def Claims.prefixedAtomics : Prop :=
  ∀ (s u : State) (d a b c : Gpr) (z : BitVec 1) (p : BitVec 2) (scope : BitVec 3) (aq rl : BitVec 1) (l : Loc),
    let n := if z = 1 then 8 else 4; let w := 8 * n
    let s1 := u.fillLoc l n; let old := leNat (s1.homeBytes l n); let y := (Claims.reg u b).toNat % 2 ^ w
    let done := (s1.performNow s.focus (Claims.issued s1 l (natBytes ((old + y) % 2 ^ w) n) [] none (s1.routeOf l))).setG d (BitVec.ofNat 64 old)
    d ≠ 0 → Claims.direct (s.task s.focus) → (s.task s.focus).guarded = false →
    s.amoPlace d a z p ⟨scope.toNat, aq == 1, rl == 1, c⟩ = .ok l →
    (if rl = 1 then s.releaseNow s.focus scope.toNat = (true, u) else u = s) → Claims.clear u l →
    ((u.ownPending s.focus).any (·.meets l n)) = false →
    exec (.amoPrefixed 0 d a b z p c scope aq rl) s =
      .next ((if aq = 1 then done.acquire s.focus scope.toNat else done).retire 8)

/-- Every atomic that returns a value (R65, R125-R127). -/
def Obligations.Atomics : Prop := Claims.integerAtomics ∧ Claims.floatAtomics ∧ Claims.prefixedAtomics

/-- Every `red.*` (R125-R127), where its place is l: its operands join the store buffer with the operation, to be performed at the home when
the write arrives; no register changes. A NaN in B sets NV for the float forms. -/
def Obligations.Reductions : Prop :=
  ∀ (s : State) (a b : Gpr) (z : BitVec 1) (p : BitVec 2) (l : Loc), let n := if z = 1 then 8 else 4
    let s1 := s.fillLoc l n; let s4 := s.fillLoc l 4
    let issue := fun (op : BitVec 4) => Host.Outcome.next
      (Claims.buffered s1 (Claims.issued s1 l (natBytes ((Claims.reg s b).toNat % 2 ^ (8 * n)) n) [] (some op) (s.routeOf l)) 4)
    let float := fun (op : BitVec 4) => Claims.buffered s4 (Claims.issued s4 l (natBytes ((Claims.reg s b).toNat % 2 ^ 32) 4) [] (some op) (s.routeOf l)) 4
    (s.task s.focus).buffers = false →
    (s.amoPlace 0 a z p (plainAmo p) = .ok l →
      exec (.redAdd a b z p) s = issue 0 ∧ exec (.redMin a b z p) s = issue 1 ∧ exec (.redMinn a b z p) s = issue 2 ∧
      exec (.redMax a b z p) s = issue 3 ∧ exec (.redMaxn a b z p) s = issue 4 ∧ exec (.redAnd a b z p) s = issue 5 ∧
      exec (.redOr a b z p) s = issue 6 ∧ exec (.redXor a b z p) s = issue 7) ∧
    (s.amoPlace 0 a 0 p (plainAmo p) = .ok l → ¬Claims.nan32 ((Claims.reg s b).toNat % 2 ^ 32) →
      exec (.redFmin a b p) s = .next (float 10) ∧ exec (.redFmax a b p) s = .next (float 11)) ∧
    (s.amoPlace 0 a 0 p (plainAmo p) = .ok l → Claims.nan32 ((Claims.reg s b).toNat % 2 ^ 32) →
      ∃ t u, exec (.redFmin a b p) s = .next t ∧ exec (.redFmax a b p) s = .next u ∧
        (t.task s.focus).fflags = (s.task s.focus).fflags ||| flagNV ∧ (u.task s.focus).fflags = (s.task s.focus).fflags ||| flagNV ∧
        (t.task s.focus).sb = ((float 10).task s.focus).sb ∧ (u.task s.focus).sb = ((float 11).task s.focus).sb)

/-! ### The memory itself -/

/-- A memory has one canonical form, which every write keeps: addresses rise and no byte equals what an unlisted byte reads as. A byte that is
written reads as written, every other byte as before; two memories in the form that read alike list the same bytes. -/
def Obligations.MemoryCanonical : Prop :=
  (∀ (m : Memory) (a : Nat) (bs : List Byte), m.wf = true → (m.putBytes a bs).wf = true ∧
    (∀ j (h : j < bs.length), (m.putBytes a bs).byte (a + j) = bs[j]) ∧
    (∀ c, c < a ∨ a + bs.length ≤ c → (m.putBytes a bs).byte c = m.byte c)) ∧
  (∀ m n : Memory, m.wf = true → n.wf = true → (∀ a, m.byte a = n.byte a) → m.cells = n.cells) ∧ State.reset.hbm.wf = true ∧
  Memory.empty.wf = true

/-- A write that arrives at a core's banks (R276 Arrive): its bytes stand at its place, every other byte of every place reads as before, it is
in the history with the bytes it replaced, and the memories keep their canonical form. -/
def Claims.arrivalAtBanks : Prop :=
  ∀ (s : State) (w : Write) (c off : Nat), w.loc = .bank c off → w.op = none → w.mask = [] → (s.core c).mem.wf = true →
    let t := s.joinHome w
    (∀ j (h : j < w.bytes.length), t.homeByte (.bank c (off + j)) = w.bytes[j]) ∧
    (∀ x, (∀ j, j < w.bytes.length → x ≠ .bank c (off + j)) → t.homeByte x = s.homeByte x) ∧
    (∃ e, t.hist = e :: s.hist ∧ e.id = w.id ∧ e.loc = w.loc ∧ e.bytes = w.bytes ∧ e.old = s.homeBytes w.loc w.bytes.length) ∧
    (t.core c).mem.wf = true

/-- A write that arrives at a line of L2 (R265, R266, R276): its bytes stand at its place and every other byte of the line reads as before.
The page is no peer page. -/
def Claims.arrivalAtL2 : Prop :=
  ∀ (s : State) (a va : Nat) (b : Byte), s.peerOf a va = none → (s.line a va).has (va % 256) = true → va < 2 ^ 56 →
    let t := s.putHomeByte (.glob a va) false b
    t.homeByte (.glob a va) = b ∧ (∀ i, i < 256 → i ≠ va % 256 → (t.line a va).byte i = (s.line a va).byte i) ∧
    (∀ k, k ≠ lineKey a va → tget t.l2 k Line.invalid = tget s.l2 k Line.invalid) ∧ t.hbm = s.hbm ∧ t.cores = s.cores

/-- A write's bytes reach their home, and no other byte of any memory changes (R265, R266, R276). -/
def Obligations.Arrivals : Prop := Claims.arrivalAtBanks ∧ Claims.arrivalAtL2

/-! ### Ordering: releases, acquires, phases, barriers (R278-R286) -/

/-- The state in which an irrevocable instruction acts (R111, R280): the task is no guarded one, its commit is through, and the release at the
scope is complete. -/
def Claims.ready (s : State) (scope : Nat) (u : State) : Prop :=
  (s.task s.focus).guarded = false ∧ ∃ v, s.commitNow s.focus = (true, v) ∧ v.releaseNow v.focus scope = (true, u)

/-- `acq` at a scope above `.task` (R279): the view gains every arrived write of the instance and the release snapshots of what the task read
since its last acquire, and that list is empty; at `.task` it does nothing. `rel` (R278): once every write issued before has arrived, the task's
next phase begins and its release snapshot is its view, at the scope. `fence` is the release, then the acquire (R284). In a task that buffers
a release is a marker of its shadow buffer. No register and no byte of memory changes. -/
def Claims.fences : Prop :=
  ∀ (s : State) (scope : BitVec 3), let x := s.task s.focus; let c := coreOf s.focus; let n := scope.toNat
    (n = 0 → exec (.acq scope) s = .next (Claims.passed s 4) ∧ exec (.rel scope) s = .next (Claims.passed s 4) ∧
      exec (.fence scope) s = .next (Claims.passed s 4)) ∧
    (n ≠ 0 → ∃ t, exec (.acq scope) s = .next t ∧ (∀ l, t.homeByte l = s.homeByte l) ∧
      t.task s.focus = Task.next 4 { x with view := { x.view with
        known := union (s.acquired (.task x.tid c) x.view.readSince n) x.view.known, readSince := [] } } ∧
      (∀ w ∈ s.hist, sameInstance n (.task x.tid c) w.party = true → w.id ∈ (t.task s.focus).view.known) ∧
      (∀ k ∈ x.view.known, k ∈ (t.task s.focus).view.known)) ∧
    (∀ u, n ≠ 0 → x.buffers = false → s.releaseNow s.focus n = (true, u) →
      exec (.rel scope) s = .next (Claims.passed u 4) ∧
      exec (.fence scope) s = .next (Claims.passed (u.acquire u.focus n) 4)) ∧
    (n ≠ 0 → x.view.relStarted = false → (∀ q, q < 4 → (x.view.issued[q]?).getD 0 = (x.view.arrived[q]?).getD 0) →
      (n = 5 → s.peerPending x.tid = false) →
      ∃ v, v.known = x.view.known ∧ v.readSince = x.view.readSince ∧ v.rel = some ⟨n, x.view.known, .task x.tid c⟩ ∧ v.relStarted = false ∧
        s.releaseNow s.focus n = (true, { s with tasks := tput s.tasks s.focus { x with phase := x.phase + 1, view := v } })) ∧
    (n ≠ 0 → x.buffers = true → x.shadowUsed + 16 ≤ x.shadowKiB * 1024 →
      exec (.rel scope) s = .next { s with tasks := tput s.tasks s.focus (Task.next 4 { x with
        shadow := x.shadow ++ [.release n], shadowUsed := x.shadowUsed + 16 }) })

/-- `phase` (R285): PHASE moves on by 1 modulo 4 and D is the old PHASE, unless a write of the next phase has not arrived; then the instruction
stalls and changes no register. -/
def Claims.phaseAdvance : Prop :=
  ∀ (s : State) (d : Gpr), let x := s.task s.focus; let q := (x.phase.toNat + 1) % 4
    ((x.view.issued[q]?).getD 0 = (x.view.arrived[q]?).getD 0 → exec (.phase d) s =
      .next (Claims.wrote { s with tasks := tput s.tasks s.focus { x with phase := BitVec.ofNat 2 q } } d (x.phase.setWidth 64) 4)) ∧
    ((x.view.issued[q]?).getD 0 ≠ (x.view.arrived[q]?).getD 0 → exec (.phase d) s = .next (s.pass 1 0))

/-- `fence`, `acq`, `rel` and `phase` (R278, R279, R284, R285). -/
def Claims.orderingInstructions : Prop := Claims.fences ∧ Claims.phaseAdvance

/-- `bar` (R286): with bits A[15:4] and A[63:32] zero, N = A[31:16] at least 1, in a team's task for `.quad`, it releases at the scope and arrives
at the instance A[3:0] of its network: the arrivals gain the task, and the task waits. A word or a place that is not allowed traps ILLEGAL with A in TRAPINFO.
BARRIER_RELEASE of a generation whose N participants have all arrived starts the next one with no arrival. The completion is noted with the
participant's arrival wherever its context is (R24); one that waits in its `bar` runs again, and at its boundary it goes on behind the `bar` with an
acquire at the scope that synchronises with every participant's release. -/
def Claims.barriers : Prop :=
  (∀ (s u : State) (a : Gpr) (scope : BitVec 3), let x := s.task s.focus; let v := Claims.reg s a; let n := v.toNat / 2 ^ 16; let i := v.toNat % 16
    let ok := v.toNat < 2 ^ 32 ∧ v.toNat / 16 % 2 ^ 12 = 0 ∧ n ≠ 0 ∧ (scope ≠ 2 ∨ x.team.isSome = true) ∧ x.buffers = false ∧ x.guarded = false
    let ix := scopeIndex scope.toNat (coreOf s.focus) x.job
    (¬ok → Claims.traps (.bar a scope) s 1 0 (wordOf (.bar a scope)) (some v)) ∧
    (ok → s.releaseNow s.focus scope.toNat = (true, u) →
      let b := u.barrierAt scope.toNat ix i
      (b.arrivals = [] ∨ (b.n = n ∧ b.arrivals.length ≠ n)) →
      ∃ t, exec (.bar a scope) s = .next t ∧ (t.task s.focus).life = .waiting .event ∧
        (t.task s.focus).bars = x.bars ++ [⟨scope.toNat, i, x.here, x.nest, none⟩] ∧ (t.task s.focus).g = x.g ∧ (t.task s.focus).pc = x.pc ∧
        (t.barrierAt scope.toNat ix i).arrivals = b.arrivals ++ [(x.tid.toNat, x.view.known)] ∧
        (t.barrierAt scope.toNat ix i).n = n)) ∧
  (∀ (s : State) (scope inst index : Nat), 1 ≤ scope → scope ≤ 5 → inst < 16 → let b := s.barrierAt scope index inst
    (b.arrivals ≠ [] → b.arrivals.length = b.n → ∃ t, exec (.barrierRelease scope inst index) s = .next t ∧
      (t.barrierAt scope index inst).arrivals = [] ∧ (t.barrierAt scope index inst).gen = b.gen + 1) ∧
    (b.arrivals = [] → exec (.barrierRelease scope inst index) s = .next s)) ∧
  (∀ (x : Task) (scope inst : Nat) (snap : List Nat) (pre rest : List BarWait) (pc : Word) (nest : Bool),
    x.bars = pre ++ ⟨scope, inst, pc, nest, none⟩ :: rest → (∀ b ∈ pre, ¬(b.scope = scope ∧ b.inst = inst ∧ b.passed = none)) →
    let y := { x with bars := pre ++ ⟨scope, inst, pc, nest, some snap⟩ :: rest }
    (x.life ≠ .waiting .event → Task.passBarrier scope inst snap x = y) ∧
    (x.life = .waiting .event → nest = x.nest → pc = x.here → (∀ b ∈ pre, b.nest = x.nest → b.pc ≠ x.here) →
      Task.passBarrier scope inst snap x = { y with life := .running })) ∧
  (∀ (s : State) (scope inst : Nat) (snap : List Nat), let x := s.task s.focus; scope ≠ 0 → s.schedule = [] → s.boot.fail = false →
    x.issues = true → (x.committed = false ∨ x.shadow = []) → (∀ (h : Nat) (_ : h < 16), x.p[h] = none) → x.portWait = none →
    x.bars = [⟨scope, inst, x.here, x.nest, some snap⟩] → ∃ t, step s = .next t ∧ (t.task s.focus).pc = (Task.next 4 x).pc ∧
      (t.task s.focus).bars = [] ∧ (t.task s.focus).g = x.g ∧ (∀ k ∈ snap, k ∈ (t.task s.focus).view.known) ∧
      (∀ w ∈ s.hist, sameInstance scope (.task x.tid (coreOf s.focus)) w.party = true → w.id ∈ (t.task s.focus).view.known))

/-- The moves of the network (R263, R276, R281, R345, R346, R349). DRAIN takes the oldest store-buffer entry of a line to the path; ARRIVE and
ATOMIC_AT_HOME deliver a write of the path that its ordered route lets arrive; SETTLE lets an arrival of 4,096 cycles join every view;
CACHE_COPY_DROP forgets a line's copies at a core and its quad; ROOT_SWITCH_ORDER forwards the oldest write of a package to the homes, where it
then stands; one for a replicated line waits for its withdrawal, one that no member can take is dropped, and Tardar is told; SWITCH_COMBINE merges two
additions of different packages to one word within 256 ns, and not two that came further apart; NO_PATH makes a package unreachable and tells Tardar. A move
whose write is not there changes nothing. -/
def Obligations.WriteMoves : Prop :=
  (∀ (s : State) (t : Nat) (e : Write), (s.task t).sb.find? (·.id == e.id) = some e →
    (s.task t).sb.find? (fun x => x.loc.line == e.loc.line) = some e →
    exec (.drain t e.id) s = .next { s with path := s.path ++ [{ e with sent := s.nextId }], nextId := s.nextId + 1, tasks := tput s.tasks t { s.task t with
      sb := (s.task t).sb.filter (·.id != e.id) } }) ∧
  (∀ (s : State) (e : Write), s.path.find? (·.id == e.id) = some e → s.deliverable e = true →
    exec (.arrive e.id) s = .next (s.deliverWrite e) ∧ (e.op.isSome = true → exec (.atomicAtHome e.id) s = .next (s.deliverWrite e))) ∧
  (∀ (s : State) (w : Nat), (∀ e ∈ s.path, e.id ≠ w) → exec (.arrive w) s = .next s ∧ exec (.atomicAtHome w) s = .next s) ∧
  (∀ (s : State) (e : Write), e ∈ s.hist → e.arrivedAt + 4096 ≤ s.cycle →
    exec (.settle e.id) s = .next { s with hist := settleIn e.id s.hist }) ∧
  (∀ (s : State) (core line : Nat), ∃ t, exec (.cacheCopyDrop core line) s = .next t ∧ (∀ l, t.homeByte l = s.homeByte l) ∧
    (∀ e ∈ (t.core core).cacheLines, e.key ≠ line) ∧ (∀ e ∈ (t.quad (quadOf core)).annex, e.key ≠ line)) ∧
  (∀ (s : State) (e : Write), s.atSwitch.find? (·.id == e.id) = some e → s.switchFirst e = true →
    let rest := s.atSwitch.filter (·.id != e.id)
    (s.replicated e.loc = true → ∃ t, exec (.rootSwitchOrder e.id) s = .next t ∧ t.atSwitch = s.atSwitch ∧ t.hist = s.hist ∧ t.l2 = s.l2) ∧
    (s.replicated e.loc = false → s.unserved e.loc = true → ∃ t, exec (.rootSwitchOrder e.id) s = .next t ∧ t.atSwitch = rest ∧ t.hist = s.hist ∧
      t.l2 = s.l2 ∧ t.peerMem = s.peerMem ∧ ∃ pkg, t.notices = s.notices ++ [.unreachable pkg]) ∧
    (s.replicated e.loc = false → s.unserved e.loc = false → ∃ t u, exec (.rootSwitchOrder e.id) s = .next t ∧
      u = ({ s with atSwitch := rest } : State).joinHome e ∧ t.hist = u.hist ∧ t.l2 = u.l2 ∧ t.peerMem = u.peerMem ∧ t.atSwitch = rest)) ∧
  (∀ (s : State) (a b : Write), s.atSwitch = [a, b] → s.packageOf a ≠ s.packageOf b → a.op = some 0 → b.op = some 0 → a.loc = b.loc →
    a.bytes.length = b.bytes.length → a.id ≠ b.id →
    (b.arrivedAt ≤ a.arrivedAt + 256 → exec (.switchCombine a.id b.id) s = .next { s with atSwitch :=
      [{ a with bytes := combined 0 a.bytes b.bytes }, { b with op := some 6, bytes := List.replicate b.bytes.length 0 }] }) ∧
    (a.arrivedAt + 256 < b.arrivedAt → exec (.switchCombine a.id b.id) s = .next s)) ∧
  (∀ (s : State) (pkg : Nat), ∃ t, exec (.noPath pkg) s = .next t ∧ pkg ∈ t.unreachable ∧ Notice.unreachable pkg ∈ t.notices ∧
    t.l2 = s.l2 ∧ t.hbm = s.hbm ∧ t.cores = s.cores ∧ t.hist = s.hist ∧ (s.atSwitch = [] → t.tasks = s.tasks))

/-! ### Tasks (R90-R102, R111) -/

/-- The record of `fork` and `spawn` (R91): the handler address without tag and low bits, six or seven arguments from the registers from B on, and
with a counter D the link bit and D last. -/
def Claims.childRecord (s : State) (d a b : Gpr) : List Word :=
  let h := Claims.reg s a &&& 0x00FFFFFFFFFFFFFC
  let arg := fun (n : Nat) => Claims.reg s (b + BitVec.ofNat 6 n)
  if d = 0 then [h, arg 0, arg 1, arg 2, arg 3, arg 4, arg 5, arg 6] else [h ||| 1, arg 0, arg 1, arg 2, arg 3, arg 4, arg 5, Claims.reg s d]

/-- COUNT of a counter goes up by n, POISON stays (R94, R95). -/
def Claims.countUp (n : Nat) (c : Word) : Word := BitVec.ofNat 64 ((c.toNat + n) % 2 ^ 63 + c.toNat / 2 ^ 63 * 2 ^ 63)

/-- Nothing holds an update of a counter by the hardware up: its page may be written and is no peer page, its word stands in L2 and has no
replica, and no earlier update of it is on its way (R266, R270, R323). -/
def Claims.updatable (s : State) (p : Party) (asid va : Nat) : Prop :=
  let a := spaceOf asid va
  va < 2 ^ 56 ∧ va % 8 = 0 ∧ s.checkPages p.unit a false true false 1 va 8 = .ok () ∧ s.peerOf a va = none ∧ s.replicated (.glob a va) = false ∧
    (s.line a va).has (va % 256) = true ∧ (s.line a va).has (va % 256 + 4) = true ∧ ∀ w ∈ s.path, w.loc ≠ .glob a va

/-- `fork` and `spawn` (R90-R93): with the task's release at `.pkg` before it, COUNT of a counter goes up by 1 and the record takes its place; nothing
else of the task changes; in a task that buffers the child waits with 72 bytes of the shadow buffer. A full argument range, a misaligned handler or
counter traps. `fork` puts its record at its core's deque, `spawn` puts it in the core's mailbox. -/
def Claims.forkAndSpawn : Prop :=
  (∀ (s u : State) (d a b : Gpr), let x := s.task s.focus; let h := Claims.reg s a; let n := Claims.reg s d
    let last := if d = 0 then 57 else 58; let counter := if d = 0 then none else some n; let va := n.toNat % 2 ^ 56
    let both := fun (cause : Nat) (v : Instr → Word) => Claims.traps (.fork d a b) s cause 0 (v (.fork d a b)) none ∧
      Claims.traps (.spawn d a b) s cause 0 (v (.spawn d a b)) none
    (last < b.toNat → both 1 wordOf) ∧
    (b.toNat ≤ last → h.toNat % 4 ≠ 0 → both 2 fun _ => h) ∧
    (b.toNat ≤ last → h.toNat % 4 = 0 → d ≠ 0 → n.toNat % 8 ≠ 0 → both 2 fun _ => n) ∧
    (s.checkChild (.fork d a b) d a b = .ok () → x.buffers = false → s.releaseNow s.focus 4 = (true, u) →
      exec (.fork d a b) s = .next ((u.placeChild s.focus (Claims.childRecord s d a b) counter false x.ord).retire 4)) ∧
    (s.checkChild (.spawn d a b) d a b = .ok () → x.buffers = false → s.releaseNow s.focus 4 = (true, u) →
      exec (.spawn d a b) s = .next ((u.placeChild s.focus (Claims.childRecord s d a b) counter true x.ord).retire 4)) ∧
    (d ≠ 0 → x.buffers = false → s.releaseNow s.focus 4 = (true, u) → Claims.updatable u (.task x.tid (coreOf s.focus)) (s.asid x.job) va →
      (s.checkChild (.fork d a b) d a b = .ok () → ∃ t, exec (.fork d a b) s = .next t ∧
        t.homeWord (s.asid x.job) va = Claims.countUp 1 (u.homeWord (s.asid x.job) va)) ∧
      (s.checkChild (.spawn d a b) d a b = .ok () → ∃ t, exec (.spawn d a b) s = .next t ∧
        t.homeWord (s.asid x.job) va = Claims.countUp 1 (u.homeWord (s.asid x.job) va))) ∧
    (x.buffers = true → x.shadowUsed + 72 ≤ x.shadowKiB * 1024 → ∃ e f, e.dwords = Claims.childRecord s d a b ∧ f.dwords = e.dwords ∧
      let held := fun (g : Trigger) (spawn : Bool) => Host.Outcome.next { s with tasks := tput s.tasks s.focus (Task.next 4 { x with
        shadow := x.shadow ++ [.fork g counter spawn x.ord], shadowUsed := x.shadowUsed + 72 }) }
      (s.checkChild (.fork d a b) d a b = .ok () → exec (.fork d a b) s = held e false) ∧
      (s.checkChild (.spawn d a b) d a b = .ok () → exec (.spawn d a b) s = held f true))) ∧
  (∀ (s : State) (t : Nat) (l : List Word) (ord : BitVec 8), l.length = 8 →
    (∃ g, (s.placeChild t l none true ord).core (coreOf t) = { s.core (coreOf t) with mailbox := (s.core (coreOf t)).mailbox ++ [g] } ∧
      g.dwords = l ∧ g.src = .spawned ∧ g.job = (s.task t).job ∧ (s.placeChild t l none true ord).tasks = s.tasks) ∧
    ((s.core (coreOf t)).dequeTail.toNat < 2 ^ 63 → (s.core (coreOf t)).dequeHead.toNat ≤ (s.core (coreOf t)).dequeTail.toNat →
      (s.core (coreOf t)).dequeTail.toNat - (s.core (coreOf t)).dequeHead.toNat < 64 * (s.core (coreOf t)).dequeBanks - 1 →
      ∃ g c, (s.core (coreOf t)).push g = some c ∧ (s.placeChild t l none false ord).core (coreOf t) = c ∧ g.dwords = l ∧ g.src = .record ∧
        (s.placeChild t l none false ord).tasks = s.tasks))

/-- `join`, `join.t` and `waitv` read their aligned doubleword and acquire at `.pkg` (R96, R97, R99): with COUNT = 0 `join` gives D the poison bit and
`join.t` gives 0, or traps KILL with A and the counter where there is poison; with COUNT ≠ 0 the task waits; `waitv` gives D a word that differs
from B, and waits while it does not. In a task that buffers `join` and `join.t` trap ILLEGAL. -/
def Claims.joinsAndValueWaits : Prop :=
  ∀ (s u : State) (d a b : Gpr) (v : Word), let x := s.task s.focus
    let wait : WaitReason → Host.Outcome State Fault Refusal := fun w =>
      .next { u with tasks := tput u.tasks u.focus { u.task u.focus with life := .waiting w } }
    (x.buffers = true → Claims.traps (.join d a) s 1 0 (wordOf (.join d a)) none ∧ Claims.traps (.joinT d a) s 1 0 (wordOf (.joinT d a)) none) ∧
    (x.buffers = false → x.guarded = false → (Claims.reg s a).toNat % 8 ≠ 0 →
      Claims.traps (.join d a) s 2 0 (Claims.reg s a) none ∧ Claims.traps (.joinT d a) s 2 0 (Claims.reg s a) none) ∧
    ((Claims.reg s a).toNat % 8 ≠ 0 → Claims.traps (.waitv d a b) s 2 0 (Claims.reg s a) none) ∧
    (s.waitWord (Claims.reg s a) = .ok (v, u) →
      (v = Claims.reg s b → exec (.waitv d a b) s = wait .value) ∧ (v ≠ Claims.reg s b → exec (.waitv d a b) s = .next (Claims.wrote u d v 4)) ∧
      (x.buffers = false → x.guarded = false →
        (v.toNat % 2 ^ 63 ≠ 0 → exec (.join d a) s = wait .join ∧ exec (.joinT d a) s = wait .join) ∧
        (v.toNat = 0 → exec (.join d a) s = .next (Claims.wrote u d 0 4) ∧ exec (.joinT d a) s = .next (Claims.wrote u d 0 4)) ∧
        (v.toNat = 2 ^ 63 → exec (.join d a) s = .next (Claims.wrote u d 1 4) ∧
          Claims.traps (.joinT d a) s 13 0 (Claims.reg s a) (some v))))

/-- `wait` (R98, R229): a nonzero counter of the core's crossbar, with no other waiter on it and no gate that wants it, goes down by 1, D is its value
before, and of another task at most its wait ends; on a counter that is 0, or for which another task or a gate waits, the task waits behind the
others. `nop` changes nothing, `yield` sets the other Running
tasks of its core before this one for 16 cycles (R100). `commit` in a task that does not buffer changes nothing, and in one that does hands the stores
of its shadow buffer to the store buffer in their order (R101); while something of the buffer cannot leave yet it has not retired. `end` retires the task by its own end (R102). -/
def Obligations.WaitYieldCommitEnd : Prop :=
  ∀ (s : State) (d a : Gpr), let x := s.task s.focus; let c := coreOf s.focus; let n := (Claims.reg s a).toNat % 16
    (∀ v : BitVec 16, vget (s.core c).xbar.counters n 0 = v → v ≠ 0 → (∀ w ∈ (s.core c).xbar.waiters, w.2 = n → w.1 = s.focus) →
      (s.core c).gatesWant n = false → x.life = .running → ∃ t,
      exec (.wait d a) s = .next t ∧ t.task s.focus = (Claims.wrote s d (v.setWidth 64) 4).task s.focus ∧
      (t.core c).xbar.counters = vput (s.core c).xbar.counters n (v - 1) ∧ (t.core c).mem = (s.core c).mem ∧
      ∀ k, k ≠ s.focus → t.task k = { s.task k with life := (t.task k).life }) ∧
    (vget (s.core c).xbar.counters n 0 = 0 ∨ (∃ w ∈ (s.core c).xbar.waiters, w.2 = n) ∨ (s.core c).gatesWant n = true →
      (∀ w ∈ (s.core c).xbar.waiters, w.1 ≠ s.focus) → ∃ t, exec (.wait d a) s = .next t ∧
      t.task s.focus = { x with life := .waiting .event } ∧ (t.core c).xbar.waiters = (s.core c).xbar.waiters ++ [(s.focus, n)] ∧
      (t.core c).xbar.counters = (s.core c).xbar.counters) ∧
    exec .nop s = .next { s with tasks := tput s.tasks s.focus (Task.next 4 x) } ∧
    (∃ l : List Nat, exec .yield s = .next { s with tasks := tput s.tasks s.focus { Task.next 4 x with
        yielded := if l = [] then none else some (s.cycle, l) } } ∧
      ∀ k, k ∈ l ↔ k ≠ s.focus ∧ unitOf k = unitOf s.focus ∧ ∃ y, (k, y) ∈ s.tasks ∧ y.life = .running) ∧
    (Claims.direct x → x.guarded = false → exec .commit s = .next { s with tasks := tput s.tasks s.focus (Task.next 4 x) }) ∧
    (∀ ws : List Write, x.buffers = true → x.guarded = false → x.shadow = ws.map .write → ∃ t, exec .commit s = .next t ∧
      let y := t.task s.focus; let what := fun (w : Write) => (w.id, w.loc, w.bytes, w.mask, w.op)
      y.committed = true ∧ y.shadow = [] ∧ y.shadowUsed = 0 ∧ y.pc = (Task.next 4 x).pc ∧ y.g = x.g ∧ y.sb.map what = (x.sb ++ ws).map what ∧
      ∀ k, k ≠ s.focus → t.task k = s.task k) ∧
    (∀ v, x.guarded = false → (s.commitNow s.focus = (true, v) → exec .commit s = .next (Claims.passed v 4)) ∧
      (s.commitNow s.focus = (false, v) → exec .commit s = .next (v.pass 1 0))) ∧
    (x.guarded = true → Claims.traps .commit s 1 0 (wordOf .commit) none) ∧
    (∃ t, exec .endTask s = .next t ∧ (t.task s.focus).life = .retired ∧ (t.task s.focus).how = 0 ∧ (x.moving = none → (t.task s.focus).g = x.g))

/-- The instructions that every task may run to their end (R15, R47, R98, R100-R102): from every state `nop`, `yield` and `end` complete, `commit` outside a guarded pair, `wait` on a counter that is not 0 and that no other waiter and no
gate wants, `mfc` of every control register a task reads, and `mtc` of every one it writes. -/
def Obligations.ShortInstructionsComplete : Prop :=
  ∀ (s : State) (d a n : Gpr), let x := s.task s.focus; let c := s.core (coreOf s.focus); let k := (Claims.reg s a).toNat % 16
    exec .nop s = .next (Claims.passed s 4) ∧
    (∃ t, exec .yield s = .next t ∧ (t.task s.focus).pc = (Task.next 4 x).pc ∧ (t.task s.focus).g = x.g ∧ t.cores = s.cores) ∧
    (∃ t, exec .endTask s = .next t ∧ (t.task s.focus).life = .retired ∧ (t.task s.focus).how = 0) ∧
    (x.guarded = false → Claims.direct x → exec .commit s = .next (Claims.passed s 4)) ∧
    (x.guarded = false → x.buffers = true → x.shadow = [] → ∃ t, exec .commit s = .next t ∧ (t.task s.focus).committed = true ∧ (t.task s.focus).pc = (Task.next 4 x).pc) ∧
    (vget c.xbar.counters k 0 ≠ 0 → (∀ w ∈ c.xbar.waiters, w.2 = k → w.1 = s.focus) → c.gatesWant k = false → x.life = .running →
      ∃ t, exec (.wait d a) s = .next t ∧ (t.task s.focus).pc = (Task.next 4 x).pc ∧ (d ≠ 0 → (t.task s.focus).getG d = (vget c.xbar.counters k 0).setWidth 64)) ∧
    (n.toNat ≤ 30 → n ≠ 15 → ∃ v, exec (.mfc d n) s = .next (Claims.wrote s d v 4)) ∧
    (n = 4 ∨ n = 5 ∨ n = 6 ∨ n = 13 ∨ n = 14 ∨ (24 ≤ n.toNat ∧ n.toNat ≤ 27) ∨ (n = 3 ∧ (Claims.reg s a).toNat % 8 ≤ 5) → ∃ t,
      exec (.mtc a n) s = .next t ∧ (t.task s.focus).pc = (Task.next 4 x).pc ∧ (t.task s.focus).g = x.g)

/-- The ordering instructions and the barriers (R278, R279, R284-R286). -/
def Obligations.OrderingAndBarriers : Prop := Claims.orderingInstructions ∧ Claims.barriers

/-- `fork`, `spawn`, the joins and `waitv` (R90-R93, R96, R97, R99). -/
def Obligations.ForkSpawnAndJoins : Prop := Claims.forkAndSpawn ∧ Claims.joinsAndValueWaits

/-! ### System instructions (R118, R257, R268, R326, R355, R356) -/

/-- `tlbi` and `flush` run only on a quadrant service core; in a task they trap ILLEGAL with the word in TRAPVAL (R326). On a service core, with
its must-be-zero bits zero and after a release at `.pkg`, `tlbi` drops in every TLB and every attribute cache exactly the matching entries: one page,
an address space, everything, or class 3. `flush` with LEVEL 0 drops the Cache banks of its die's cores and answers the L2 mode. -/
def Claims.serviceCoreInstructions : Prop :=
  ∀ (s u : State) (d a b : Gpr), let x := Claims.reg s a; let y := Claims.reg s b
    (s.focus < 10240 → Claims.traps (.tlbi a b) s 1 0 (wordOf (.tlbi a b)) none ∧ Claims.traps (.flush d a) s 1 0 (wordOf (.flush d a)) none) ∧
    (10240 ≤ s.focus → 2 ^ 18 ≤ y.toNat → Claims.traps (.tlbi a b) s 1 0 (wordOf (.tlbi a b)) none) ∧
    (10240 ≤ s.focus → y.toNat < 2 ^ 18 → s.releaseNow s.focus 4 = (true, u) → ∃ t,
      exec (.tlbi a b) s = .next (Claims.passed t 4) ∧ t.tasks = u.tasks ∧ t.cores = u.cores ∧ t.l2 = u.l2 ∧
      (let va := x.toNat % 2 ^ 56; let asid := y.toNat % 2 ^ 16; let m := y.toNat / 2 ^ 16
        let hit := fun (ea ec ev : Nat) => (m = 0 ∧ ea = spaceOf asid va ∧ ec = va / 2 ^ 54 % 4 ∧ ev = va / 2 ^ pageShift va) ∨ (m = 1 ∧ ea = asid) ∨
          m = 2 ∨ (m = 3 ∧ ec = 3)
        (∀ k l, (k, l) ∈ t.tlbs → ∃ o, (k, o) ∈ u.tlbs ∧ ∀ e, e ∈ l ↔ e ∈ o ∧ ¬hit e.asid e.cls e.vpn) ∧
        (∀ k l, (k, l) ∈ t.attrs → ∃ o, (k, o) ∈ u.attrs ∧ ∀ e, e ∈ l ↔ e ∈ o ∧ ¬hit e.asid e.cls e.vpn))) ∧
    (10240 ≤ s.focus → x.toNat / 4 ≠ 0 → x.toNat < 2 ^ 16 → Claims.traps (.flush d a) s 1 0 (wordOf (.flush d a)) none) ∧
    (10240 ≤ s.focus → x.toNat / 2 ^ 16 = 1 → Claims.traps (.flush d a) s 1 0 (wordOf (.flush d a)) none) ∧
    (10240 ≤ s.focus → x = 0 → s.releaseNow s.focus 4 = (true, u) → ∃ t,
      exec (.flush d a) s = .next (Claims.wrote t d (if s.l2Partitioned then 1 else 0) 4) ∧ t.tasks = u.tasks ∧ t.l2 = u.l2 ∧ t.hbm = u.hbm ∧
      (∀ c k, (c, k) ∈ t.cores → dieOf c = dieOf (coreOf u.focus) → k.cacheLines = []))

/-- `bmap` (R118) reads the roles of COUNT banks from FIRST on, two bits each, the first lowest; nonzero bits A[15:9] or A[30:20] and a range beyond
bank 383 trap ILLEGAL, and so does a write without the job's BANKCTL. `qpool` (R257) reads QPOOL; A[63:33] must be zero; a write needs BANKCTL and a
zero RSV field, releases at `.quad`, sets QPOOL to A[31:0], empties the quad's Annex, and leaves each of its cores exactly the cached lines in
the banks that stay with its local cache. -/
def Claims.bankRoles : Prop :=
  ∀ (s u : State) (d a b : Gpr), let x := Claims.reg s a; let c := coreOf s.focus; let q := quadOf c; let j := s.job (s.task s.focus).job
    let first := x.toNat % 2 ^ 9; let count := x.toNat / 2 ^ 16 % 16 + 1
    let bad := x.toNat / 2 ^ 9 % 2 ^ 7 ≠ 0 ∨ x.toNat / 2 ^ 20 % 2 ^ 11 ≠ 0 ∨ 384 < first + count
    (bad → Claims.traps (.bmap d a b) s 1 0 (wordOf (.bmap d a b)) none) ∧
    (¬bad → x.toNat / 2 ^ 31 % 2 = 1 → j.desc.bankctl = false → Claims.traps (.bmap d a b) s 1 0 (wordOf (.bmap d a b)) none) ∧
    (¬bad → x.toNat / 2 ^ 31 % 2 = 0 → ∃ v : Word, exec (.bmap d a b) s = .next (Claims.wrote s d v 4) ∧ v.toNat < 4 ^ count ∧
      ∀ i, i < count → v.toNat / 4 ^ i % 4 = (s.core c).bankmap.toNat / 4 ^ (first + i) % 4) ∧
    (2 ^ 33 ≤ x.toNat → Claims.traps (.qpool d a) s 1 0 (wordOf (.qpool d a)) none) ∧
    (x.toNat < 2 ^ 32 → exec (.qpool d a) s = .next (Claims.wrote s d ((s.quad q).qpool.setWidth 64) 4)) ∧
    (2 ^ 32 ≤ x.toNat → x.toNat < 2 ^ 33 → (j.desc.bankctl = false ∨ x.toNat / 2 ^ 28 % 8 ≠ 0) →
      Claims.traps (.qpool d a) s 1 0 (wordOf (.qpool d a)) none) ∧
    (2 ^ 32 ≤ x.toNat → x.toNat < 2 ^ 33 → j.desc.bankctl = true → x.toNat / 2 ^ 28 % 8 = 0 → s.releaseNow s.focus 2 = (true, u) →
      u.focus = s.focus → ∃ t, exec (.qpool d a) s = .next (Claims.wrote t d ((s.quad q).qpool.setWidth 64) 4) ∧ t.tasks = u.tasks ∧
        (t.quad q).qpool = BitVec.ofNat 32 x.toNat ∧ (t.quad q).annex = [] ∧
        ∀ k, k < 4 → ∀ l, l ∈ (t.core (quadCore q k)).cacheLines ↔
          l ∈ (u.core (quadCore q k)).cacheLines ∧ l.bank ∈ t.localWays (quadCore q k))

/-- `bmap` with W = 1 (R118, R119), for one bank, after a release at `.core`: with its role unchanged no role changes; a bank that R119 holds back traps PROTECT with SUB 1 and its
first byte in TRAPVAL; a store of the core's tasks to the bank that is on its way stalls it; else the role is written, every other bank keeps its role, and the bytes of
the bank then read 0 while every other byte of the core reads as before. D is the old role. -/
def Claims.bankRoleWrites : Prop :=
  ∀ (s u : State) (d a b : Gpr), let x := Claims.reg s a; let c := coreOf s.focus; let j := s.job (s.task s.focus).job
    let first := x.toNat % 2 ^ 9; let old := (s.core c).bankmap.toNat / 4 ^ first % 4; let new := (Claims.reg s b).toNat % 4
    x.toNat = first + 2 ^ 31 → first < 384 → j.desc.bankctl = true →
    (new = old → s.releaseNow s.focus 1 = (true, u) → exec (.bmap d a b) s = .next (Claims.wrote u d (BitVec.ofNat 64 old) 4)) ∧
    (new ≠ old → s.bankRefused c first = true → Claims.traps (.bmap d a b) s 4 1 (BitVec.ofNat 64 (4096 * first)) none) ∧
    (new ≠ old → s.bankRefused c first = false → s.releaseNow s.focus 1 = (true, u) → u.focus = s.focus → u.bankStores c [first] = true →
      exec (.bmap d a b) s = .next (s.pass 1 0)) ∧
    (new ≠ old → s.bankRefused c first = false → s.releaseNow s.focus 1 = (true, u) → u.focus = s.focus → u.cores = s.cores →
      u.bankStores c [first] = false → ∃ t,
      exec (.bmap d a b) s = .next (Claims.wrote t d (BitVec.ofNat 64 old) 4) ∧ t.tasks = u.tasks ∧ (t.core c).bankmap.toNat / 4 ^ first % 4 = new ∧
      (∀ k, k < 384 → k ≠ first → (t.core c).bankmap.toNat / 4 ^ k % 4 = (s.core c).bankmap.toNat / 4 ^ k % 4) ∧
      (∀ o, o / 4096 = first → t.homeByte (.bank c o) = 0) ∧ (∀ o, o / 4096 ≠ first → t.homeByte (.bank c o) = s.homeByte (.bank c o)))

/-- `bmap` and `qpool` (R118, R119, R257). -/
def Obligations.BankRolesAndPooling : Prop := Claims.bankRoles ∧ Claims.bankRoleWrites

/-- `trace` (R355): where the Curator collects USER records it sends one with A, B and its address, and stalls while the core's eight places are
full; else it acts as `nop`. `idle` (R356): once DIECLK has reached A, D is DIECLK; until then the task waits for the time. -/
def Claims.traceAndIdle : Prop :=
  ∀ (s : State) (d a b : Gpr), let x := s.task s.focus; let c := coreOf s.focus; let k := s.die (dieOf c)
    (k.collects 1 = false → exec (.trace a b) s = .next (Claims.passed s 4)) ∧
    (k.collects 1 = true → 8 ≤ (s.core c).trace.length → exec (.trace a b) s = .next (s.pass 1 0)) ∧
    (k.collects 1 = true → (s.core c).trace.length < 8 → ∃ t r, exec (.trace a b) s = .next (Claims.passed t 4) ∧ t.tasks = s.tasks ∧
      (t.core c).trace = (s.core c).trace ++ [r] ∧ r[1]? = some k.dieclk ∧ r[2]? = some x.tid ∧ r[3]? = some (Claims.reg s a) ∧
      r[4]? = some (Claims.reg s b) ∧ r[5]? = some x.here) ∧
    ((Claims.reg s a).toNat ≤ k.dieclk.toNat → exec (.idle d a) s = .next (Claims.wrote s d k.dieclk 4)) ∧
    (k.dieclk.toNat < (Claims.reg s a).toNat →
      exec (.idle d a) s = .next { s with tasks := tput s.tasks s.focus { x with life := .waiting .time } })

/-- Cache maintenance (R137, R138): `cinv` and `cwb` with a store of their own to a covered line in the store buffer wait; else `cinv.core` drops exactly
the covered lines from the core's Cache banks, from `.quad` on also from the Annex, and changes no byte at a home; the task then knows every write that
had arrived in a covered line the Annex does not hold; `cwb` below `.die` changes nothing; a count of 0 covers no line; from `.die` on `cinv` takes
exactly the covered lines from L2 too, once the replicas of its lines are withdrawn (R270), and `cwb` leaves exactly them clean; both write a line's dirty
sectors back to its frame, and every byte reads as before. `cpref.core` of one line whose page is present and may be read fills the line in L2 and brings
it into a Cache bank of the core; where the page may not be read it does nothing. -/
def Obligations.CacheMaintenance : Prop :=
  ∀ (s : State) (scope : BitVec 3) (a b : Gpr), let va := (Claims.reg s a).toNat % 2 ^ 56; let n := (Claims.reg s b).toNat % 2 ^ 32
    let x := s.task s.focus; let c := coreOf s.focus
    let clear := ∀ w ∈ x.sb, ∀ as va', w.loc = .glob as va' → keyIn (s.asid x.job) va n (as * 2 ^ 48 + va' / 256) = false
    (¬clear → exec (.cinv scope a b) s = .next (s.pass 1 0) ∧ exec (.cwb scope a b) s = .next (s.pass 1 0)) ∧
    (clear → scope.toNat < 3 → ∃ t k, exec (.cinv scope a b) s = .next (Claims.passed t 4) ∧ (∀ l, t.homeByte l = s.homeByte l) ∧
      t.tasks = tput s.tasks s.focus { x with view := { x.view with known := k } } ∧ (∀ i ∈ x.view.known, i ∈ k) ∧
      (∀ w ∈ s.hist, ∀ as v, w.loc = .glob as v → keyIn (s.asid x.job) va n (lineKey as v) = true →
        (∀ e ∈ (t.quad (quadOf c)).annex, e.key ≠ lineKey as v) → w.id ∈ k) ∧
      (t.core c).cacheLines = (s.core c).cacheLines.filter (fun e => !keyIn (s.asid x.job) va n e.key) ∧
      (2 ≤ scope.toNat → (t.quad (quadOf c)).annex = (s.quad (quadOf c)).annex.filter (fun e => !keyIn (s.asid x.job) va n e.key)) ∧
      (scope.toNat < 2 → t.quads = s.quads)) ∧
    (clear → scope.toNat < 3 → exec (.cwb scope a b) s = .next (Claims.passed s 4)) ∧
    (clear → 3 ≤ scope.toNat → n = 0 → exec (.cwb scope a b) s = .next (Claims.passed s 4)) ∧
    (clear → 3 ≤ scope.toNat → (va + n - 1) / 2 ^ 54 = va / 2 ^ 54 →
      (s.replicatedIn (s.asid x.job) va n = true → exec (.cinv scope a b) s = .next ((s.withdrawIn (s.asid x.job) va n).pass 1 0)) ∧
      (s.replicatedIn (s.asid x.job) va n = false → ∃ t, exec (.cinv scope a b) s = .next (Claims.passed t 4) ∧
        (t.task s.focus).g = x.g ∧ (∀ k, tfind t.l2 k = if keyIn (s.asid x.job) va n k then none else tfind s.l2 k) ∧
        (t.core c).cacheLines = (s.core c).cacheLines.filter (fun e => !keyIn (s.asid x.job) va n e.key) ∧
        (t.quad (quadOf c)).annex = (s.quad (quadOf c)).annex.filter (fun e => !keyIn (s.asid x.job) va n e.key) ∧
        (∀ k o, t.homeByte (.bank k o) = s.homeByte (.bank k o))) ∧
      (∃ t, exec (.cwb scope a b) s = .next (Claims.passed t 4) ∧ t.tasks = s.tasks ∧ t.cores = s.cores ∧ t.quads = s.quads ∧
        (∀ k, tfind t.l2 k = if keyIn (s.asid x.job) va n k then (tfind s.l2 k).map fun l => { l with dirty := 0 } else tfind s.l2 k) ∧
        (∀ e v, (s.line e v).has (v % 256) = true → t.homeByte (.glob e v) = s.homeByte (.glob e v)))) ∧
    (let o := va / 256 * 256; let as := spaceOf (s.asid x.job) va; let l := s.line as o
      clear → 3 ≤ scope.toNat → n ≠ 0 → (va + n - 1) / 256 = va / 256 → s.peerOf as o = none → s.replicatedIn (s.asid x.job) va n = false →
      (∃ e ∈ tget s.tlbs (homeStack o) [], e.asid = as ∧ e.cls = pageClass o ∧ e.vpn = o / 2 ^ pageShift o) → tfind s.l2 (lineKey as o) = some l →
      (∀ i, i < 256 → l.has i = true → l.dirty.getLsbD (i / 64) = false → l.byte i = s.backByte as (o + i)) →
      ∃ t u, exec (.cinv scope a b) s = .next t ∧ exec (.cwb scope a b) s = .next u ∧ ∀ i, i < 256 →
        t.homeByte (.glob as (o + i)) = s.homeByte (.glob as (o + i)) ∧ u.homeByte (.glob as (o + i)) = s.homeByte (.glob as (o + i)) ∧
        (l.has i = true → l.dirty.getLsbD (i / 64) = true → let pa := physical (s.translate as o).pte (o + i)
          t.hbm.byte pa = l.byte i ∧ u.hbm.byte pa = l.byte i)) ∧
    (let o := va / 256 * 256; let as := s.asid x.job
      n ≠ 0 → (va + n - 1) / 256 = va / 256 →
      ((s.attr c as o).kind ≠ 2 ∨ (s.attr c as o).r = false → exec (.cpref scope a b) s = .next (Claims.passed s 4)) ∧
      ((s.attr c as o).kind = 2 → (s.attr c as o).r = true → (s.translate as o).kind = 2 → (s.translate as o).pte.getLsbD 1 = true →
        (s.setMates as o).length < 16 → ∃ t, exec (.cpref scope a b) s = .next (Claims.passed t 4) ∧ t.tasks = s.tasks ∧ t.hbm = s.hbm ∧
          (t.line as o).mask = BitVec.allOnes 64 ∧
          (∀ i, i < 256 → (s.line as o).has i = true → (t.line as o).byte i = (s.line as o).byte i) ∧
          (scope.toNat = 1 → s.localWays c ≠ [] → ∃ w, w ∈ s.localWays c ∧
            ∃ e ∈ (t.core c).cacheLines, e.key = lineKey as o ∧ e.at_ = s.cycle ∧ e.bank = w))) ∧
    (n = 0 → exec (.cpref scope a b) s = .next (Claims.passed s 4))

/-! ### Rings (R128-R132) -/

/-- A ring entry of the issuing core, by the operand A[4:0]. -/
def Claims.entry (s : State) (a : Gpr) : RingRef := ⟨coreOf s.focus, (Claims.reg s a).toNat % 32⟩

/-- `qset` (R129). A[63:7] or CREATE with RELEASE trap ILLEGAL. RELEASE of an unbound handle traps BOUND with the handle; of a bound one it unbinds it.
CREATE on a free entry with the fields of R128 in FIFO banks configures it empty, with BASE, CAP and SLOG from B, and binds the handle; on a
configured entry it traps ILLEGAL. Attaching to an entry that is not configured traps BOUND; to one that is binds the handle. A RELEASE or an attach whose B
is not 0 traps ILLEGAL (the rule says only that B must be zero; DESIGN CHOICE, log 122). A handle that is bound is rebound, its old binding released first: with
another ring its count of handles goes down, and a task ring's last handle frees it. -/
def Claims.ringBinding : Prop :=
  ∀ (s : State) (q : BitVec 4) (a b : Gpr), let va := (Claims.reg s a).toNat; let vb := Claims.reg s b; let x := s.task s.focus; let r := Claims.entry s a
    let all := fun (P : Instr → Prop) => P (.qsetCreate q a b) ∧ P (.qsetAttach q a b) ∧ P (.qsetRelease q a b)
    (2 ^ 7 ≤ va ∨ 96 ≤ va → all fun i => Claims.traps i s 1 0 (wordOf i) none) ∧
    (va / 32 = 2 ∨ va < 32 → vb ≠ 0 → all fun i => Claims.traps i s 1 0 (wordOf i) none) ∧
    (va / 32 = 2 → vb = 0 → vget x.q q.toNat none = none → all fun i => Claims.traps i s 8 0 (BitVec.ofNat 64 q.toNat) none) ∧
    (va / 32 = 2 → vb = 0 → ∀ h, vget x.q q.toNat none = some h → ∃ t, (all fun i => exec i s = .next (Claims.passed t 4)) ∧
      t.task s.focus = { x with q := vput x.q q.toNat none }) ∧
    (va / 32 = 1 → vget x.q q.toNat none = none → (s.ring r).isSome = true → all fun i => Claims.traps i s 1 0 (wordOf i) none) ∧
    (va / 32 = 1 → vget x.q q.toNat none = none → s.ring r = none → ringFieldsOk vb = true →
      (s.core (coreOf s.focus)).badRingByte (vb.toNat % 2 ^ 21) ((vb.toNat / 2 ^ 24 % 2 ^ 15 + 1) * 2 ^ (vb.toNat / 2 ^ 40 % 16)) = none →
      ∃ t, (all fun i => exec i s = .next (Claims.passed t 4)) ∧ t.task s.focus = { x with q := vput x.q q.toNat (some r) } ∧
        t.ring r = some ⟨vb.toNat % 2 ^ 21, vb.toNat / 2 ^ 24 % 2 ^ 15 + 1, vb.toNat / 2 ^ 40 % 16, vb.getLsbD 44, 0, 0, 0, 1, [], [], []⟩) ∧
    (va < 32 → vb = 0 → vget x.q q.toNat none = none → s.ring r = none → all fun i => Claims.traps i s 8 0 (BitVec.ofNat 64 q.toNat) none) ∧
    (va < 32 → vb = 0 → vget x.q q.toNat none = none → ∀ e, s.ring r = some e → ∃ t, (all fun i => exec i s = .next (Claims.passed t 4)) ∧
      t.task s.focus = { x with q := vput x.q q.toNat (some r) } ∧ t.ring r = some { e with handles := e.handles + 1 }) ∧
    (∀ h f e, va < 32 → vb = 0 → vget x.q q.toNat none = some h → h ≠ r → h.entry < 32 → s.ring h = some f → s.ring r = some e →
      ∃ t, (all fun i => exec i s = .next (Claims.passed t 4)) ∧ t.task s.focus = { x with q := vput x.q q.toNat (some r) } ∧
        t.ring r = some { e with handles := e.handles + 1 } ∧
        t.ring h = if f.msg = false ∧ f.handles ≤ 1 then none else some { f with handles := f.handles - 1 })

/-- `qadv` and `qstat` on a task ring (R131, R132). A count of 0 or above CAP traps BOUND with the handle, an unbound handle too, and before the message ring
of a `qadv.p` does (DEDUCED, log 46). `qadv.c` waits while fewer slots are filled, then
HEAD moves on by the count; `qadv.p` waits while fewer are free or a copy fills the ring, then releases at `.quad` and moves TAIL, which carries that release (R280); on a message ring it traps ILLEGAL.
`qstat` gives NACKS, FILLED, FREE and the offset of the slot a consumer load reads, and changes nothing. -/
def Claims.ringMoves : Prop :=
  ∀ (s u : State) (q : BitVec 4) (d b : Gpr) (h : RingRef) (r : Ring), let n := (Claims.reg s b).toNat; let x := s.task s.focus
    let filled := (r.tail - r.head).toNat
    (vget x.q q.toNat none = none → Claims.traps (.qadvC q b) s 8 0 (BitVec.ofNat 64 q.toNat) none ∧
      Claims.traps (.qadvP q b) s 8 0 (BitVec.ofNat 64 q.toNat) none ∧ Claims.traps (.qstat d q) s 8 0 (BitVec.ofNat 64 q.toNat) none) ∧
    (vget x.q q.toNat none = some h → s.ring h = some r → h.entry < 32 → r.held = [] → x.life = .running →
      (n = 0 ∨ r.cap < n → Claims.traps (.qadvC q b) s 8 0 (BitVec.ofNat 64 q.toNat) none ∧
        Claims.traps (.qadvP q b) s 8 0 (BitVec.ofNat 64 q.toNat) none) ∧
      (1 ≤ n → n ≤ r.cap → r.msg = true → Claims.traps (.qadvP q b) s 1 0 (wordOf (.qadvP q b)) none) ∧
      (1 ≤ n → n ≤ r.cap → r.msg = false →
        (filled < n → exec (.qadvC q b) s = .next { s with tasks := tput s.tasks s.focus { x with life := .waiting .ring } }) ∧
        (n ≤ filled → ∃ t, exec (.qadvC q b) s = .next t ∧ t.ring h = some { r with head := r.head + BitVec.ofNat 32 n } ∧
          t.task s.focus = Task.next 4 x) ∧
        (r.cap - filled < n → exec (.qadvP q b) s = .next { s with tasks := tput s.tasks s.focus { x with life := .waiting .ring } }) ∧
        (n ≤ r.cap - filled → s.ringBusy h = false → s.releaseNow s.focus 2 = (true, u) → u.focus = s.focus → u.ring h = some r → ∃ t,
          exec (.qadvP q b) s = .next t ∧ (t.task s.focus).g = (u.task s.focus).g ∧
          ∃ rs, t.ring h = some { r with tail := r.tail + BitVec.ofNat 32 n, rel := rs } ∧ ∀ y, (u.task s.focus).view.rel = some y → y ∈ rs) ∧
        (r.nacks < 256 → filled < 2 ^ 16 → r.cap < 2 ^ 16 → r.base + r.cap * 2 ^ r.slog ≤ 2 ^ 21 → 0 < r.cap →
          exec (.qstat d q) s = .next (Claims.wrote s d (BitVec.ofNat 64 (r.nacks * 2 ^ 56 + filled * 2 ^ 40 + (r.cap - filled) * 2 ^ 24 +
            (r.base + r.head.toNat % r.cap * 2 ^ r.slog))) 4))))

/-- `qset`, `qadv` and `qstat` (R128-R132). -/
def Obligations.Rings : Prop := Claims.ringBinding ∧ Claims.ringMoves

/-- `tlbi`, `flush`, `trace` and `idle` (R268, R326, R355, R356). -/
def Obligations.ServiceCoreTraceAndIdle : Prop := Claims.serviceCoreInstructions ∧ Claims.traceAndIdle

/-! ### Messages, queues and deques (R293-R299) -/

/-- The scalar registers of a task after v is written to d (R13). -/
def Claims.gset (x : Task) (d : Gpr) (v : Word) : Vector Word 64 := if d = 0 then x.g else x.g.set d.toNat v

/-- `send` (R299): A[9:0] names the core, with A[15] a message of A[23:16] + 1 records goes to message ring A[14:10], else one record to the
mailbox; nonzero bits above, or more records to a mailbox, trap ILLEGAL with A in TRAPINFO, a misaligned B traps MISALIGN. After the release at `.pkg` one
message enters the network, with the records read and the task's release; no memory and no register changes. -/
def Claims.sends : Prop :=
  ∀ (s u : State) (a b : Gpr), let x := s.task s.focus; let va := (Claims.reg s a).toNat; let m := va / 2 ^ 16 % 2 ^ 8 + 1
    let ring := va / 2 ^ 15 % 2 = 1
    (2 ^ 24 ≤ va ∨ ¬ring ∧ m ≠ 1 → Claims.traps (.send a b) s 1 0 (wordOf (.send a b)) (some (Claims.reg s a))) ∧
    (va < 2 ^ 24 → (ring ∨ m = 1) → va / 16 % 16 < 10 → (Claims.reg s b).toNat % 64 ≠ 0 →
      Claims.traps (.send a b) s 2 0 (Claims.reg s b) none) ∧
    (∀ off, va < 2 ^ 24 → (ring ∨ m = 1) → va / 16 % 16 < 10 → s.scratchArea (.send a b) (Claims.reg s b) (64 * m) 0 = .ok off →
      x.guarded = false → Claims.direct x → s.releaseNow s.focus 4 = (true, u) → ∃ t e r, exec (.send a b) s = .next t ∧
        t.msgs = u.msgs ++ [e] ∧ e.kind = (if ring then .ring (va / 2 ^ 10 % 32) else .mailbox) ∧
        e.core = va / 2 ^ 8 % 4 * 160 + va / 16 % 16 * 16 + va % 16 ∧ e.fromCore = coreOf u.focus ∧ e.tid = (u.task u.focus).tid ∧
        e.job = (u.task u.focus).job ∧ e.dwords = (u.readRecords off m).1.flatten ∧ e.rel = some r ∧ r.scope = 4 ∧
        (∀ k ∈ (u.task u.focus).view.known, k ∈ r.snap) ∧
        (∀ l, t.homeByte l = u.homeByte l) ∧ (t.task u.focus).g = (u.task u.focus).g)

/-- `post` (R296): 1 to 8 records, each to the global queue of the slice that holds the address in its own doubleword 1; then the task ends. -/
def Claims.posts : Prop :=
  ∀ (s u : State) (a b : Gpr), let x := s.task s.focus; let n := (Claims.reg s b).toNat
    (n = 0 ∨ 8 < n → Claims.traps (.post a b) s 1 0 (wordOf (.post a b)) none) ∧
    (1 ≤ n → n ≤ 8 → (Claims.reg s a).toNat % 64 ≠ 0 → Claims.traps (.post a b) s 2 0 (Claims.reg s a) none) ∧
    (∀ off, 1 ≤ n → n ≤ 8 → s.scratchArea (.post a b) (Claims.reg s a) (64 * n) 0 = .ok off → x.guarded = false → Claims.direct x →
      s.releaseNow s.focus 4 = (true, u) → ∃ t l, exec (.post a b) s = .next t ∧ t.msgs = u.msgs ++ l ∧
        l.map (·.dwords) = (u.readRecords off n).1 ∧
        (∀ e ∈ l, ∃ sl, e.kind = .queue sl ∧ e.core = sliceCore sl ∧ e.fromCore = coreOf u.focus ∧ e.tid = (u.task u.focus).tid) ∧
        (t.task u.focus).life = .retired ∧ (t.task u.focus).how = 0)

/-- `dpush` (R293, R295): in a full deque D is 0 and no core changes; else the record goes in at TAIL and D is 1. -/
def Claims.pushes : Prop :=
  ∀ (s u : State) (d a : Gpr) (off : Nat), let x := s.task s.focus; let k := u.core (coreOf u.focus); let y := u.task u.focus
    ((Claims.reg s a).toNat % 64 ≠ 0 → Claims.traps (.dpush d a) s 2 0 (Claims.reg s a) none) ∧
    (s.scratchArea (.dpush d a) (Claims.reg s a) 64 0 = .ok off → x.guarded = false → Claims.direct x → s.releaseNow s.focus 3 = (true, u) →
      (k.dequeCap ≤ (k.dequeTail - k.dequeHead).toNat → ∃ t, exec (.dpush d a) s = .next t ∧ t.core (coreOf u.focus) = k ∧
        (t.task u.focus).g = Claims.gset y d 0) ∧
      ((k.dequeTail - k.dequeHead).toNat < k.dequeCap → ∃ t g c, exec (.dpush d a) s = .next t ∧ k.push g = some c ∧
        t.core (coreOf u.focus) = c ∧ g.dwords = (u.readRecord off).1 ∧ g.src = .record ∧ g.job = y.job ∧
        (t.task u.focus).g = Claims.gset y d 1))

/-- What a task that got record g at the offset holds then (R295): D is 1, and the 64 bytes at the offset are the record. -/
def Claims.got (s t : State) (d : Gpr) (off : Nat) (g : Trigger) : Prop :=
  (t.task s.focus).g = Claims.gset (s.task s.focus) d 1 ∧
  ((s.core (coreOf s.focus)).mem.wf = true → ∀ j, j < 64 → t.homeByte (.bank (coreOf s.focus) (off + j)) = ((bytesOfDwords g.dwords)[j]?).getD 0)

/-- `dpop` and `dsteal` (R293, R295): an empty deque gives 0 and changes nothing else; `dpop` takes the record at TAIL of the own deque, TAIL goes down
by 1, and for the last record both HEAD and TAIL become the old HEAD plus 1. `dsteal` first reads HEAD and the record of another core of the die; while HEAD is unchanged it then takes the record and HEAD goes up by 1; where HEAD
has moved it has lost: 2, and nothing else changes (two steps: DEDUCED, log 34). A coordinate of another die or of no core traps PROTECT; the own core's coordinate makes `dsteal`
act as `dpop`. -/
def Claims.pops : Prop :=
  ∀ (s : State) (d a b : Gpr) (off : Nat), let x := s.task s.focus; let c := coreOf s.focus; let v := (Claims.reg s b).toNat
    let other := v / 256 % 4 * 160 + v / 16 % 16 * 16 + v % 16
    (s.scratchArea (.dsteal d a b) (Claims.reg s a) 64 1 = .ok off →
      (10 ≤ v / 16 % 16 → ∃ sub val, Claims.traps (.dsteal d a b) s 4 sub val (some (Claims.reg s b))) ∧
      (v / 16 % 16 < 10 → dieOf other ≠ dieOf c → ∃ sub val, Claims.traps (.dsteal d a b) s 4 sub val (some (Claims.reg s b))) ∧
      (v / 16 % 16 < 10 → other = c → x.guarded = false → exec (.dsteal d a b) s = exec (.dpop d a) s) ∧
      (s.scratchArea (.dpop d a) (Claims.reg s a) 64 1 = .ok off → x.guarded = false → Claims.direct x →
        ((s.core c).pop = none → exec (.dpop d a) s = .next (Claims.wrote s d 0 4)) ∧
        (∀ g k, (s.core c).pop = some (g, k) → ∃ t, exec (.dpop d a) s = .next t ∧ Claims.got s t d off g ∧
          (t.core c).dequeMeta = k.dequeMeta ∧
          let h := (s.core c).dequeHead; let n := (s.core c).dequeTail - 1; let at_ := 4096 * (s.core c).dequeBase
          ((s.core c).mem.wf = true → (off + 64 ≤ at_ ∨ at_ + 16 ≤ off) →
            (0 < (n - h).toInt → (t.core c).dequeTail = n ∧ (t.core c).dequeHead = h) ∧
            (h = n → (t.core c).dequeTail = h + 1 ∧ (t.core c).dequeHead = h + 1))) ∧
        (v / 16 % 16 < 10 → dieOf other = dieOf c → other ≠ c →
          let k := s.core other
          (x.theft = none → (k.dequeTail - k.dequeHead).toInt ≤ 0 → exec (.dsteal d a b) s = .next (Claims.wrote s d 0 4)) ∧
          (x.theft = none → 0 < (k.dequeTail - k.dequeHead).toInt → exec (.dsteal d a b) s =
            .next (({ s with tasks := tput s.tasks s.focus { x with
              theft := some (other, k.dequeHead, k.recordTrigger k.dequeHead) } } : State).pass 1 0)) ∧
          (∀ h g, x.theft = some (other, h, g) →
            (k.dequeHead = h → ∃ t, exec (.dsteal d a b) s = .next t ∧ Claims.got s t d off g ∧ (t.core other).mem = (k.putHeader 0 (h + 1)).mem) ∧
            (k.dequeHead ≠ h → exec (.dsteal d a b) s = .next (Claims.wrote s d 2 4))))))

/-- `send`, `post`, `dpush`, `dpop` and `dsteal` (R293, R295, R296, R299). -/
def Obligations.MessagesAndDeques : Prop := Claims.sends ∧ Claims.posts ∧ Claims.pushes ∧ Claims.pops

/-! ### Handlers, holds, grids, identity (R258, R264, R289, R297, R300-R302) -/

/-- `hbind` (R297) with A[63] = 0: every die's entry A[7:0] of the job becomes B, and D is the old handler; no other entry changes.
With A[63] = 1 it binds a sink port: 1 for a stale name, 2 for a bound port, 3 for a source or a core outside the casement's SCOPE, else 0, and then the port's binding
is the handler at this core. A misaligned B traps MISALIGN, bits that must be zero trap ILLEGAL with A. -/
def Claims.binds : Prop :=
  ∀ (s : State) (d a b : Gpr), let va := Claims.reg s a; let h := Claims.reg s b; let j := (s.task s.focus).job; let e := va.toNat % 256
    let set := fun (n : Word) (f : PEntry → PEntry) => exec (.hbind d a b) s = .next (Claims.wrote (s.modPort va f) d n 4)
    let still := fun (n : Word) => exec (.hbind d a b) s = .next (Claims.wrote s d n 4)
    (h.toNat % 4 ≠ 0 → Claims.traps (.hbind d a b) s 2 0 h none) ∧
    (h.toNat % 4 = 0 → 2 ^ 8 ≤ va.toNat → va.toNat < 2 ^ 63 → Claims.traps (.hbind d a b) s 1 0 (wordOf (.hbind d a b)) (some va)) ∧
    (h.toNat % 4 = 0 → 2 ^ 63 ≤ va.toNat → nameValid va = false → Claims.traps (.hbind d a b) s 1 0 (wordOf (.hbind d a b)) (some va)) ∧
    (h.toNat % 4 = 0 → va.toNat < 2 ^ 8 → ∃ t, exec (.hbind d a b) s = .next t ∧
      (t.task s.focus).g = Claims.gset (s.task s.focus) d (tget (s.die (dieOf (coreOf s.focus))).handlers (handlerKey j e) 0) ∧
      (∀ k, k < 4 → tget (t.die k).handlers (handlerKey j e) 0 = h) ∧
      (∀ k n, n ≠ handlerKey j e → tget (t.die k).handlers n 0 = tget (s.die k).handlers n 0)) ∧
    (h.toNat % 4 = 0 → 2 ^ 63 ≤ va.toNat → nameValid va = true → (∀ m ∈ (s.quad (nameQuad va)).toT, m.1 ≠ coreOf s.focus) →
      (s.portAt va = none → still 1) ∧
      (∀ p, s.portAt va = some p →
        (∀ t n, p.bind = .task t n → still 2) ∧
        (∀ f n, p.bind = .handler f n → (h ≠ 0 → still 2) ∧ (h = 0 → set 0 fun y => { y with bind := .none, credits := 4 })) ∧
        (p.bind = .none → h = 0 → still 0) ∧
        (p.bind = .none → h ≠ 0 → (p.sink = false ∨ outOfScope (s.nameScope va) (coreOf s.focus) (nameQuad va) = true) → still 3) ∧
        (p.bind = .none → h ≠ 0 → p.sink = true → outOfScope (s.nameScope va) (coreOf s.focus) (nameQuad va) = false →
          set 0 fun y => { y with bind := .handler h (coreOf s.focus), credits := 4 })))

/-- `hhold` and `hrel` (R301): the request is queued at the directory of the die TASKID.DIE, the task stalls until its reply, and then retires with
the result in D; a hold of the own task takes effect at that boundary. -/
def Claims.holdsAndReleases : Prop :=
  ∀ (s : State) (d a : Gpr), let x := s.task s.focus; let n := (Claims.reg s a).toNat % 4
    (x.reply = none → ∃ t u, exec (.hhold d a) s = .next t ∧ exec (.hrel d a) s = .next u ∧
      (t.die n).holdQ = (s.die n).holdQ ++ [(x.tid.toNat, Claims.reg s a, true)] ∧
      (u.die n).holdQ = (s.die n).holdQ ++ [(x.tid.toNat, Claims.reg s a, false)] ∧
      t.task s.focus = { x with reply := some none } ∧ u.task s.focus = { x with reply := some none }) ∧
    (x.reply = some none → exec (.hhold d a) s = .next (s.pass 1 0) ∧ exec (.hrel d a) s = .next (s.pass 1 0)) ∧
    (∀ r, x.reply = some (some r) → x.frame = none → ∃ t, exec (.hhold d a) s = .next t ∧ exec (.hrel d a) s = .next t ∧
      t.task s.focus = { x with
        g := Claims.gset x d (BitVec.ofNat 64 r)
        pc := pcPlus x.pc 4
        skipStop := 0
        stalled := none
        theft := none
        reply := none
        life := if x.holdReq then x.life.hold else x.life } ∧ t.cores = s.cores ∧ t.l2 = s.l2)

/-- `launch` (R289): a grid of B+1[31:0] + 1 teams of B+1[37:32] + 1 tasks with handler A, argument B and counter B+2, after the release at `.pkg`; its number is the
job's next, and D; COUNT of a nonzero counter goes up by the number of teams, once nothing holds that update up. A register above g61 for B, bits that
must be zero and a misaligned handler or counter trap. -/
def Claims.launches : Prop :=
  ∀ (s u : State) (d a b : Gpr), let x := s.task s.focus; let v := Claims.reg s (b + 1); let n := Claims.reg s (b + 2)
    let i := Instr.launch d a b; let num := ((u.job x.job).grids + 1) % 2 ^ 32
    (61 < b.toNat → Claims.traps i s 1 0 (wordOf i) none) ∧
    (b.toNat ≤ 61 → (Claims.reg s a).toNat % 4 ≠ 0 → Claims.traps i s 2 0 (Claims.reg s a) none) ∧
    (b.toNat ≤ 61 → (Claims.reg s a).toNat % 4 = 0 → (v.toNat / 2 ^ 38 % 4 ≠ 0 ∨ 2 ^ 48 ≤ v.toNat) →
      Claims.traps i s 1 0 (wordOf i) (some v)) ∧
    (b.toNat ≤ 61 → (Claims.reg s a).toNat % 4 = 0 → v.toNat / 2 ^ 38 % 4 = 0 → v.toNat < 2 ^ 48 → n.toNat % 8 ≠ 0 →
      Claims.traps i s 2 0 n none) ∧
    (b.toNat ≤ 61 → (Claims.reg s a).toNat % 4 = 0 → v.toNat / 2 ^ 38 % 4 = 0 → v.toNat < 2 ^ 48 → n.toNat % 8 = 0 → x.guarded = false →
      Claims.direct x → s.releaseNow s.focus 4 = (true, u) →
      (n = 0 ∨ s.checkPages (unitOf s.focus) (s.asid x.job) false true false 1 (n.toNat % 2 ^ 56) 8 = .ok ()) → ∃ t g, exec i s = .next t ∧
        t.grids = u.grids ++ [g] ∧ g.num = num ∧ g.handler = Claims.reg s a ∧ g.arg = Claims.reg s b ∧ g.teams = v.toNat % 2 ^ 32 + 1 ∧
        g.size = v.toNat / 2 ^ 32 % 64 + 1 ∧ g.scr = v.toNat / 2 ^ 40 ∧ g.counter = n ∧ g.job = x.job ∧ g.next = 0 ∧ (t.job x.job).grids = num ∧
        (t.task s.focus).g = Claims.gset x d (BitVec.ofNat 64 num) ∧
        (n ≠ 0 → Claims.updatable u (.task x.tid (coreOf s.focus)) (s.asid x.job) (n.toNat % 2 ^ 56) →
          t.homeWord (s.asid x.job) (n.toNat % 2 ^ 56) = Claims.countUp (v.toNat % 2 ^ 32 + 1) (u.homeWord (s.asid x.job) (n.toNat % 2 ^ 56))))

/-- `tid` (R300): the item A[7:0]; without a team items 1 and 4 are all ones and 2, 3 and 5 are 0. Bits above and items from 12 on trap ILLEGAL. -/
def Claims.identities : Prop :=
  ∀ (s : State) (d a : Gpr), let x := s.task s.focus; let c := s.core (coreOf s.focus); let n := (Claims.reg s a).toNat
    let gives := fun (v : Word) => exec (.tid d a) s = .next (Claims.wrote s d v 4)
    (11 < n → Claims.traps (.tid d a) s 1 0 (wordOf (.tid d a)) none) ∧
    (n = 0 → gives x.tid) ∧ (n = 6 → gives x.enq) ∧ (n = 7 → gives x.disp) ∧
    (n = 8 → gives (BitVec.ofNat 64 (min x.nacks (2 ^ 32 - 1)))) ∧ (n = 9 → gives c.stealAttempts) ∧ (n = 10 → gives c.stealFailed) ∧
    (n = 11 → gives c.searchCycles) ∧
    (x.team = none → (n = 1 ∨ n = 4 → gives (BitVec.allOnes 64)) ∧ (n = 2 ∨ n = 3 ∨ n = 5 → gives 0)) ∧
    (∀ e m, x.team = some e → tfind s.teams e.1 = some m → (n = 1 → gives (BitVec.ofNat 64 m.num)) ∧
      (n = 2 → gives (BitVec.ofNat 64 e.2.1)) ∧ (n = 3 → gives (BitVec.ofNat 64 e.2.2)) ∧
      (n = 4 → gives (if m.scr = 0 then BitVec.allOnes 64 else BitVec.ofNat 64 (4096 * m.bank))) ∧
      (n = 5 → ∀ g, s.grids = [g] → g.id = m.grid → gives (BitVec.ofNat 64 g.num)))

/-- `migrate` (R258, R302) to the own core only moves on; to another core of the quad it asks for admission there and the PC stays.
`rcmask` (R264): D is the order mask, and with A[8] the mask becomes A[7:0]. Bits that must be zero trap ILLEGAL. -/
def Claims.movesAndMasks : Prop :=
  ∀ (s : State) (d a : Gpr), let x := s.task s.focus; let c := coreOf s.focus; let va := Claims.reg s a
    (3 < va.toNat → Claims.traps (.migrate a) s 1 0 (wordOf (.migrate a)) none) ∧
    (va.toNat = quadIndex c → exec (.migrate a) s = .next (Claims.passed s 4)) ∧
    (va.toNat ≤ 3 → va.toNat ≠ quadIndex c → ∃ t n, exec (.migrate a) s = .next t ∧
      (t.task s.focus).moving = some ⟨quadCore (quadOf c) va.toNat, none, n⟩ ∧ (t.task s.focus).pc = x.pc ∧ (t.task s.focus).g = x.g) ∧
    (2 ^ 9 ≤ va.toNat → Claims.traps (.rcmask d a) s 1 0 (wordOf (.rcmask d a)) (some va)) ∧
    (va.toNat < 2 ^ 8 → exec (.rcmask d a) s = .next (Claims.wrote s d (x.ord.setWidth 64) 4)) ∧
    (2 ^ 8 ≤ va.toNat → va.toNat < 2 ^ 9 → exec (.rcmask d a) s = .next (Claims.wrote
      { s with tasks := tput s.tasks s.focus { x with ord := BitVec.ofNat 8 va.toNat } } d (x.ord.setWidth 64) 4))

/-- `hbind`, `hhold`, `hrel`, `launch`, `tid`, `migrate` and `rcmask`. -/
def Obligations.HandlersHoldsAndGrids : Prop :=
  Claims.binds ∧ Claims.holdsAndReleases ∧ Claims.launches ∧ Claims.identities ∧ Claims.movesAndMasks

/-! ### Ports and casements (R234-R254) -/

/-- What an offer leaves (R246, R253): the Transom's input gains the offer, with a source's bytes as they were read and the release of the task,
and the handle holds it as outstanding; no register changes. -/
def Claims.offered (s t : State) (h off : Nat) (r : PortRef) (block : Bool) (alt : Option Word) : Prop :=
  let x := s.task s.focus
  ∃ data snap, data = (if r.sink = true ∨ r.dsz = 0 then ⟨[], false⟩ else (s.readDatum off r.dsz).1) ∧
    (∀ k ∈ x.view.known, k ∈ snap) ∧
    (t.quad (nameQuad r.name)).toT = (s.quad (nameQuad r.name)).toT ++ [(coreOf s.focus, x.phase, .offer x.tid r.name data alt snap)] ∧
    (t.task s.focus).port h = some { r with offered := some (off, data), block := block, alt := alt, issuedAt := x.pc } ∧ (t.task s.focus).g = x.g

/-- `put`, `get` and `offer` (R246, R247). An unbound or stale handle traps BOUND; the wrong direction and a port with an offer or a completion
of the task trap ILLEGAL; an offset that is no multiple of 4 traps MISALIGN. After the release at the casement's scope the offer leaves:
`put` and `get` then wait for FIRE, `offer` retires. The first `get` on a delivery handle lands its datum with an acquire of the releases that came with it,
gives DSZ and unbinds the handle, and a `put` on one, which names a sink, traps ILLEGAL (R244). -/
def Claims.portOffers : Prop :=
  ∀ (s u : State) (d : Gpr) (p : BitVec 4) (b : Gpr), let x := s.task s.focus; let h := p.toNat
    let off := (Claims.reg s b).toNat % 2 ^ 56; let stale := BitVec.ofNat 64 (16 + h)
    (x.port h = none → Claims.traps (.put p b) s 8 0 stale none ∧ Claims.traps (.get d p b) s 8 0 stale none ∧
      Claims.traps (.offer p b) s 8 0 stale none) ∧
    (∀ r, x.port h = some r → r.dlv = none → r.block = false →
      (s.portAt r.name = none → Claims.traps (.put p b) s 8 0 stale none ∧ Claims.traps (.get d p b) s 8 0 stale none ∧
        Claims.traps (.offer p b) s 8 0 stale none) ∧
      ((s.portAt r.name).isSome = true →
        (r.sink = true → Claims.traps (.put p b) s 1 0 (wordOf (.put p b)) none) ∧
        (r.sink = false → Claims.traps (.get d p b) s 1 0 (wordOf (.get d p b)) none) ∧
        (r.offered.isSome = true ∨ r.done.isSome = true → Claims.traps (.offer p b) s 1 0 (wordOf (.offer p b)) none) ∧
        (x.portBusy r.name = false → r.dsz ≠ 0 → off % 4 ≠ 0 → Claims.traps (.offer p b) s 2 0 (BitVec.ofNat 64 off) none) ∧
        (x.portBusy r.name = false → s.checkArea r off = .ok () → x.guarded = false → Claims.direct x →
          (r.sink = true ∨ r.dsz = 0 ∨ s.watchedRange (coreOf s.focus) off r.dsz = false) →
          s.releaseNow s.focus (s.nameScope r.name) = (true, u) →
          (r.sink = false → ∃ t, exec (.put p b) s = .next t ∧ Claims.offered u t h off r true none ∧
            (t.task s.focus).life = .waiting .port ∧ (t.task s.focus).portWait = some (.fire 0 [h])) ∧
          (r.sink = true → ∃ t, exec (.get d p b) s = .next t ∧ Claims.offered u t h off r true none ∧
            (t.task s.focus).life = .waiting .port ∧ (t.task s.focus).portWait = some (.fire d [h])) ∧
          (x.frame = none → ∃ t, exec (.offer p b) s = .next t ∧ Claims.offered u t h off r false none ∧
            (t.task s.focus).pc = pcPlus x.pc 4 ∧ (t.task s.focus).life = x.life)))) ∧
    (∀ r, x.port h = some r → r.dlv.isSome = true → r.sink = true → r.block = false → (s.portAt r.name).isSome = true →
      Claims.traps (.put p b) s 1 0 (wordOf (.put p b)) none) ∧
    (∀ r data scope snap, x.port h = some r → r.dlv = some (data, scope, snap) → r.sink = true → data.bytes.length = r.dsz → s.checkArea r off = .ok () →
      (r.dsz = 0 ∨ s.watchedRange (coreOf s.focus) off r.dsz = false) → x.guarded = false → Claims.direct x → ∃ t,
      exec (.get d p b) s = .next t ∧ (t.task s.focus).port h = none ∧ (t.task s.focus).g = Claims.gset x d (BitVec.ofNat 64 r.dsz) ∧
      (∀ k ∈ snap, k ∈ (t.task s.focus).view.known) ∧
      ((s.core (coreOf s.focus)).mem.wf = true → ∀ j, j < r.dsz → t.homeByte (.bank (coreOf s.focus) (off + j)) = (data.bytes[j]?).getD 0))

/-- `alt` (R247): a mask with bits above 15 or of zero, and ports of several casements, trap ILLEGAL; else every handle of the mask
offers, in ascending order and with the group's mark, and the task waits for one FIRE. -/
def Claims.altOffers : Prop :=
  ∀ (s u : State) (d a b : Gpr) (l : List (Nat × Nat × PortRef)), let x := s.task s.focus; let m := (Claims.reg s a).toNat; let i := Instr.alt d a b
    (m = 0 ∨ 2 ^ 16 ≤ m → Claims.traps i s 1 0 (wordOf i) none) ∧
    (m ≠ 0 → m < 2 ^ 16 → (∀ h r, x.port h = some r → r.alt = none) → s.checkAlt i (Claims.reg s b) (maskHandles m) = .ok l →
      (oneCasement l = false → Claims.traps i s 1 0 (wordOf i) none) ∧
      (∀ e, l.head? = some e → oneCasement l = true → x.guarded = false → Claims.direct x →
        (∀ f ∈ l, f.2.2.sink = true ∨ f.2.2.dsz = 0 ∨ s.watchedRange (coreOf s.focus) f.2.1 f.2.2.dsz = false) →
        s.releaseNow s.focus (s.nameScope e.2.2.name) = (true, u) →
        ∃ (t : State) (mark : Word) (f : Nat × Nat × PortRef → Datum) (g : Nat × Nat × PortRef → List Nat), exec i s = .next t ∧
          (t.quad (nameQuad e.2.2.name)).toT = (u.quad (nameQuad e.2.2.name)).toT ++
            l.map (fun e => (coreOf s.focus, (u.task s.focus).phase, PMsg.offer x.tid e.2.2.name (f e) (some mark) (g e))) ∧
          l.map (·.1) = (List.range 16).filter (fun h => m / 2 ^ h % 2 = 1) ∧
          (t.task s.focus).life = .waiting .port ∧ (t.task s.focus).portWait = some (.fire d (l.map (·.1)))))

/-- A handle that is idle again (R247, R254): a WITHDRAW that is under way will be answered by FIRED. -/
def Claims.idle (r : PortRef) : PortRef :=
  { r with offered := none, again := none, asked := false, owed := r.owed + (if r.asked then 1 else 0), block := false, alt := none, done := none }

/-- `poll`, `pwd`, `pstat`, `cbind` and `cunload` (R247-R252): a pending completion is consumed with its acquire; an outstanding offer is
withdrawn by `pwd` and `cbind`, unless its withdrawal is under way, and they wait for the reply; `pstat` reports the handle; `cbind` frees the port of its handle and asks for the new
one; `cunload` asks for its casement's unload. A name that is not valid traps ILLEGAL with it in TRAPINFO. -/
def Claims.portCompletions : Prop :=
  ∀ (s : State) (d : Gpr) (p : BitVec 4) (b : Gpr), let x := s.task s.focus; let h := p.toNat; let c := coreOf s.focus; let name := Claims.reg s b
    let unboundAt := BitVec.ofNat 64 (16 + h)
    (x.port h = none → Claims.traps (.poll d p) s 8 0 unboundAt none ∧ Claims.traps (.pwd d p) s 8 0 unboundAt none ∧
      exec (.pstat d p) s = .next (Claims.wrote s d 0 4)) ∧
    (∀ r, x.port h = some r →
      exec (.pstat d p) s = .next (Claims.wrote s d (BitVec.ofNat 64 (2 ^ 63 + (if r.sink then 2 ^ 62 else 0) + (if r.offered.isSome then 2 ^ 61 else 0) +
        (if r.done.isSome then 2 ^ 60 else 0) + (if r.dlv.isSome then 2 ^ 59 else 0) + r.dsz / 4 % 128 * 2 ^ 52 + r.name.toNat % 2 ^ 32)) 4) ∧
      (r.done = none → r.offered = none → exec (.poll d p) s = .next (Claims.wrote s d 0 4) ∧ exec (.pwd d p) s = .next (Claims.wrote s d 2 4)) ∧
      (r.done = none → r.offered.isSome = true → exec (.poll d p) s = .next (Claims.wrote s d 1 4) ∧ ∃ t, exec (.pwd d p) s = .next t ∧
        (t.quad (nameQuad r.name)).toT = (s.quad (nameQuad r.name)).toT ++ (if r.asked then [] else [(c, x.phase, .withdraw x.tid r.name)]) ∧
        t.task s.focus = { x with
          p := vput x.p h (some { r with asked := true }), life := .waiting .port, portWait := some (.pwd d h) }) ∧
      (∀ snap, r.done = some snap → ∃ t u, exec (.poll d p) s = .next t ∧ exec (.pwd d p) s = .next u ∧
        (t.task s.focus).g = Claims.gset x d 2 ∧ (u.task s.focus).g = Claims.gset x d 1 ∧
        ∀ v ∈ [t, u], (v.task s.focus).port h = some (Claims.idle r) ∧
          ∀ k ∈ snap, k ∈ (v.task s.focus).view.known)) ∧
    (name ≠ 0 → nameValid name = false → Claims.traps (.cbind d p b) s 1 0 (wordOf (.cbind d p b)) (some name)) ∧
    (nameValid name = false → Claims.traps (.cunload d b) s 1 0 (wordOf (.cunload d b)) (some name)) ∧
    (x.port h = none → name = 0 → x.life = .running → x.portWait = none → x.moving = none → x.halt = none → exec (.cbind d p b) s = .next (Claims.wrote s d 0 4)) ∧
    (x.port h = none → nameValid name = true → x.life = .running → ∃ t, exec (.cbind d p b) s = .next t ∧
      (t.quad (nameQuad name)).toT = (s.quad (nameQuad name)).toT ++ [(c, x.phase, .bind x.tid name)] ∧
      t.task s.focus = { x with life := .waiting .port, portWait := some (.bind d h) }) ∧
    (∀ r, x.port h = some r → r.offered.isSome = true → (name = 0 ∨ nameValid name = true) → ∃ t, exec (.cbind d p b) s = .next t ∧
      (t.quad (nameQuad r.name)).toT = (s.quad (nameQuad r.name)).toT ++ (if r.asked then [] else [(c, x.phase, .withdraw x.tid r.name)]) ∧
      t.task s.focus = { x with
        p := vput x.p h (some { r with asked := true }), life := .waiting .port, portWait := some (.unbind d h name) }) ∧
    (∀ r, x.port h = some r → r.offered = none → r.dlv = none → name = 0 → x.life = .running → x.moving = none → x.halt = none → ∃ t, exec (.cbind d p b) s = .next t ∧
      (t.quad (nameQuad r.name)).toT = (s.quad (nameQuad r.name)).toT ++ [(c, x.phase, .free x.tid r.name)] ∧
      (t.task s.focus).port h = none ∧ (t.task s.focus).g = Claims.gset x d 0) ∧
    (nameValid name = true → x.guarded = false → Claims.direct x → ∃ t, exec (.cunload d b) s = .next t ∧
      (t.quad (nameQuad name)).toT = (s.quad (nameQuad name)).toT ++ [(c, x.phase, .unload x.tid name)] ∧
      t.task s.focus = { x with life := .waiting .port, portWait := some (.unload d) })

/-- `put`, `get`, `offer`, `alt`, `poll`, `pwd`, `pstat`, `cbind` and `cunload` (R244-R253). -/
def Claims.ports : Prop := Claims.portOffers ∧ Claims.altOffers ∧ Claims.portCompletions

/-- `cload` (R250): a misaligned address traps MISALIGN; an image whose tag is wrong, or whose header has a bad field, traps ILLEGAL with doubleword
0 and the offset of the first bad field. A well-formed image goes into the lowest free slot in state 0, the slot's GEN increments, and D is the
name of its port 0; where resources are short D is 1 to 4 and no slot changes. -/
def Claims.casementLoad : Prop :=
  (∀ (s u : State) (d a : Gpr) (img : List Byte), let x := s.task s.focus; let q := quadOf (coreOf s.focus); let k := imgCasement img x.job
    let va := (Claims.reg s a).toNat % 2 ^ 56
    ((Claims.reg s a).toNat % 64 ≠ 0 → Claims.traps (.cload d a) s 2 0 (Claims.reg s a) none) ∧
    (∀ hd o, (Claims.reg s a).toNat % 64 = 0 → s.readGlobal va 256 = .ok (hd, u) → firstFailing (headChecks hd) = some o →
      Claims.traps (.cload d a) s 1 0 (BitVec.ofNat 64 (imgNat hd 0 8)) (some (BitVec.ofNat 64 o))) ∧
    ((Claims.reg s a).toNat % 64 = 0 → s.readImage va = .ok (img, u) → u.focus = s.focus → (u.task u.focus).guarded = false →
      Claims.direct (u.task u.focus) → (u.task u.focus).job = x.job →
      (∀ n, (u.quad q).shortOf k = some n → 1 ≤ n ∧ n ≤ 4 ∧ exec (.cload d a) s = .next (Claims.wrote u d (BitVec.ofNat 64 n) 4)) ∧
      ((u.quad q).shortOf k = none → ∃ t n, exec (.cload d a) s = .next t ∧ n < 16 ∧ vget (u.quad q).cas n none = none ∧
        (∀ m, m < n → (vget (u.quad q).cas m none).isSome = true) ∧ (t.quad q).cas = vput (u.quad q).cas n (some k) ∧
        (t.quad q).gens = vput (u.quad q).gens n (vget (u.quad q).gens n 0 + 1) ∧
        (t.task s.focus).g = Claims.gset (u.task s.focus) d (portName q n (vget (u.quad q).gens n 0 + 1).toNat)))) ∧
  (∀ img : List Byte, imgNat img 6 2 ≠ 0xC5E7 → ∃ o, o ≤ 6 ∧ firstFailing (headChecks img) = some o) ∧
  (∀ (img : List Byte) (job : Nat), (imgCasement img job).state = 0 ∧ (∀ f ∈ (imgCasement img job).fifos, f.data = []) ∧
    (∀ n ∈ (imgCasement img job).ptrs, n = 0) ∧ ∀ e ∈ (imgCasement img job).ports, e.bind = .none ∧ e.offer = none)

/-- The choice of a casement (R241): from the pointer of the state on, in a circle, the first enabled transition fires; the pointer then stands behind it.
After it (R242) the state is NEXT, each fired port of a task is idle, each fired handler's port has one credit less, a DEQ drops a
fifo's head and an ENQ appends the routed datum. -/
def Claims.decisions : Prop :=
  (∀ (c : Casement) (t : CTrans) (k p : Nat), c.nextStep = some (t, k, p) → ∃ first m ptr i, c.states[c.state]?.getD (0, 0) = (first, m) ∧
    ptr = c.ptrs[c.state]?.getD 0 ∧ i < m ∧ k = first + (ptr + i) % m ∧ p = ((ptr + i) % m + 1) % m ∧ c.trans[k]? = some t ∧ c.enabled t = true ∧
    ∀ j, j < i → ∀ t', c.trans[first + (ptr + j) % m]? = some t' → c.enabled t' = false) ∧
  (∀ (c : Casement) (t : CTrans) (p : Nat), (c.fired t p).state = t.next ∧
    (∀ i e, c.ports[i]? = some e → t.mask.getLsbD i = true → ∃ f, (c.fired t p).ports[i]? = some f ∧
      (∀ tid core, e.bind = .task tid core → f = { e with offer := none, alt := none }) ∧
      (∀ h core, e.bind = .handler h core → f = { e with credits := e.credits - 1 })) ∧
    (∀ i f, c.fifos[i]? = some f → ∃ g, (c.fired t p).fifos[i]? = some g ∧ g.data.map (·.1) =
      (if t.deq.getLsbD i then f.data.drop 1 else f.data).map (·.1) ++ (if t.enq.getLsbD i then [c.routed t (32 + i)] else [])))

/-- The moves at a Transom (R239-R244, R249, R251, R254). OFFER_ARRIVAL enters an offer in its port; WITHDRAW empties an offered port and
answers WITHDRAWN, or FIRED; BINDING_REQUEST binds a free port and answers 0, or 1 for a stale name; FIRE performs the decision, tells the task of a
fired port on class 3 and sends a fired handler its trigger on class 2. With no message of its kind, or no enabled transition, a move changes nothing. -/
def Obligations.TransomMoves : Prop := Claims.decisions ∧
  (∀ (s : State) (q core : Nat) (tid name : Word) (e : PEntry), s.portAt name = some e →
    (∀ data alt snap, s.firstToT q core = some (.offer tid name data alt snap) → e.boundTo tid = true → ∃ t, exec (.offerArrival q core) s = .next t ∧
      t.portAt name = some { e with offer := some (data, snap), alt := alt } ∧
      (t.quad q).toT = dropFirst core (s.quad q).toT) ∧
    (s.firstToT q core = some (.withdraw tid name) →
      (e.boundTo tid = true → e.offer.isSome = true → ∃ t, exec (.withdraw q core) s = .next t ∧
        t.portAt name = some { e with offer := none, alt := none } ∧ (t.quad q).fromT = (s.quad q).fromT ++ [(core, .withdrawn tid name)]) ∧
      (e.offer = none → ∃ t, exec (.withdraw q core) s = .next t ∧ t.portAt name = some e ∧
        (t.quad q).fromT = (s.quad q).fromT ++ [(core, .fired tid name)])) ∧
    (s.firstToT q core = some (.bind tid name) → e.bind = .none → outOfScope (s.nameScope name) core (nameQuad name) = false → ∃ t,
      exec (.bindingRequest q core) s = .next t ∧ t.portAt name = some { e with bind := .task tid core, offer := none, alt := none } ∧
      (t.quad q).fromT = (s.quad q).fromT ++ [(core, .bound tid name 0 e.sink e.dsz)])) ∧
  (∀ (s : State) (q core : Nat) (tid name : Word), s.portAt name = none → s.firstToT q core = some (.bind tid name) → ∃ t,
    exec (.bindingRequest q core) s = .next t ∧ (t.quad q).fromT = (s.quad q).fromT ++ [(core, .bound tid name 1 false 0)] ∧
    t.portAt name = none) ∧
  (∀ (s : State) (q core : Nat), s.firstToT q core = none → exec (.offerArrival q core) s = .next s ∧ exec (.withdraw q core) s = .next s ∧
    exec (.bindingRequest q core) s = .next s) ∧
  (∀ (s : State) (q n : Nat) (c : Casement), n < 16 → vget (s.quad q).cas n none = some c →
    (c.nextStep = none → exec (.fire q n) s = .next s) ∧
    (∀ t k p, c.nextStep = some (t, k, p) → ∃ u l, exec (.fire q n) s = .next u ∧ vget (u.quad q).cas n none = some (c.fired t p) ∧
      (u.quad q).fromT = (s.quad q).fromT ++ l ∧ l.length ≤ c.ports.length ∧
      (∀ i e tid core, c.ports[i]? = some e → t.mask.getLsbD i = true → e.bind = .task tid core →
        (core, PMsg.fire tid (portName q n (vget (s.quad q).gens n 0).toNat + BitVec.ofNat 64 i) (if e.sink then c.routed t i else ⟨[], false⟩)
          (c.stepSnap t)) ∈ l) ∧
      (∀ i e h core, c.ports[i]? = some e → t.mask.getLsbD i = true → e.bind = .handler h core →
        let name := portName q n (vget (s.quad q).gens n 0).toNat + BitVec.ofNat 64 i; let data := if e.sink then c.routed t i else ⟨[], false⟩
        ∃ m ∈ u.msgs, m.kind = .trigger name data ∧ m.core = core ∧ m.cls = 2 ∧
          m.dwords = [handlerWord h, name, BitVec.ofNat 64 data.bytes.length, 0, 0, 0, 0, 0])))

/-- The moves at the core of a port's task (R244, R247, R249, R251, R254). FIRE_ARRIVAL lands a sink's datum at the offered offset and completes the
blocked instruction with DSZ; for a handler's port its trigger waits at the core. WITHDRAW_REPLY ends a `pwd` with 0, or with 1 and an acquire where the
offer has fired, and leaves the handle idle; a reply that the handle does not await is dropped. BINDING_REPLY binds the handle where the result is 0 and
ends `cbind` and `cunload` with the result; of a Held task the PC and the registers stay until it goes on (R23, R24). Without a message they change
nothing. -/
def Obligations.PortReplies : Prop :=
  (∀ (s : State) (q core t h off : Nat) (r : PortRef) (tid name : Word) (x : Task), s.findTid tid = some t → s.task t = x → x.handleOf name = some (h, r) → h < 16 →
    (∀ data snap d hs b, s.firstFromT q core = some (.fire tid name data snap) → r.offered = some (off, b) → r.block = true → r.alt = none →
      x.portWait = some (.fire d hs) → h ∈ hs → x.life = .waiting .port → x.moving = none → x.halt = none → x.frame = none →
      (data.bytes = [] ∨ s.watchedRange (coreOf t) off data.bytes.length = false) → ∃ u, exec (.fireArrival q core) s = .next u ∧
        (u.task t).life = .running ∧ (u.task t).g = Claims.gset x d (BitVec.ofNat 64 r.dsz) ∧ (u.task t).pc = pcPlus x.pc 4 ∧
        (u.task t).port h = some (Claims.idle r) ∧
        (∀ k ∈ snap, k ∈ (u.task t).view.known) ∧
        ((s.core (coreOf t)).mem.wf = true → ∀ j, j < data.bytes.length → u.homeByte (.bank (coreOf t) (off + j)) = (data.bytes[j]?).getD 0) ∧ (u.quad q).fromT = dropFirst core (s.quad q).fromT) ∧
    (∀ d, s.firstFromT q core = some (.withdrawn tid name) → r.asked = true → x.portWait = some (.pwd d h) → x.life = .waiting .port → x.moving = none → x.halt = none →
      x.frame = none → ∃ u, exec (.withdrawReply q core) s = .next u ∧ (u.task t).life = .running ∧ (u.task t).g = Claims.gset x d 0 ∧
      (u.task t).pc = pcPlus x.pc 4 ∧ (u.task t).port h = some (Claims.idle { r with asked := false })) ∧
    (∀ d snap, s.firstFromT q core = some (.fired tid name) → r.asked = false → r.owed = 1 → r.done = some snap → x.portWait = some (.pwd d h) →
      x.life = .waiting .port → x.moving = none → x.halt = none → x.frame = none → ∃ u, exec (.withdrawReply q core) s = .next u ∧
      (u.task t).life = .running ∧ (u.task t).g = Claims.gset x d 1 ∧ (u.task t).port h = some (Claims.idle { r with owed := 0 }) ∧
      ∀ k ∈ snap, k ∈ (u.task t).view.known) ∧
    (r.asked = false → s.firstFromT q core = some (.withdrawn tid name) → exec (.withdrawReply q core) s = .next (s.takeFromT q core)) ∧
    (r.owed = 0 → s.firstFromT q core = some (.fired tid name) → exec (.withdrawReply q core) s = .next (s.takeFromT q core))) ∧
  (∀ (s : State) (q core t h : Nat) (d : Gpr) (tid name : Word) (x : Task), s.findTid tid = some t → s.task t = x → x.moving = none → x.halt = none → h < 16 →
    (∀ n sink dsz w, s.firstFromT q core = some (.bound tid name n sink dsz) → x.portWait = some (.bind d h) → x.life = .held (some w) → ∃ u,
      exec (.bindingReply q core) s = .next u ∧ (u.task t).life = x.life ∧ (u.task t).g = x.g ∧ (u.task t).pc = x.pc ∧
      (u.task t).portWait = some (.replied d (BitVec.ofNat 64 n))) ∧
    (∀ n sink dsz, s.firstFromT q core = some (.bound tid name n sink dsz) → x.portWait = some (.bind d h) → x.life = .waiting .port → ∃ u,
      exec (.bindingReply q core) s = .next u ∧ (u.task t).life = .running ∧ (u.task t).g = Claims.gset x d (BitVec.ofNat 64 n) ∧
      (n = 0 → (u.task t).port h = some (PortRef.fresh name sink dsz)) ∧ (n ≠ 0 → (u.task t).p = x.p)) ∧
    (∀ n, s.firstFromT q core = some (.unloaded tid n) → x.portWait = some (.unload d) → x.life = .waiting .port → ∃ u,
      exec (.bindingReply q core) s = .next u ∧ (u.task t).life = .running ∧ (u.task t).g = Claims.gset x d (BitVec.ofNat 64 n))) ∧
  (∀ (s : State) (q core : Nat) (m : Msg) (name : Word) (data : Datum), s.firstFromT q core = none → s.msgs = [m] → m.kind = .trigger name data →
    m.core = core → nameQuad name = q → s.msgReady m = true → ∃ u g,
    exec (.fireArrival q core) s = .next u ∧ (u.core core).mailbox = (s.core core).mailbox ++ [g] ∧ g.src = .port ∧ g.port = some (name, data) ∧
    g.dwords = m.dwords ∧ g.rel = m.rel ∧ g.job = m.job ∧ u.msgs = []) ∧
  (∀ (s : State) (q core : Nat), s.firstFromT q core = none → exec (.withdrawReply q core) s = .next s ∧ exec (.bindingReply q core) s = .next s ∧
    ((∀ m ∈ s.msgs, m.core ≠ core) → exec (.fireArrival q core) s = .next s))

/-- The casement load and the port instructions. -/
def Obligations.CasementsAndPorts : Prop := Claims.casementLoad ∧ Claims.ports

/-! ### Copies (R202-R220, R228, R230, R271) -/

/-- A copy accepted in state u (R206, R211): it stands active in the lowest free slot of the task's core, whose generation moves on, with its watermark at DLO, or
at 0 where it counts slots or strips; D is its identifier, and it joins the open batch. -/
def Claims.accepted (u t : State) (d : Gpr) (k : Copy) : Prop :=
  let c := coreOf u.focus; let z := u.core c
  ∃ n, n < 8 ∧ (vget z.slots n CopySlot.reset).copy = none ∧ (∀ m, m < n → (vget z.slots m CopySlot.reset).copy.isSome = true) ∧
    let g := (vget z.slots n CopySlot.reset).gen + 1
    let id : Word := BitVec.ofNat 64 (coordOf c * 2 ^ 17 + 2 ^ 16 + g.toNat * 8 + n)
    (t.core c).slots = vput z.slots n ⟨⟨true, false, !k.ordered, false, false, if k.dsp = 3 then BitVec.ofNat 56 k.landed else BitVec.ofNat 56 k.dlo⟩, g,
      some { k with ident := id, gated := z.xbar.cen, requested := k.multi.isNone, order := u.nextId }⟩ ∧
    (t.task u.focus).g = Claims.gset (u.task u.focus) d id ∧ (t.task u.focus).batchOpen = (u.task u.focus).batchOpen + 1

/-- `cpy`, `cpy.m` and `cmcast` (R202-R204, R211, R217, R218). A register field above its limit traps ILLEGAL, a misaligned descriptor MISALIGN, a field of it that
must be zero or a RUN of 0 ILLEGAL with its offset; a copy whose checks pass is accepted after the release of R211; it stalls while all eight slots are taken or a task of its
core has waited longer for one.
`cpy.m` also needs a local destination, a matrix word and the engine; its word goes with the copy. -/
def Claims.copyInstructions : Prop :=
  (∀ (s : State) (d a b : Gpr), let off := (Claims.reg s a).toNat % 2 ^ 56
    (62 < b.toNat → Claims.traps (.cpy d a b) s 1 0 (wordOf (.cpy d a b)) none) ∧
    (60 < b.toNat → Claims.traps (.cpyM d a b) s 1 0 (wordOf (.cpyM d a b)) none ∧
      Claims.traps (.cmcast d a b) s 1 0 (wordOf (.cmcast d a b)) none) ∧
    (b.toNat ≤ 60 → copyTags s b = .ok () → off % 16 ≠ 0 → Claims.traps (.cpy d a b) s 2 0 (BitVec.ofNat 64 off) none ∧
      Claims.traps (.cpyM d a b) s 2 0 (BitVec.ofNat 64 off) none ∧ Claims.traps (.cmcast d a b) s 2 0 (BitVec.ofNat 64 off) none)) ∧
  (∀ (s v u : State) (d a b : Gpr) (ds : Desc) (k : Copy), b.toNat ≤ 62 → copyTags s b = .ok () →
    s.readDesc (.cpy d a b) (Claims.reg s a) = .ok (ds, v) → (v.task v.focus).buffers = false →
    v.checkCopy (.cpy d a b) ds ds.pat (Claims.reg v b) (Claims.reg v (b + 1)) none = .ok k →
    (v.core (coreOf v.focus)).freeSlot.isSome = true → v.mayClaim .copySlot = true → v.releaseNow v.focus (copyScope k.ssp k.dsp) = (true, u) →
    (u.core (coreOf u.focus)).freeSlot.isSome = true → k.stream = none → ∃ t, exec (.cpy d a b) s = .next t ∧ Claims.accepted u t d k) ∧
  (∀ (s v : State) (d a b : Gpr) (ds : Desc) (k : Copy), b.toNat ≤ 60 → copyTags s b = .ok () →
    s.readDesc (.cpy d a b) (Claims.reg s a) = .ok (ds, v) → (v.task v.focus).buffers = false →
    v.checkCopy (.cpy d a b) ds ds.pat (Claims.reg v b) (Claims.reg v (b + 1)) none = .ok k →
    ((v.core (coreOf v.focus)).freeSlot = none ∨ v.mayClaim .copySlot = false) → exec (.cpy d a b) s = .next ((s.stallFor .copySlot).pass 1 0)) ∧
  (∀ (s v u : State) (d a b : Gpr) (ds : Desc) (k : Copy) (m : Instr), b.toNat ≤ 60 → copyTags s b = .ok () →
    s.readDesc (.cpyM d a b) (Claims.reg s a) = .ok (ds, v) → (v.task v.focus).buffers = false →
    v.checkCopy (.cpyM d a b) ds ds.pat (Claims.reg v b) (Claims.reg v (b + 1)) none = .ok k →
    (ds.dsp ≠ 1 → Claims.traps (.cpyM d a b) s 1 0 (wordOf (.cpyM d a b)) (some 0)) ∧
    (ds.dsp = 1 → (Claims.reg v (b + 2)).toNat < 2 ^ 32 →
      (copyWord (coreOf v.focus) (BitVec.ofNat 32 (Claims.reg v (b + 2)).toNat) = none →
        Claims.traps (.cpyM d a b) s 1 0 (wordOf (.cpyM d a b)) (some (Claims.reg v (b + 2)))) ∧
      (copyWord (coreOf v.focus) (BitVec.ofNat 32 (Claims.reg v (b + 2)).toNat) = some m → v.needOwner (.cpyM d a b) = .ok () →
        (v.core (coreOf v.focus)).freeSlot.isSome = true → v.mayClaim .copySlot = true → v.releaseNow v.focus (copyScope k.ssp k.dsp) = (true, u) →
        (u.core (coreOf u.focus)).freeSlot.isSome = true → k.stream = none → ∃ t, exec (.cpyM d a b) s = .next t ∧
          Claims.accepted u t d { k with mword := some (m, Claims.reg v (b + 3), (v.task v.focus).owner) }))) ∧
  (∀ (s v w u : State) (d a b : Gpr) (ds : Desc) (k : Copy) (bs : List Byte) (cs : List Nat), let i := Instr.cmcast d a b
    let m := (Claims.reg v (b + 2)).toNat; let l := (Claims.reg v (b + 3)).toNat; let n := m % 16 + 1
    b.toNat ≤ 60 → copyTags s b = .ok () → s.readDesc i (Claims.reg s a) = .ok (ds, v) → v.focus = s.focus → (v.task s.focus).g = (s.task s.focus).g →
    ((ds.ssp ≠ 0 ∨ ds.dsp ≠ 1) → Claims.traps i s 1 0 (wordOf i) (some 0)) ∧
    (ds.ssp = 0 → ds.dsp = 1 → m / 2 ^ 5 % 2 ^ 27 = 0 → l % 2 = 0 → v.checkAccess (.bank (coreOf v.focus) (l % 2 ^ 56)) (2 * n) accLoad = .ok () →
      v.loadBytes (.bank (coreOf v.focus) (l % 2 ^ 56)) (2 * n) = (bs, w) → w.focus = v.focus → (w.task w.focus).g = (v.task v.focus).g →
      (w.task w.focus).buffers = false → receiverCores (Claims.reg v (b + 1)) n bs = .ok cs → m / 16 % 2 = 0 →
      w.checkCopy i ds ds.pat (Claims.reg v b) (Claims.reg v (b + 1)) (some ⟨false, stride (m / 2 ^ 32), cs, List.replicate n 0⟩) = .ok k →
      (w.core (coreOf w.focus)).freeSlot.isSome = true → w.mayClaim .copySlot = true → w.releaseNow w.focus (copyScope k.ssp k.dsp) = (true, u) →
      (u.core (coreOf u.focus)).freeSlot.isSome = true → k.stream = none → ∃ t, exec i s = .next t ∧ Claims.accepted u t d k))

/-- `wmk`, `cresume`, `cabort`, `cseal` and `cwait` (R209, R214, R215): `wmk` reads a current copy's watermark, all ones of a stale one, and acquires at `.pkg`;
`cresume` unfreezes, `cabort` marks an active copy for abort, a stale identifier changes nothing; `cseal` seals the open batch and gives its number, or stalls where that would be a 65th unfinished one; `cwait`
waits until at most A sealed batches are unfinished and gives the aborted count. -/
def Claims.copyControl : Prop :=
  ∀ (s : State) (d a : Gpr), let x := s.task s.focus; let v := (Claims.reg s a).toNat; let c := v / 2 ^ 25 % 4 * 160 + v / 2 ^ 21 % 16 * 16 + v / 2 ^ 17 % 16
    let n := v % 8; let z := vget (s.core c).slots n CopySlot.reset; let valid := v / 2 ^ 16 % 2 = 1 ∧ v < 2 ^ 27
    let good := valid ∧ v / 2 ^ 21 % 16 < 10; let current := good ∧ z.gen.toNat = v / 2 ^ 3 % 2 ^ 13
    (¬valid → Claims.traps (.wmk d a) s 1 0 (wordOf (.wmk d a)) (some (Claims.reg s a))) ∧
    (valid → ∃ t, exec (.wmk d a) s = .next t ∧ (∀ l, t.homeByte l = s.homeByte l) ∧
      (current → (t.task s.focus).g = Claims.gset x d (z.wmk.addr.setWidth 64)) ∧
      (¬current → (t.task s.focus).g = Claims.gset x d (BitVec.allOnes 64)) ∧ (∀ k ∈ x.view.known, k ∈ (t.task s.focus).view.known)) ∧
    (¬good → Claims.traps (.cresume a) s 1 0 (wordOf (.cresume a)) none ∧ Claims.traps (.cabort a) s 1 0 (wordOf (.cabort a)) none) ∧
    (good → ¬current → exec (.cresume a) s = .next (Claims.passed s 4) ∧ exec (.cabort a) s = .next (Claims.passed s 4)) ∧
    (∀ k, current → z.copy = some k → z.wmk.act = true → ∃ t u, exec (.cresume a) s = .next (Claims.passed t 4) ∧
      exec (.cabort a) s = .next (Claims.passed u 4) ∧ t.tasks = s.tasks ∧ u.tasks = s.tasks ∧
      (t.core c).slots = vput (s.core c).slots n { z with wmk := { z.wmk with frz := false }, copy := some { k with frozen := none } } ∧
      (u.core c).slots = vput (s.core c).slots n { z with copy := some { k with aborting := true } }) ∧
    (64 ≤ x.batches.length → x.batchOpen ≠ 0 → x.holdsCopy = false → exec (.cseal d) s = .next (s.pass 1 0)) ∧
    (64 ≤ x.batches.length → x.batchOpen ≠ 0 → x.holdsCopy = true → Claims.traps (.cseal d) s 1 0 (wordOf (.cseal d)) none) ∧
    (x.batches.length < 64 ∨ x.batchOpen = 0 → x.frame = none → exec (.cseal d) s = .next { s with tasks := tput s.tasks s.focus { x with
      g := Claims.gset x d (BitVec.ofNat 64 x.batchSeq)
      batches := if x.batchOpen = 0 then x.batches else x.batches ++ [(x.batchSeq, x.batchOpen)]
      batchOpen := 0
      batchSeq := if (x.batchSeq + 1) % 2 ^ 32 = 0 then 1 else (x.batchSeq + 1) % 2 ^ 32
      pc := pcPlus x.pc 4
      skipStop := 0
      stalled := none
      theft := none } }) ∧
    (x.holdsCopy = true → Claims.traps (.cwait d a) s 1 0 (wordOf (.cwait d a)) none) ∧
    (x.holdsCopy = false → v < x.batches.length →
      exec (.cwait d a) s = .next { s with tasks := tput s.tasks s.focus { x with life := .waiting .watermark } }) ∧
    (x.holdsCopy = false → x.batches.length ≤ v → ∃ t, exec (.cwait d a) s = .next t ∧ (t.task s.focus).aborted = 0 ∧
      (t.task s.focus).g = Claims.gset x d (BitVec.ofNat 64 x.aborted) ∧ (∀ l, t.homeByte l = s.homeByte l))

/-- `stream.on` and `stream.off` (R219, R220): a stream needs a lease of class 3, no stream of the task, a lane format and a global destination of strides 0; its
copy is accepted and the task has the stream. `stream.off` gives the popped strips with END in bit 63 and clears v24 to v31; without a stream it gives 0. -/
def Claims.streams : Prop :=
  (∀ (s : State) (a b : Gpr), (62 < b.toNat → Claims.traps (.streamOn a b) s 1 0 (wordOf (.streamOn a b)) none) ∧
    (b.toNat ≤ 62 → tagNeedsD s (Claims.reg s b) = .ok () →
      (32 ≤ (Claims.reg s (b + 1)).toNat ∨ (s.task s.focus).leaseCls ≠ 3 ∨ (s.task s.focus).stream.isSome = true) →
      Claims.traps (.streamOn a b) s 1 0 (wordOf (.streamOn a b)) none)) ∧
  (∀ (s v u : State) (a b : Gpr) (f : Fmt) (ds : Desc) (k : Copy), let x := s.task s.focus; b.toNat ≤ 62 → tagNeedsD s (Claims.reg s b) = .ok () →
    (Claims.reg s (b + 1)).toNat = f.toNat → isLaneForm f.toNat = true → x.leaseCls = 3 → x.stream = none →
    s.readDesc (.streamOn a b) (Claims.reg s a) = .ok (ds, v) → ds.dsp = 0 → ds.dcoord = 0 → (∀ e ∈ ds.pat.dims, e.2.2 = 0) →
    v.checkStream (.streamOn a b) ds (Claims.reg s b) f = .ok k → (v.core (coreOf v.focus)).freeSlot.isSome = true → v.mayClaim .copySlot = true →
    v.releaseNow v.focus (copyScope k.ssp 1) = (true, u) → (u.core (coreOf u.focus)).freeSlot.isSome = true → ∃ t n, exec (.streamOn a b) s = .next t ∧ n < 8 ∧
      (vget (u.core (coreOf u.focus)).slots n CopySlot.reset).copy = none ∧
      (vget (t.core (coreOf u.focus)).slots n CopySlot.reset).copy.isSome = true ∧
      (t.task u.focus).stream = some ⟨n, f, [], 0, false, false, none⟩ ∧ (t.task u.focus).g = (u.task u.focus).g) ∧
  (∀ (s : State) (d : Gpr), let x := s.task s.focus
    (x.stream = none → exec (.streamOff d) s = .next (Claims.wrote s d 0 4)) ∧
    (∀ r, x.stream = some r → ∃ t, exec (.streamOff d) s = .next t ∧ (t.task s.focus).stream = none ∧
      (t.task s.focus).g = Claims.gset x d (BitVec.ofNat 64 (r.popped % 2 ^ 32 + if r.ended then 2 ^ 63 else 0)) ∧
      (∀ n, n < 32 → vget (t.task s.focus).v n 0 = if 24 ≤ n then 0 else vget x.v n 0)))

/-- The control of copies, batches and streams. -/
def Claims.copyControlPart : Prop := Claims.copyControl ∧ Claims.streams

/-- UNIT_LAND (R205) of an unconverted copy within a core, in an active slot whose next unit neither waits nor fails: the bytes of the unit are those of its source as they were, and
the copy has landed so many bytes more; a slot without a copy changes nothing. COPY_COMPLETE (R211) of a copy with nothing left to land: the slot is free, ACT is clear,
WMK.ADDR is DHI. COPY_ABORT_COMPLETE (R214): the same with ABT. -/
def Claims.copyUnits : Prop :=
  (∀ (s : State) (core n : Nat) (k : Copy) (p : Piece), n < 8 → (s.copySlot core n).copy = some k → k.ssp = 1 → k.dsp = 1 → k.conv = false → k.stream = none →
    k.ring = none → k.multi = none → k.aborting = false → k.ahead = [] → s.nextUnit core k = (k.landed, [p]) → s.unitReady core n k [p] = true →
    s.unitFault core k [p] = none → s.hist.any (·.meets (k.srcLoc core 0 p.run p.lo) (p.hi - p.lo)) = false → ∃ t,
      exec (.unitLand core n) s = .next t ∧
      ((s.core core).mem.wf = true → ∀ j, j < p.hi - p.lo → t.homeByte ((k.dstLoc core 0 p.run p.lo).plus j) = s.homeByte ((k.srcLoc core 0 p.run p.lo).plus j)) ∧
      (∃ k', (t.copySlot core n).copy = some k' ∧ k'.landed = k.landed + (p.hi - p.lo)) ∧
      p.lo < p.hi ∧ p.hi ≤ p.lo + 64 ∧ p.hi ≤ k.runBytes) ∧
  (∀ (s : State) (core n : Nat), n < 8 → (s.copySlot core n).copy = none →
    ∀ i ∈ [Instr.unitLand core n, .copyComplete core n, .copyAbortComplete core n, .copyFreeze core n, .freezeServedByTardar core n, .copyGate core n,
      .multicastRequest core n, .stripFill core n], exec i s = .next s) ∧
  (∀ (s : State) (core n : Nat) (k : Copy), n < 8 → (s.copySlot core n).copy = some k → k.mword = none → k.ring = none → k.stream = none →
    (k.aborting = false → k.total ≤ k.landed → (∀ m, k.multi = some m → ∀ a ∈ m.acked, a = k.landed) → ∃ t, exec (.copyComplete core n) s = .next t ∧
      (t.copySlot core n).copy = none ∧ (t.copySlot core n).wmk.act = false ∧ (t.copySlot core n).wmk.abt = false ∧
      (t.copySlot core n).wmk.addr = BitVec.ofNat 56 k.dhi) ∧
    (k.aborting = true → ∃ t, exec (.copyAbortComplete core n) s = .next t ∧ (t.copySlot core n).copy = none ∧ (t.copySlot core n).wmk.act = false ∧
      (t.copySlot core n).wmk.abt = true ∧ (t.copySlot core n).wmk.addr = BitVec.ofNat 56 k.dhi))

/-- The other moves of a copy engine. COPY_FREEZE (R212): FRZ is set with KIND and the address, and a submitter that can take it has an ENGINE interrupt with SUB = 8 × KIND + slot.
FREEZE_SERVED_BY_TARDAR (R213): where none can, a freeze of KIND 0 or 1 ends once no page of the unit is missing, one of KIND 2 or 3 is aborted with a notification. COPY_GATE (R229, R230)
takes one token that the matrix gate does not want. MULTICAST_REQUEST and MULTICAST_ACKNOWLEDGEMENT (R217, R271) let
a multicast go on and count what a receiver has landed. INBOUND_ENTRY_GRANT (R207) gives the oldest request one of eight entries. STRIP_FILL (R219) brings the next strip. -/
def Claims.copyEngine : Prop :=
  (∀ (s : State) (core n kind a : Nat) (k : Copy), n < 8 → (s.copySlot core n).copy = some k →
    (∀ ps, k.aborting = false → s.nextUnit core k = (k.landed, ps) → s.unitReady core n k ps = true → s.unitFault core k ps = some (kind, a) → ∃ t, exec (.copyFreeze core n) s = .next t ∧
      (t.copySlot core n).wmk.frz = true ∧ (t.copySlot core n).copy = some { k with frozen := some (kind, a) } ∧
      (∀ c x, (c, x) ∈ s.tasks → x.tid = k.tid → x.life = .running → (s.job k.job).desc.trapEntry ≠ 0 → ∃ y, (c, y) ∈ t.tasks ∧
        y = { x with irqs := x.irqs ++ [⟨8 * kind + n, BitVec.ofNat 64 a, k.ident⟩] })) ∧
    (k.frozen = some (kind, a) → s.takesIrq k = false → 2 ≤ kind → ∃ t, exec (.freezeServedByTardar core n) s = .next t ∧
      (t.copySlot core n).copy = some { k with aborting := true } ∧ t.notices = s.notices ++ [.copyFault k.ident (BitVec.ofNat 64 a)]) ∧
    (k.frozen = some (kind, a) → s.takesIrq k = false → kind < 2 → (∀ f ∈ s.unitFaults core k (s.unitAt k k.landed), 2 ≤ f.1) → ∃ t,
      exec (.freezeServedByTardar core n) s = .next t ∧ (t.copySlot core n).copy = some { k with frozen := none } ∧ (t.copySlot core n).wmk.frz = false) ∧
    (let x := (s.core core).xbar; let q := vget x.counters x.cctr.toNat 0
      (k.gated = true → q ≠ 0 → (s.core core).matrixWants x.cctr.toNat = false → ∃ t, exec (.copyGate core n) s = .next t ∧ (t.copySlot core n).copy = some { k with gated := false } ∧
        (t.core core).xbar.counters = vput x.counters x.cctr.toNat (q - 1)) ∧ (q = 0 → exec (.copyGate core n) s = .next s)) ∧
    (∀ m, k.multi = some m → ∃ t, exec (.multicastRequest core n) s = .next t ∧ (t.copySlot core n).copy = some { k with requested := true }) ∧
    (∀ m r, k.multi = some m → k.aborting = false → m.acked[r]? = some 0 → k.landed ≠ 0 → ∃ t k', exec (.multicastAcknowledgement core n r) s = .next t ∧
      (t.copySlot core n).copy = some k' ∧ k'.multi = some { m with acked := m.acked.set r k.landed }) ∧
    (∀ f c x r ps, k.stream = some f → s.unitAt k k.landed = ps → s.findTid k.tid = some c → s.task c = x → x.tid = k.tid → x.life ≠ .free → x.stream = some r → r.strips.length < 8 → k.aborting = false →
      s.unitReady core n k ps = true → s.unitFault core k ps = none → ∃ t k' r' v, exec (.stripFill core n) s = .next t ∧ (t.copySlot core n).copy = some k' ∧
        k'.landed = k.landed + 1 ∧ (t.task c).stream = some r' ∧ r'.strips = r.strips ++ [v])) ∧
  (∀ (s : State) (core : Nat) (w : Nat × Nat × Nat) (l : List (Nat × Nat × Nat)) (e : Inbound), (s.core core).inboundWait = w :: l →
    ((s.core core).inbound.length < 8 → s.inboundOf w = some e → ∃ t, exec (.inboundEntryGrant core) s = .next t ∧ (t.core core).inboundWait = l ∧
      (t.core core).inbound = (s.core core).inbound ++ [e] ∧ t.tasks = s.tasks) ∧
    (8 ≤ (s.core core).inbound.length → exec (.inboundEntryGrant core) s = .next s))

/-- The moves of a copy engine (R205-R219, R230, R271). -/
def Obligations.CopyEngine : Prop := Claims.copyUnits ∧ Claims.copyEngine

/-- The copy instructions and the instructions that read and end a copy. -/
def Obligations.CopyInstructionsAndControl : Prop := Claims.copyInstructions ∧ Claims.copyControlPart

/-! ### Vector instructions (R27-R57, R139-R157, R163) -/

/-- What stands in a register at the place of element e of a format: 64 bits of FP64, else a lane of 32 (R30, R139). -/
def Claims.elem (f : Nat) (v : BitVec 8192) (e : Nat) : Nat := if f = 1 then v.toNat / 2 ^ (64 * e) % 2 ^ 64 else v.toNat / 2 ^ (32 * e) % 2 ^ 32

/-- The code of element e: the low bits of its place, as many as the format has (R139). -/
def Claims.code (f : Nat) (v : BitVec 8192) (e : Nat) : Nat := Claims.elem f v e % 2 ^ fmtWidth f

/-- Element e is enabled by a mask (R140): by bit e, of FP64 by bit 2e. -/
def Claims.on (f : Nat) (k : BitVec 256) (e : Nat) : Bool := k.getLsbD (if f = 1 then 2 * e else e)

/-- The elements of a register. -/
def Claims.count (f : Nat) : Nat := if f = 1 then 128 else 256

/-- A vector instruction that runs: no stream feeds registers, no flag traps, the registers lie within the lease, and FP64 stands on a core
with D (R16, R29, R51, R219). -/
def Claims.vecReady (s : State) (f : Nat) (regs : List Vr) : Prop :=
  (s.task s.focus).stream = none ∧ (s.task s.focus).ftrapen = 0 ∧ (∀ r ∈ regs, r.toNat < leaseSize (s.task s.focus).leaseCls) ∧
  (f = 1 → hasD (coreOf s.focus) = true)

/-- The instruction of n bytes writes VD (R139-R141, R51, R55): every enabled element has the value and raises the flags that g gives it, every other element of VD is
as it was; FFLAGS gains the union of the flags of enabled elements, POS moves by the draws, and no other register, no memory and no other part of the task changes. -/
def Claims.vecWrites (s : State) (i : Instr) (d : Vr) (k : Kr) (f draws n : Nat) (g : Nat → Nat × Flags) : Prop :=
  let x := s.task s.focus; let m := x.getK k
  ∃ t v fl, exec i s = .next t ∧ t.cores = s.cores ∧ t.l2 = s.l2 ∧ t.hbm = s.hbm ∧
    t.task s.focus = Task.next n { x with v := x.v.set d.toNat v, fflags := x.fflags ||| fl, pos := x.pos + BitVec.ofNat 52 draws } ∧
    (∀ e, e < Claims.count f → Claims.elem f v e = if Claims.on f m e then (g e).1 else Claims.elem f (x.getV d) e) ∧
    (∀ b, fl.getLsbD b = true ↔ ∃ e, e < Claims.count f ∧ Claims.on f m e = true ∧ (g e).2.getLsbD b = true)

/-- An exact value rounded into a float format in the task's mode with the element's draw, as it stands in a lane, with all flags (R47-R49, R55). -/
def Claims.rounded (s : State) (f e : Nat) (y : FV × Flags) : Nat × Flags :=
  let m := (s.task s.focus).round.toNat
  let z := roundBits (floatOf f) false m (s.drawOf m e) y.1
  (laneForm f z.1, z.2 ||| y.2)

/-- The draws of an instruction that rounds floats: one in SR (R55). -/
def Claims.draws (s : State) : Nat := if (s.task s.focus).round = 5 then 1 else 0

/-- `vadd`, `vsub`, `vmul`, `vfma`, `vfms` and `vfnma` (R143): floats with one rounding of the exact result, integers wrapped to their width. -/
def Claims.vectorArithmetic : Prop :=
  ∀ (s : State) (d a b : Vr) (k : Kr) (f : Fmt), let n := f.toNat; let x := s.task s.focus
    let A := fun (e : Nat) => Claims.code n (x.getV a) e; let B := fun (e : Nat) => Claims.code n (x.getV b) e; let D := fun (e : Nat) => Claims.code n (x.getV d) e
    let m := x.round.toNat
    let float := fun (i : Instr) (g : FV → FV → FV → FV × Flags) => Claims.vecWrites s i d k n (Claims.draws s) 4 fun e =>
      Claims.rounded s n e (g (elemValue n (A e)) (elemValue n (B e)) (elemValue n (D e)))
    let int := fun (i : Instr) (g : Int → Int → Int → Int) => Claims.vecWrites s i d k n 0 4 fun e =>
      (laneForm n (ofS (fmtWidth n) (g (intOf n (A e)) (intOf n (B e)) (intOf n (D e)))), 0)
    (Claims.vecReady s n [d, a, b] → 1 ≤ n → n ≤ 5 →
      float (.vadd d a b k f) (fun p q _ => p.add m q) ∧ float (.vsub d a b k f) (fun p q _ => p.add m q.negate) ∧
      float (.vmul d a b k f) (fun p q _ => p.mul q) ∧
      float (.vfma d a b k f) (fun p q r => (((p.mul q).1.add m r).1, ((p.mul q).1.add m r).2 ||| (p.mul q).2)) ∧
      float (.vfms d a b k f) (fun p q r => (((p.mul q).1.add m r.negate).1, ((p.mul q).1.add m r.negate).2 ||| (p.mul q).2)) ∧
      float (.vfnma d a b k f) (fun p q r => (((p.mul q).1.negate.add m r).1, ((p.mul q).1.negate.add m r).2 ||| (p.mul q).2))) ∧
    (Claims.vecReady s n [d, a, b] → n ∈ [11, 12, 13, 14, 30] →
      int (.vadd d a b k f) (fun p q _ => p + q) ∧ int (.vsub d a b k f) (fun p q _ => p - q) ∧ int (.vmul d a b k f) (fun p q _ => p * q) ∧
      int (.vfma d a b k f) (fun p q r => p * q + r) ∧ int (.vfms d a b k f) (fun p q r => p * q - r) ∧
      int (.vfnma d a b k f) (fun p q r => r - p * q))

/-- The checks of a vector instruction in their order (R142, R74, R51), for `vadd`: FP64 on a core without D asks for the migration to the quad's D core; a register
beyond the lease traps ILLEGAL with its number, a format that does no arithmetic FORMAT with its code; a flag of an enabled element that FTRAPEN holds traps ARITH with all flags and the
lowest such element, and VD keeps its value. The D forms `vdiv`, `vsqrt`, `vexp`, `vlog` ask for the migration in every format. -/
def Claims.vectorTraps : Prop :=
  ∀ (s : State) (d a b : Vr) (k : Kr) (f : Fmt), let n := f.toNat; let x := s.task s.focus; let i := Instr.vadd d a b k f
    let moves := fun (i : Instr) => ∃ t o, exec i s = .next t ∧ (t.task s.focus).moving = some ⟨quadCore (quadOf (coreOf s.focus)) 0, none, o⟩ ∧
      (t.task s.focus).v = x.v ∧ (t.task s.focus).pc = x.pc
    let ready := x.stream = none ∧ ∀ r ∈ [d, a, b], r.toNat < leaseSize x.leaseCls
    (n = 1 → hasD (coreOf s.focus) = false → moves i) ∧
    (hasD (coreOf s.focus) = false → moves (.vdiv d a b k f) ∧ moves (.vsqrt d a k f) ∧ moves (.vexp d a k f) ∧ moves (.vlog d a k f)) ∧
    (n ≠ 1 → leaseSize x.leaseCls ≤ d.toNat → Claims.traps i s 1 0 (BitVec.ofNat 64 d.toNat) none) ∧
    (n ≠ 1 → ready → n ∉ [2, 3, 4, 5, 11, 12, 13, 14, 30] → Claims.traps i s 5 0 (BitVec.ofNat 64 n) none) ∧
    (2 ≤ n → n ≤ 5 → ready →
      let g := fun (e : Nat) => (Claims.rounded s n e ((elemValue n (Claims.code n (x.getV a) e)).add x.round.toNat (elemValue n (Claims.code n (x.getV b) e)))).2
      ∀ e, e < 256 → Claims.on n (x.getK k) e = true → g e &&& x.ftrapen ≠ 0 →
        (∀ j, j < e → Claims.on n (x.getK k) j = true → g j &&& x.ftrapen = 0) →
        ∃ fl : Flags, (∀ c, fl.getLsbD c = true ↔ ∃ j, j < 256 ∧ Claims.on n (x.getK k) j = true ∧ (g j).getLsbD c = true) ∧
          exec i s = .next ((s.raise s.focus fl).trapAt x.here 7 0 (BitVec.ofNat 64 (fl.toNat + 65536 * e)) none))

/-- A float comparison's or an integer comparison's condition (R72): an unordered pair meets `ne` and code 6 only. -/
def Claims.vcc (cc : Nat) (o : Option Ordering) : Bool :=
  match o with
  | none => cc == 1 || cc == 6
  | some .lt => cc == 1 || cc == 2 || cc == 3 || cc == 7
  | some .eq => cc == 0 || cc == 3 || cc == 5 || cc == 7
  | some .gt => cc == 1 || cc == 4 || cc == 5 || cc == 7

/-- `vmin`, `vmax`, `vabs`, `vneg` (R144, R145), the base approximations `vrcp`, `vrsqrt`, `vexp2`, `vlog2` (R146) and the exactly rounded `vdiv`, `vsqrt`, `vexp`, `vlog` of
extension D (R163). -/
def Claims.vecFunctions : Prop :=
  ∀ (s : State) (d a b : Vr) (k : Kr) (f : Fmt), let n := f.toNat; let x := s.task s.focus
    let A := fun (e : Nat) => Claims.code n (x.getV a) e; let B := fun (e : Nat) => Claims.code n (x.getV b) e
    let V := fun (e : Nat) => elemValue n (A e)
    let writes := fun (i : Instr) (draws : Nat) (g : Nat → Nat × Flags) => Claims.vecWrites s i d k n draws 4 g
    Claims.vecReady s n [d, a, b] →
    (n ∈ [11, 12, 13, 14, 30] →
      writes (.vmin d a b k f) 0 (fun e => (laneForm n (if intOf n (A e) < intOf n (B e) then A e else B e), 0)) ∧
      writes (.vmax d a b k f) 0 (fun e => (laneForm n (if intOf n (A e) > intOf n (B e) then A e else B e), 0)) ∧
      writes (.vabs d a k f) 0 (fun e => (laneForm n (ofS (fmtWidth n) (intOf n (A e)).natAbs), 0)) ∧
      writes (.vneg d a k f) 0 (fun e => (laneForm n (ofS (fmtWidth n) (-intOf n (A e))), 0))) ∧
    (1 ≤ n → n ≤ 5 →
      writes (.vmin d a b k f) 0 (fun e => let r := FV.pick false (V e) (elemValue n (B e)); (laneForm n (encodeFloat (floatOf n) r.1), r.2)) ∧
      writes (.vmax d a b k f) 0 (fun e => let r := FV.pick true (V e) (elemValue n (B e)); (laneForm n (encodeFloat (floatOf n) r.1), r.2)) ∧
      writes (.vabs d a k f) 0 (fun e => (laneForm n (encodeFloat (floatOf n) (V e).abs), sigFlag (V e))) ∧
      writes (.vneg d a k f) 0 (fun e => (laneForm n (encodeFloat (floatOf n) (V e).negate), sigFlag (V e)))) ∧
    (2 ≤ n → n ≤ 5 →
      let approx := fun (i : Instr) (h : FV → FV × Flags) => writes i 0 fun e => let r := approxBits (floatOf n) (h (V e)); (laneForm n r.1, r.2)
      approx (.vrcp d a k f) FV.rcp ∧ approx (.vrsqrt d a k f) FV.rsqrt ∧ approx (.vexp2 d a k f) FV.exp2 ∧ approx (.vlog2 d a k f) FV.log2) ∧
    (hasD (coreOf s.focus) = true → 1 ≤ n → n ≤ 5 →
      writes (.vdiv d a b k f) (Claims.draws s) (fun e => Claims.rounded s n e ((V e).div (elemValue n (B e)))) ∧
      writes (.vsqrt d a k f) (Claims.draws s) (fun e => Claims.rounded s n e (V e).sqrt) ∧
      (n ≤ 2 → writes (.vexp d a k f) (Claims.draws s) (fun e => Claims.rounded s n e (V e).exp) ∧
        writes (.vlog d a k f) (Claims.draws s) (fun e => Claims.rounded s n e (V e).ln)))

/-- Moves, logic, shifts, select, block scale and compare (R145, R147-R149). A shift takes its count from VB's low six bits, and one of the width or more gives 0, or the sign.
`vsel` writes every lane. `vbscale` gives FP32: A × 2^(SCALE − 127) with A − ZP of an integer, the NaN where SCALE is 255. `vcmp` writes every bit of its mask, and raises NV for the signalling NaNs of enabled elements and no other flag. -/
def Claims.vecLanes : Prop :=
  ∀ (s : State) (d a b : Vr) (kd k : Kr) (f : Fmt) (g : BitVec 1) (cc : BitVec 3), let n := f.toNat; let x := s.task s.focus; let w := fmtWidth n
    let A := fun (e : Nat) => Claims.code n (x.getV a) e; let B := fun (e : Nat) => Claims.code n (x.getV b) e
    let L := fun (v : Vr) (e : Nat) => Claims.elem 0 (x.getV v) e
    (Claims.vecReady s g.toNat [d, a] →
      Claims.vecWrites s (.vmov d a k g) d k g.toNat 0 4 (fun e => (Claims.elem g.toNat (x.getV a) e, 0)) ∧
      Claims.vecWrites s (.vnot d a k g) d k g.toNat 0 4 (fun e => (2 ^ (if g = 1 then 64 else 32) - 1 - Claims.elem g.toNat (x.getV a) e, 0))) ∧
    (Claims.vecReady s 0 [d, a, b] →
      Claims.vecWrites s (.vand d a b k) d k 0 0 4 (fun e => (L a e &&& L b e, 0)) ∧ Claims.vecWrites s (.vor d a b k) d k 0 0 4 (fun e => (L a e ||| L b e, 0)) ∧
      Claims.vecWrites s (.vxor d a b k) d k 0 0 4 (fun e => (L a e ^^^ L b e, 0)) ∧
      Claims.vecWrites s (.vsel d a b k) d 0 0 0 4 (fun e => (if Claims.on 0 (x.getK k) e then L a e else L b e, 0))) ∧
    (Claims.vecReady s n [d, a, b] → n ∈ [11, 12, 13, 14, 30] → let c := fun (e : Nat) => L b e % 64
      Claims.vecWrites s (.vshl d a b k f) d k n 0 4 (fun e => (laneForm n (A e * 2 ^ c e % 2 ^ w), 0)) ∧
      Claims.vecWrites s (.vshr d a b k f) d k n 0 4 (fun e => (laneForm n (A e / 2 ^ c e), 0)) ∧
      Claims.vecWrites s (.vsar d a b k f) d k n 0 4 (fun e => (laneForm n (ofS w (toS w (A e) / 2 ^ c e)), 0))) ∧
    (Claims.vecReady s n [d, a, b] → n ∈ [2, 3, 4, 5, 11, 12, 13, 14, 30] →
      Claims.vecWrites s (.vbscale d a b k f) d k 2 (Claims.draws s) 4 (fun e => let sc := L b e % 256; let z := toS 8 (L b e / 256)
        if sc = 255 then (0x7FC00000, 0)
        else if n ≤ 5 then Claims.rounded s 2 e ((elemValue n (A e)).scale (sc - 127), sigFlag (elemValue n (A e)) ||| if z = 0 then 0 else flagFMT)
        else Claims.rounded s 2 e ((ofInt (intOf n (A e) - z)).scale (sc - 127), 0))) ∧
    (Claims.vecReady s n [a, b] → n ∈ [1, 2, 3, 4, 5, 11, 12, 13, 14, 30] → ∃ t m fl, exec (.vcmp kd a b k f cc) s = .next t ∧
      t.task s.focus = Task.next 4 ({ x with fflags := x.fflags ||| fl }.setK kd m) ∧
      (∀ c, fl.getLsbD c = true ↔ n ≤ 5 ∧ ∃ e, e < Claims.count n ∧ Claims.on n (x.getK k) e = true ∧
        (sigFlag (elemValue n (A e)) ||| sigFlag (elemValue n (B e))).getLsbD c = true) ∧
      ∀ j, j < 256 → let e := if n = 1 then j / 2 else j
        m.getLsbD j = (Claims.on n (x.getK k) e && Claims.vcc cc.toNat (if n ≤ 5 then (elemValue n (A e)).cmp (elemValue n (B e))
          else some (compare (intOf n (A e)) (intOf n (B e))))))

/-- `vmin` to `vlog`, and the lane by lane instructions (R143-R149, R163). The results of the base approximations (log 15) and of `vexp` and `vlog` (log 32) are the
model's choice. -/
def Obligations.VectorLanes : Prop := Claims.vecFunctions ∧ Claims.vecLanes

/-- `vcvt`, `vcvt.sat` and `vcvt.sr` (R53, R150): element by element from the source format to FMT, in the task's mode, clamping, or in SR; from FP64 the 128 elements go to lanes 0
to 127 and the others keep their value; which mask bits enable them is the model's choice (log 56). -/
def Claims.conversions : Prop :=
  ∀ (s : State) (d a : Vr) (src : Fmt) (k : Kr) (f : Fmt), let n := f.toNat; let m := src.toNat; let x := s.task s.focus; let r := x.round.toNat
    let gives := fun (i : Instr) (sat : Bool) (mode : Nat) => ∃ t v fl, exec i s = .next t ∧
      t.task s.focus = Task.next 4 { x with v := x.v.set d.toNat v, fflags := x.fflags ||| fl, pos := x.pos + BitVec.ofNat 52 (if mode = 5 then 1 else 0) } ∧
      ∀ e, e < Claims.count n → Claims.elem n v e =
        if Claims.on n (x.getK k) e = true ∧ (m = 1 → e < 128) then laneForm n (convCode m n sat mode (s.drawOf mode e) (Claims.code m (x.getV a) e)).1
        else Claims.elem n (x.getV d) e
    Claims.vecReady s m [d, a] → (n = 1 → hasD (coreOf s.focus) = true) → isCvt m = true → isCvt n = true →
    gives (.vcvt d a src k f) false r ∧ gives (.vcvtSat d a src k f) true r ∧ gives (.vcvtSr d a src k f) false 5

/-- Packing (R151, R152): `vpack` puts the low bits of the enabled lanes into part j of VD, `vunpack` spreads part j of VA over the lanes, `vdecode` gives the weights of 32 indices. -/
def Claims.packing : Prop :=
  ∀ (s : State) (d a : Vr) (j : BitVec 5) (h : BitVec 3) (k : Kr) (f : Fmt), let n := f.toNat; let x := s.task s.focus; let w := fmtWidth n
    let part := fun (v : BitVec 8192) (i : Nat) => v.toNat / 2 ^ (w * i) % 2 ^ w; let K := x.getK k
    (Claims.vecReady s n [d, a] → isPack n = true → j.toNat < 32 / w →
      (∃ t v, exec (.vpack d a j k f) s = .next t ∧ t.task s.focus = Task.next 4 { x with v := x.v.set d.toNat v } ∧
        ∀ i, i < 8192 / w → part v i = if 256 * j.toNat ≤ i ∧ i < 256 * (j.toNat + 1) ∧ K.getLsbD (i - 256 * j.toNat) = true
          then Claims.elem 0 (x.getV a) (i - 256 * j.toNat) % 2 ^ w else part (x.getV d) i) ∧
      Claims.vecWrites s (.vunpack d a j k f) d k 0 0 4 (fun e => let c := part (x.getV a) (256 * j.toNat + e); (if n = 0 then c else laneForm n c, 0))) ∧
    (Claims.vecReady s n [d, a] → 2 ≤ n → n ≤ 10 → Claims.vecWrites s (.vdecode d a h k f) d k n 0 4 (fun e =>
      (laneForm n (encodeFloat (floatOf n) (vq8Weight (Claims.elem 0 (x.getV a) (32 * h.toNat + e / 8) % 2 ^ 16) (e % 8))), 0)))

/-- `vcvt`, `vpack`, `vunpack` and `vdecode` (R53, R150-R152). -/
def Claims.vectorConversions : Prop := Claims.conversions ∧ Claims.packing

/-- `vins`, `vext`, `vbcast` and the permutes (R153, R155, R156): the scalar fields name g0 to g31. `vcompact` writes every lane, the enabled lanes of VA first and zeros after them;
`vexpand` gives the enabled lanes the lanes of VA in order. -/
def Claims.moves : Prop :=
  ∀ (s : State) (d a b : Vr) (k : Kr) (f : Fmt), let n := f.toNat; let x := s.task s.focus; let L := fun (v : Vr) (e : Nat) => Claims.elem 0 (x.getV v) e
    let g := fun (r : Vr) => Claims.reg s (r.setWidth 6); let K := x.getK k; let rank := fun (e : Nat) => ((List.range e).filter fun i => K.getLsbD i).length
    let at_ := (g b).toNat % Claims.count n
    (Claims.vecReady s n [d] → isMove n = true →
      (∃ t v, exec (.vins d a b f) s = .next t ∧ t.task s.focus = Task.next 4 { x with v := x.v.set d.toNat v } ∧
        ∀ e, e < Claims.count n → Claims.elem n v e = if e = at_ then laneForm n (g a).toNat else Claims.elem n (x.getV d) e) ∧
      Claims.vecWrites s (.vbcast d a k f) d k n 0 4 (fun _ => (laneForm n (g a).toNat, 0))) ∧
    (Claims.vecReady s n [a] → isMove n = true → let c := if n = 0 then L a at_ else Claims.code n (x.getV a) at_
      exec (.vext d a b f) s = .next (Claims.wrote s (d.setWidth 6) (if isSigned n then BitVec.ofInt 64 (toS (fmtWidth n) c) else BitVec.ofNat 64 c) 4)) ∧
    (Claims.vecReady s 0 [d, a, b] →
      Claims.vecWrites s (.vperm d a b k) d k 0 0 4 (fun e => (L a (L b e % 256), 0))) ∧
    (Claims.vecReady s 0 [d, a] →
      Claims.vecWrites s (.vslide d a b k) d k 0 0 4 (fun e => (if 0 ≤ (e : Int) + (g b).toInt ∧ (e : Int) + (g b).toInt ≤ 255 then L a ((e : Int) + (g b).toInt).toNat else 0, 0)) ∧
      Claims.vecWrites s (.vexpand d a k) d k 0 0 4 (fun e => (L a (rank e), 0)) ∧
      (∃ t v, exec (.vcompact d a k) s = .next t ∧ t.task s.focus = Task.next 4 { x with v := x.v.set d.toNat v } ∧
        (∀ e, e < 256 → K.getLsbD e = true → Claims.elem 0 v (rank e) = L a e) ∧ ∀ e, rank 256 ≤ e → e < 256 → Claims.elem 0 v e = 0))

/-- Reductions (R56, R154) of integers: element 0 of VD is the wrapped sum, the greatest or the least of the enabled elements, or the identity with none; of floats the value of the
pairwise tree in the form of a result (R33, R34; that of a lone element DEDUCED, log 61, its flags log 112); every other element of VD keeps its value. -/
def Claims.reductions : Prop :=
  ∀ (s : State) (d a : Vr) (k : Kr) (f : Fmt), let n := f.toNat; let x := s.task s.focus; let A := fun (e : Nat) => Claims.code n (x.getV a) e
    let es := (List.range (Claims.count n)).filter (Claims.on n (x.getK k)); let w := fmtWidth n
    let gives := fun (i : Instr) (draws : Nat) (P : Nat → Prop) => ∃ t v fl c, exec i s = .next t ∧ P c ∧
      t.task s.focus = Task.next 4 { x with v := x.v.set d.toNat v, fflags := x.fflags ||| fl, pos := x.pos + BitVec.ofNat 52 draws } ∧
      ∀ e, e < Claims.count n → Claims.elem n v e = if e = 0 then c else Claims.elem n (x.getV d) e
    let tree := fun (op : Nat → Nat → Nat → Nat × Flags) (none_ : Nat) => encodeFloat (floatOf n) (elemValue n ((treeFold op 8 1 ((List.range (Claims.count n)).map fun e =>
      if Claims.on n (x.getK k) e then some (A e) else none)).1.getD none_))
    Claims.vecReady s n [d, a] →
    (n ∈ [11, 12, 13, 14, 30] →
      gives (.vredAdd d a k f) 0 (fun c => c = laneForm n (ofS w (es.map fun e => intOf n (A e)).sum)) ∧
      gives (.vredMax d a k f) 0 (fun c => if es = [] then c = laneForm n (ofS w (intRange (isSigned n, w)).1)
        else ∃ e ∈ es, c = laneForm n (A e) ∧ ∀ i ∈ es, intOf n (A i) ≤ intOf n (A e)) ∧
      gives (.vredMin d a k f) 0 (fun c => if es = [] then c = laneForm n (ofS w (intRange (isSigned n, w)).2)
        else ∃ e ∈ es, c = laneForm n (A e) ∧ ∀ i ∈ es, intOf n (A e) ≤ intOf n (A i))) ∧
    (1 ≤ n → n ≤ 5 →
      gives (.vredAdd d a k f) (Claims.draws s) (fun c => c = laneForm n (tree (fun e p q => let y := (elemValue n p).add x.round.toNat (elemValue n q)
        let z := roundBits (floatOf n) false x.round.toNat (s.drawOf x.round.toNat e) y.1; (z.1, z.2 ||| y.2)) 0)) ∧
      gives (.vredMax d a k f) (Claims.draws s) (fun c => c = laneForm n (tree (fun _ p q => pickCode true n p q) (encodeFloat (floatOf n) (.inf true)))) ∧
      gives (.vredMin d a k f) (Claims.draws s) (fun c => c = laneForm n (tree (fun _ p q => pickCode false n p q) (encodeFloat (floatOf n) (.inf false)))))

/-- The mask instructions (R157) and `vpopk`: whole masks, bit by bit; k0 reads as all ones and ignores writes. -/
def Claims.masks : Prop :=
  ∀ (s : State) (d : Vr) (kd ka kb : Kr), let x := s.task s.focus
    let sets := fun (i : Instr) (m : BitVec 256) => exec i s = .next { s with tasks := tput s.tasks s.focus (Task.next 4 (x.setK kd m)) }
    sets (.kand kd ka kb) (x.getK ka &&& x.getK kb) ∧ sets (.kor kd ka kb) (x.getK ka ||| x.getK kb) ∧
    sets (.kxor kd ka kb) (x.getK ka ^^^ x.getK kb) ∧ sets (.knot kd ka) (~~~(x.getK ka)) ∧ sets (.kmov kd ka) (x.getK ka) ∧
    exec (.vpopk d ka) s = .next (Claims.wrote s (d.setWidth 6) (BitVec.ofNat 64 ((List.range 256).filter fun i => (x.getK ka).getLsbD i).length) 4)

/-- Lane moves, permutes, reductions and masks (R56, R153-R157). -/
def Claims.vectorMoves : Prop := Claims.moves ∧ Claims.reductions ∧ Claims.masks

/-- Vector conversions and moves. -/
def Obligations.VectorConversionsAndMoves : Prop := Claims.vectorConversions ∧ Claims.vectorMoves

/-- Vector arithmetic and what a vector instruction traps on. -/
def Obligations.VectorArithmeticAndTraps : Prop := Claims.vectorArithmetic ∧ Claims.vectorTraps

/-! ### Vector memory (R40, R64, R67, R158-R162, R276) -/

/-- The load of n bytes writes VD (R140, R158, R159) as `Claims.vecWrites` says of the register, FFLAGS and POS; of the machine only the caches above L2 with what they
look up change, and the watched loads of a line: no byte of memory does. -/
def Claims.vecLoads (s : State) (i : Instr) (d : Vr) (k : Kr) (f draws n : Nat) (g : Nat → Nat × Flags) : Prop :=
  let x := s.task s.focus; let m := x.getK k
  ∃ t v fl, exec i s = .next t ∧ t.l2 = s.l2 ∧ t.hbm = s.hbm ∧ (∀ y, t.homeByte y = s.homeByte y) ∧
    t.task s.focus = Task.next n { x with v := x.v.set d.toNat v, fflags := x.fflags ||| fl, pos := x.pos + BitVec.ofNat 52 draws } ∧
    (∀ e, e < Claims.count f → Claims.elem f v e = if Claims.on f m e then (g e).1 else Claims.elem f (x.getV d) e) ∧
    (∀ b, fl.getLsbD b = true ↔ ∃ e, e < Claims.count f ∧ Claims.on f m e = true ∧ (g e).2.getLsbD b = true)

/-- A vector load of n bytes: where its place is l, its format is that of the memory, every enabled element may be read, L2 holds the bytes, and nothing newer than the
home's bytes is to be seen, the enabled elements are the codes that stand in memory one behind the other, lowest bits first, and no memory changes. -/
def Claims.loadsRaw (s : State) (i : Instr) (d : Vr) (a : Gpr) (sp : BitVec 2) (k : Kr) (f : Fmt) (off : Int) (c : Gpr) (len : Nat) : Prop :=
  ∀ l bl, let n := f.toNat; let x := s.task s.focus; let w := fmtWidth n; let size := spanBytes n bl (Claims.count n); let data := leNat (s.homeBytes l size)
    Claims.vecReady s n [d] → isBlock n = false → sp ≠ 3 → s.vmemFormat i d a sp k f false = .ok (n, bl) → s.vmemPlace i a sp c off size false = .ok l →
    elemAligned n l.addr = true → s.checkElems false accLoad (arrayElems l n bl (enabled n (x.getK k)) (elemCount n)) = .ok () → Claims.quiet s l size →
    Claims.present s l size → Claims.vecLoads s i d k n 0 len fun e => (laneForm n (data / 2 ^ (w * e) % 2 ^ w), 0)

/-- A converting vector load of n bytes (R53, R159): each enabled element is converted from the memory format, block-scaled ones included; a ring load acquires at `.quad`. Where L2 holds
the bytes no memory changes. -/
def Claims.loadsConverted (s : State) (i : Instr) (d : Vr) (a : Gpr) (sp : BitVec 2) (k : Kr) (f : Fmt) (off : Int) (c : Gpr) (len : Nat) : Prop :=
  ∀ l m bl, let n := f.toNat; let x := s.task s.focus; let size := spanBytes m bl (Claims.count n)
    let es := arrayElems l m bl (enabled n (x.getK k)) (elemCount n)
    let data := (s.readRuns l (wordRuns (natBit (rangeBits (neededAt l es))) l.addr size)).1
    Claims.vecReady s n [d] → s.vmemFormat i d a sp k f false = .ok (m, bl) → s.vmemPlace i a sp c off size false = .ok l →
    elemAligned m l.addr = true → s.checkElems (sp == 3) accLoad es = .ok () → ∃ t v, exec i s = .next t ∧
      (x.frame = none → (t.task s.focus).pc = pcPlus x.pc len) ∧ (t.task s.focus).v = x.v.set d.toNat v ∧ (t.task s.focus).g = x.g ∧ (Claims.present s l size → ∀ y, t.homeByte y = s.homeByte y) ∧
      ∀ e, e < Claims.count n → Claims.elem n v e = if Claims.on n (x.getK k) e then laneForm n (loadElem s m bl n data e).1 else Claims.elem n (x.getV d) e

/-- What the writes a store has added to the store buffer make of the memory once they have all arrived in their order (R276). -/
def Claims.afterWrites (s : State) (l : List Write) (y : Loc) : Byte :=
  (l.foldl (fun f w => w.onto f) s.homeByte) y

/-- A vector store of n bytes (R53, R159) of a task that does not buffer: the writes it adds to the store buffer change, of the bytes from l on, exactly the bits of enabled elements, each to
the element's code in the memory format; no register and no byte of memory changes before they arrive. -/
def Claims.storesElements (s : State) (i : Instr) (d : Vr) (a : Gpr) (sp : BitVec 2) (k : Kr) (f : Fmt) (off : Int) (c : Gpr) (len : Nat) : Prop :=
  ∀ l m bl, let n := f.toNat; let x := s.task s.focus; let w := fmtWidth m; let size := spanBytes m bl (Claims.count n)
    let C := fun (e : Nat) => if m = n then Claims.code n (x.getV d) e
      else (convCode n m false x.round.toNat (s.drawOf x.round.toNat e) (Claims.code n (x.getV d) e)).1
    Claims.vecReady s n [d] → isBlock m = false → x.buffers = false → s.vmemFormat i d a sp k f true = .ok (m, bl) →
    s.vmemPlace i a sp c off size true = .ok l → elemAligned m l.addr = true →
    s.checkElems (sp == 3) accStore (arrayElems l m bl (enabled n (x.getK k)) (elemCount n)) = .ok () → ∃ t ws, exec i s = .next t ∧
      (x.frame = none → (t.task s.focus).pc = pcPlus x.pc len) ∧ (t.task s.focus).sb = x.sb ++ ws ∧ (t.task s.focus).v = x.v ∧ (t.task s.focus).g = x.g ∧ (∀ y, t.homeByte y = s.homeByte y) ∧
      (∀ j b, j < size → b < 8 → (Claims.afterWrites s ws (l.plus j)).getLsbD b =
        if Claims.on n (x.getK k) ((8 * j + b) / w) then (C ((8 * j + b) / w)).testBit ((8 * j + b) % w) else (s.homeByte (l.plus j)).getLsbD b) ∧
      (∀ y, (∀ j, j < size → y ≠ l.plus j) → Claims.afterWrites s ws y = s.homeByte y)

/-- A vector store into blocks (R160): with every lane enabled, the bytes from l on become the blocks of the elements, one behind the other. -/
def Claims.storesBlocks (s : State) (i : Instr) (d : Vr) (a : Gpr) (sp : BitVec 2) (f : Fmt) (off : Int) (c : Gpr) (len : Nat) : Prop :=
  ∀ l m bl, let n := f.toNat; let x := s.task s.focus; let size := spanBytes m bl (Claims.count n)
    Claims.vecReady s n [d] → isBlock m = true → x.buffers = false → s.vmemFormat i d a sp 0 f true = .ok (m, bl) →
    s.vmemPlace i a sp c off size true = .ok l → elemAligned m l.addr = true →
    s.checkElems (sp == 3) accStore (arrayElems l m bl (enabled n (x.getK 0)) (elemCount n)) = .ok () → ∃ t ws, exec i s = .next t ∧
      (x.frame = none → (t.task s.focus).pc = pcPlus x.pc len) ∧ (t.task s.focus).sb = x.sb ++ ws ∧ (t.task s.focus).v = x.v ∧
      (∀ y, t.homeByte y = s.homeByte y) ∧ ∀ j, j < size → Claims.afterWrites s ws (l.plus j) = BitVec.ofNat 8 ((packBlocks s n m bl (elemsOf n (x.getV d))).1 / 2 ^ (8 * j))

/-- `vldl` (R161): the 1,024 bytes from l on are the lanes. `vstl`: the enabled lanes are written as words. -/
def Claims.rawImages (s : State) (i j : Instr) (d : Vr) (a : Gpr) (sp : BitVec 2) (k : Kr) (off : Int) (c : Gpr) (len : Nat) : Prop :=
  ∀ l, let x := s.task s.focus; let es := rawElems l (x.getK k)
    (Claims.vecReady s 0 [d] → sp ≠ 3 → s.vmemPlace i a sp c off 1024 false = .ok l → l.addr % 4 = 0 → s.checkElems false accLoad es = .ok () →
      Claims.quiet s l 1024 → Claims.present s l 1024 → Claims.vecLoads s i d k 0 0 len fun e => (leNat (s.homeBytes (l.plus (4 * e)) 4), 0)) ∧
    (Claims.vecReady s 0 [d] → x.buffers = false → s.vmemPlace j a sp c off 1024 true = .ok l → l.addr % 4 = 0 → s.checkElems (sp == 3) accStore es = .ok () →
      ∃ t ws, exec j s = .next t ∧ (t.task s.focus).sb = x.sb ++ ws ∧ (t.task s.focus).v = x.v ∧ (∀ y, t.homeByte y = s.homeByte y) ∧
        (∀ m, m < 1024 → Claims.afterWrites s ws (l.plus m) = if Claims.on 0 (x.getK k) (m / 4)
          then BitVec.ofNat 8 (Claims.elem 0 (x.getV d) (m / 4) / 2 ^ (8 * (m % 4))) else s.homeByte (l.plus m)) ∧
        (∀ y, (∀ m, m < 1024 → y ≠ l.plus m) → Claims.afterWrites s ws y = s.homeByte y))

/-- `vld`, `vst`, `vldl` and `vstl`, plain and with the prefix that widens their offset and names a coordinate register (R67, R159-R161). -/
def Claims.vectorMemory : Prop :=
  ∀ (s : State) (d : Vr) (a : Gpr) (sp : BitVec 2) (k : Kr) (f : Fmt) (x : BitVec 5) (y : BitVec 4) (c : Gpr) (ext : BitVec 20)
    (wide : Int), wide = 1024 * (ext ++ x : BitVec 25).toInt →
    Claims.loadsRaw s (.vld d a sp k f x) d a sp k f (1024 * x.toInt) 0 4 ∧ Claims.loadsRaw s (.vldPrefixed d a sp k f x c ext) d a sp k f wide c 8 ∧
    Claims.loadsConverted s (.vld d a sp k f x) d a sp k f (1024 * x.toInt) 0 4 ∧
    Claims.loadsConverted s (.vldPrefixed d a sp k f x c ext) d a sp k f wide c 8 ∧
    Claims.storesElements s (.vst d a sp k f x) d a sp k f (1024 * x.toInt) 0 4 ∧
    Claims.storesElements s (.vstPrefixed d a sp k f x c ext) d a sp k f wide c 8 ∧
    Claims.storesBlocks s (.vst d a sp 0 f x) d a sp f (1024 * x.toInt) 0 4 ∧
    Claims.rawImages s (.vldl d a sp k y) (.vstl d a sp k y) d a sp k (1024 * y.toInt) 0 4 ∧
    Claims.rawImages s (.vldlPrefixed d a sp k y c ext) (.vstlPrefixed d a sp k y c ext) d a sp k (1024 * (ext ++ y : BitVec 24).toInt) c 8

/-- A gather and a scatter of n bytes (R158, R162): element e stands at A + the signed lane e of VX, aligned to its width. The enabled lanes of a gather receive what stands there; a scatter
adds one write for each enabled lane, lowest lane first. An address that is no multiple of the width traps MISALIGN with it, the
lane in TRAPINFO[7:0]. -/
def Claims.indexed (s : State) (i j : Instr) (d x : Vr) (a : Gpr) (sp : BitVec 2) (k : Kr) (f : Fmt) (c : Gpr) (len : Nat) : Prop :=
  ∀ (m : Nat) (l0 : Loc) (P : Nat → Loc), let n := f.toNat; let t := s.task s.focus; let w := fmtWidth m / 8; let K := t.getK k
    let es : List ElemAcc := ((List.range 256).filter K.getLsbD).map fun e => ⟨e, P e, [(P e, w)]⟩
    let at_ := fun (e : Nat) => BitVec.ofInt 64 (((Claims.reg s a).toNat % 2 ^ 56 : Nat) + toS 32 (Claims.elem 0 (t.getV x) e))
    (Claims.vecReady s n [d, x] → s.indexFormat i d x a f false = .ok m → s.place sp (Claims.reg s a) (Claims.reg s c) 0 = .ok l0 →
      (∀ e, e < 256 → K.getLsbD e = true → s.place sp (at_ e) (Claims.reg s c) 0 = .ok (P e) ∧ (P e).addr % w = 0 ∧ Claims.quiet s (P e) w ∧ Claims.present s (P e) w) →
      s.checkElems false accLoad es = .ok () →
      Claims.vecLoads s i d k n (if m = n then 0 else Claims.draws s) len fun e => let v := leNat (s.homeBytes (P e) w)
        if m = n then (laneForm n v, 0) else let y := convCode m n false t.round.toNat (s.drawOf t.round.toNat e) v; (laneForm n y.1, y.2)) ∧
    (∀ b, Claims.vecReady s n [d, x] → s.indexFormat i d x a f false = .ok m → sp = 0 → s.place sp (Claims.reg s a) (Claims.reg s c) 0 = .ok l0 → b < 256 → K.getLsbD b = true →
      (∀ e, e < b → K.getLsbD e = true → (at_ e).toNat % 2 ^ 56 % w = 0) → (at_ b).toNat % 2 ^ 56 % w ≠ 0 →
      Claims.traps i s 2 0 (BitVec.ofNat 64 ((at_ b).toNat % 2 ^ 56)) (some (BitVec.ofNat 64 b))) ∧
    (Claims.vecReady s n [d, x] → t.buffers = false → s.indexFormat j d x a f true = .ok m → s.place sp (Claims.reg s a) (Claims.reg s c) 1 = .ok l0 →
      (∀ e, e < 256 → K.getLsbD e = true → s.place sp (at_ e) (Claims.reg s c) 1 = .ok (P e) ∧ (P e).addr % w = 0) →
      s.checkElems false accStore es = .ok () → ∃ u ws, exec j s = .next u ∧ (u.task s.focus).sb = t.sb ++ ws ∧ (u.task s.focus).v = t.v ∧
        (∀ y, u.homeByte y = s.homeByte y) ∧
        ws.map (fun y => (y.loc, y.bytes)) = es.map fun e => (e.loc, natBytes (let v := if n = 0 then Claims.elem 0 (t.getV d) e.lane else Claims.code n (t.getV d) e.lane
          if m = n then v else (convCode n m false t.round.toNat (s.drawOf t.round.toNat e.lane) v).1) w))

/-- `vgather` and `vscatter`, plain and with a prefix (R67, R162). -/
def Claims.gatherAndScatter : Prop :=
  ∀ (s : State) (d : Vr) (a : Gpr) (sp : BitVec 2) (k : Kr) (f : Fmt) (x : BitVec 5) (c : Gpr), sp ≠ 3 →
    Claims.indexed s (.vgather d a sp k f x) (.vscatter d a sp k f x) d x a sp k f 0 4 ∧
    Claims.indexed s (.vgatherPrefixed d a sp k f x c) (.vscatterPrefixed d a sp k f x c) d x a sp k f c 8

/-- The vector memory instructions. -/
def Obligations.VectorMemoryAndGather : Prop := Claims.vectorMemory ∧ Claims.gatherAndScatter

/-! ### The matrix engine (R165-R183, R197, R230) -/

/-- A command of the task joined the engine's queue (R167), with the rounding, identity and register it took at issue; the submitted state is what the command leaves, tiles and owner stay. -/
def Claims.queued (u t : State) (i : Instr) (a : Word) (sub : Submitted) : Prop :=
  let c := coreOf u.focus; let e := u.mx c; let x := u.task u.focus
  ∃ m, (t.mx c).queue = e.queue ++ [m] ∧ m.instr = i ∧ m.a = a ∧ m.tid = x.tid ∧ m.rnd = x.rnd ∧ m.failed = false ∧ m.token = false ∧
    (t.mx c).sub = sub ∧ (t.mx c).tiles = e.tiles ∧ (t.mx c).owner = e.owner

/-- `mcfg` (R166, R169): nonzero bits that must be zero trap ILLEGAL; an engine of another owner gives 0; one that its owner's abort has still to release stalls the
replay (R184); A[63] of a free engine or of the own one asks for the release and gives 3; a free engine is claimed with every register reset and gives 1, the own
one 2; both queue the command and configure K, ACC and the strides. -/
def Claims.matrixConfig : Prop :=
  ∀ (s u : State) (d a b : Gpr), let x := s.task s.focus; let c := coreOf s.focus; let e := s.mx c; let va := Claims.reg s a; let vb := Claims.reg s b
    let fresh := fun (u : State) => u.modMx c fun e => { MatrixEngine.reset with owner := some x.owner, known := e.known, rel := e.rel }
    let sub := fun (v : Submitted) => { v with k := va.toNat % 2 ^ 11 + 1, acc := va.getLsbD 12, astr := vb.toNat % 2 ^ 21, bstr := vb.toNat / 2 ^ 32 % 2 ^ 21 }
    let release := 2 ^ 63 ≤ va.toNat
    (mcfgOk va vb = false → Claims.traps (.mcfg d a b) s 1 0 (wordOf (.mcfg d a b)) none) ∧
    (mcfgOk va vb = true → (∀ o, e.owner = some o → o ≠ x.owner → exec (.mcfg d a b) s = .next (Claims.wrote s d 0 4)) ∧
      ((e.owner = none ∨ e.owner = some x.owner) → e.orphan = true → exec (.mcfg d a b) s = .next (s.pass 1 0)) ∧
      ((e.owner = none ∨ e.owner = some x.owner) → e.orphan = false → release → ∃ t, exec (.mcfg d a b) s = .next (Claims.wrote t d 3 4) ∧ t.tasks = s.tasks ∧
        t.mx c = { e with releasing := e.owner.isSome }) ∧
      (e.owner = none → e.orphan = false → ¬release → e.takes = true → s.releaseNow s.focus 1 = (true, u) → u.focus = s.focus → u.cores = s.cores → ∃ t,
        exec (.mcfg d a b) s = .next t ∧ Claims.queued (fresh u) t (.mcfg d a b) va (sub MatrixEngine.reset.sub) ∧ (t.mx c).owner = some x.owner ∧ (t.task s.focus).g = Claims.gset (u.task s.focus) d 1) ∧
      (e.owner = some x.owner → e.orphan = false → ¬release → e.takes = true → s.releaseNow s.focus 1 = (true, u) → u.focus = s.focus → u.cores = s.cores → ∃ t,
        exec (.mcfg d a b) s = .next t ∧
        Claims.queued u t (.mcfg d a b) va (sub (u.mx c).sub) ∧ (t.task s.focus).g = Claims.gset (u.task s.focus) d 2) ∧
      ((e.owner = none ∨ e.owner = some x.owner) → e.orphan = false → ¬release → e.takes = false → exec (.mcfg d a b) s = .next (s.pass 1 0)))

/-- The other commands (R167, R171-R179): of a task that does not own the engine they trap ILLEGAL; one that meets its conditions against the submitted state is queued after a release at `.core`, or stalls
while the queue takes none. `mzero`, `mload.a` and `mscale` set the submitted KIND of their tile, `mlatch.b` the submitted latch, `mring` the submitted ring; with ENABLE = 0 it ignores B. An `mdrain` that names its own core is a local one with a wake-up (R121, R184; DEDUCED, log 107). -/
def Claims.matrixCommands : Prop :=
  ∀ (s u : State) (t k : BitVec 2) (fa fb : Fmt) (a b : Gpr) (va vb : Vr), let x := s.task s.focus; let c := coreOf s.focus; let e := s.mx c; let A := Claims.reg s a; let B := Claims.reg s b
    let other := B.toNat / 256 % 4 * 160 + B.toNat / 16 % 16 * 16 + B.toNat % 16
    let queues := fun (i : Instr) (w : Word) (f : Submitted → Submitted) => ∃ v, exec i s = .next v ∧ Claims.queued u v i w (f (u.mx c).sub) ∧ (v.task s.focus).g = (u.task s.focus).g
    let foreign := fun (i : Instr) => Claims.traps i s 1 0 (wordOf i) none
    (e.heldBy x.owner = false → x.frame = none → foreign (.mzero k t) ∧ foreign (.mloadA k t a) ∧ foreign .mrot ∧ foreign (.mscale t va vb) ∧ foreign (.mring a b) ∧
      (tagFmt A ≠ 1 → foreign (.msum t a) ∧ foreign (.mlatchB a) ∧ foreign (.mdrain t a b) ∧ foreign (.outer t a b) ∧ (fa ≠ 1 → fb ≠ 1 → foreign (.mma t fa fb a)))) ∧
    (e.heldBy x.owner = true → e.takes = false → exec (.mzero k t) s = .next (s.pass 1 0)) ∧
    (e.heldBy x.owner = true → e.takes = true → s.releaseNow s.focus 1 = (true, u) → u.focus = s.focus → (u.mx c).sub = e.sub →
      queues (.mzero k t) 0 (fun v => v.setKind t.toNat k) ∧
      (mloadCheck (s.core c) A = .ok () → queues (.mloadA k t a) A (fun v => v.setKind t.toNat k)) ∧
      (tagNeedsD s A = .ok () → msumCheck (s.core c) e.sub t.toNat A = .ok () → queues (.msum t a) A id) ∧
      (tagNeedsD s A = .ok () → (fa = 1 ∨ fb = 1 → hasD c = true) → mmaCheck (s.core c) e.sub t.toNat fa.toNat fb.toNat A false = .ok () → queues (.mma t fa fb a) A id) ∧
      (hasD c = true → mmaCheck (s.core c) e.sub t.toNat 1 1 A true = .ok () → queues (.mmaF64 t a) A id) ∧
      (tagNeedsD s A = .ok () → checkTag A true = .ok () → opCheck (s.core c) A (tagFmt A) (tagBlog A) e.sub.k e.sub.bstr (operandRows (tagFmt A)) true = .ok () →
        queues (.mlatchB a) A (fun v => { v with lvalid := true, lfmt := BitVec.ofNat 5 (tagFmt A), lk := e.sub.k, lblog := tagBlog A })) ∧
      (A.toNat / 2 ^ 10 % 2 ^ 53 = 0 → A.toNat / 2 ^ 4 % 16 < 10 → (A.getLsbD 63 = true → B.toNat < 2 ^ 10 ∧ B.toNat / 2 ^ 4 % 16 < 10) →
        queues (.mring a b) A (fun v => { v with ring := A.getLsbD 63 })) ∧
      (e.sub.ring = true → queues .mrot 0 id) ∧
      (x.stream = none → va.toNat < leaseSize x.leaseCls → vb.toNat < leaseSize x.leaseCls → e.sub.kind t.toNat ≠ 2 →
        queues (.mscale t va vb) 0 (fun v => v.setKind t.toNat 0)) ∧
      (tagNeedsD s A = .ok () → drainFormat A (e.sub.kind t.toNat) = .ok () → drainLocal (s.core c) A (e.sub.kind t.toNat) = .ok () → queues (.mdrain t a 0) A id) ∧
      (b ≠ 0 → b.toNat ≤ 61 → B.toNat / 16 % 16 < 10 → tagNeedsD s A = .ok () → drainFormat A (e.sub.kind t.toNat) = .ok () →
        (other ≠ c → x.guarded = false → Claims.direct x → queues (.mdrain t a b) A id) ∧
        (other = c → drainLocal (s.core c) A (e.sub.kind t.toNat) = .ok () → queues (.mdrain t a b) A id))) ∧
    (e.heldBy x.owner = true → e.sub.ring = false → Claims.traps .mrot s 1 0 (wordOf .mrot) none) ∧
    (∀ (z : Core) (v v' : Submitted) (r : Gpr) (w : Word), checkCmd z v (.mma t fa fb r) w = .ok v' → v' = v ∧ v.lvalid = true ∧ v.lfmt = fb ∧ v.lk = v.k ∧
      v.kind t.toNat = (if v.acc then 1 else 0) ∧ fa ≠ 0 ∧ fa ≠ 1 ∧ fa ≠ 31 ∧ fb ≠ 1)

/-- `outer` (R197) with a resident routine is queued once the queue is empty, and stalls with its place in the line else (R198). `mstat` (R182) reports the engine, of an engine of others only whether it is claimed,
and it is an acquire at `.core` that synchronises with the release of the engine's last completed command. -/
def Claims.outerAndStatus : Prop :=
  ∀ (s v u : State) (t : BitVec 2) (d a b : Gpr) (r : Routine), let x := s.task s.focus; let c := coreOf s.focus; let e := s.mx c; let A := Claims.reg s a
    let z := v.mx c; let fa := tagFmt A; let fb := z.sub.lfmt.toNat; let m := e.bank e.cur
    (tagNeedsD s A = .ok () → e.heldBy x.owner = true → s.useRoutine (.outer t a b) (Claims.reg s b) = .ok (r, v) → v.focus = s.focus → r.w = false → r.ty ≠ 3 →
      fa ≠ 0 → fa ≠ 1 → fa ≠ 31 → z.sub.lvalid = true → fb ≠ 0 → fb ≠ 1 → fb ≠ 31 → z.sub.lk = z.sub.k → checkTag A true = .ok () →
      opCheck (v.core c) A fa (tagBlog A) z.sub.k z.sub.astr 64 false = .ok () → z.sub.kind t.toNat = (if r.ty = 0 then 0 else 1) → 
      (z.queue = [] → v.mayClaim .outerUnit = true → v.releaseNow s.focus 1 = (true, u) → u.focus = s.focus → ∃ w, exec (.outer t a b) s = .next w ∧
        Claims.queued u w (.outer t a b) A (u.mx c).sub ∧ (w.task s.focus).g = (u.task s.focus).g) ∧
      (z.queue ≠ [] ∨ v.mayClaim .outerUnit = false → exec (.outer t a b) s = .next ((s.stallFor .outerUnit).pass 1 0))) ∧
    (∃ w, exec (.mstat d) s = .next w ∧ w.cores = s.cores ∧ (∀ r, e.rel = some r → ∀ k ∈ r.snap, k ∈ (w.task s.focus).view.known) ∧
      (∀ h ∈ s.hist, sameInstance 1 (.task x.tid c) h.party = true → h.id ∈ (w.task s.focus).view.known) ∧ (w.task s.focus).view.readSince = [] ∧
      (e.heldBy x.owner = false → (w.task s.focus).g = Claims.gset x d (if e.owner.isSome then BitVec.ofNat 64 (2 ^ 62) else 0)) ∧
      (e.heldBy x.owner = true → 1 ≤ m.k → m.k ≤ 2 ^ 11 → e.queue.length ≤ 16 → ∀ g, g = (w.task s.focus).g → d ≠ 0 → let y := g[d.toNat]
        y.getLsbD 63 = true ∧ y.getLsbD 62 = true ∧ y.getLsbD 61 = e.fault ∧ y.getLsbD 56 = e.ringOn ∧ y.getLsbD 55 = s.rotating c ∧ y.getLsbD 54 = m.valid ∧
        y.toNat / 2 ^ 49 % 32 = m.fmt.toNat ∧ y.toNat / 2 ^ 38 % 2 ^ 11 = m.k - 1 ∧ y.toNat / 2 ^ 14 % 2 ^ 16 = e.done.toNat ∧ y.toNat % 2 ^ 14 = e.queue.length ∧
        ∀ i, i < 4 → y.toNat / 2 ^ (30 + 2 * i) % 4 = (e.tile (BitVec.ofNat 2 i)).kind.toNat))

/-- Every matrix instruction (R165-R182, R197). -/
def Claims.matrixInstructions : Prop := Claims.matrixConfig ∧ Claims.matrixCommands ∧ Claims.outerAndStatus

/-- Element e of a 32-bit tile. -/
def Claims.tileCode (x : Tile) (e : Nat) : Nat := x.data.toNat / 2 ^ (32 * e) % 2 ^ 32

/-- What a queued command does when it completes (R57, R169, R171, R172, R174, R176, R179): with its rows below every watermark and the latch it was checked against, and the bytes of the home where
no arrival in the core's banks is left to choose. -/
def Claims.matrixEffects : Prop :=
  ∀ (s : State) (core : Nat) (c : MCmd) (t k : BitVec 2) (fa fb : Fmt) (r r' : Gpr) (va vb : Vr), let e := s.mx core; let l := e.bank e.cur; let m := aFormat c.a fa.toNat
    let nb := spanBytes m.1 m.2 c.sub.k; let base := c.a.toNat % 2 ^ 56; let row := fun (i : Nat) => leNat (s.homeBytes (.bank core (base + i * c.sub.astr)) nb)
    c.failed = false → (∀ w ∈ s.hist, ∀ o, w.at? (.bank core o) = none) →
    (c.instr = .mzero k t → ∃ u, s.perform core c = some (u, 0) ∧ u.mx core = e.setTile t ⟨k, 0⟩ ∧ u.tasks = s.tasks) ∧
    (c.instr = .mcfg r r r' → ∃ u, s.perform core c = some (u, 0) ∧ u.mx core = { e with
      k := c.sub.k, acc := c.sub.acc, astr := c.sub.astr, bstr := c.sub.bstr, fault := e.fault && !c.clrf }) ∧
    (c.instr = .mloadA k t r → s.watchedRange core base 16384 = false → k ≠ 2 → ∃ u, s.perform core c = some (u, 0) ∧ ((u.mx core).tile t).kind = k ∧
      ∀ j, j < 16384 → ((u.mx core).tile t).data.toNat / 2 ^ (8 * j) % 256 = (s.homeByte (.bank core (base + j))).toNat) ∧
    (c.instr = .mma t fa fb r → s.rowsLanded core base c.sub.astr (operandRows 0) nb = true → e.latchOk c = true → l.cols.length = 64 →
      (c.sub.acc = true → (e.tile t).kind = 1 → ∃ u, s.perform core c = some (u, 0) ∧ ((u.mx core).tile t).kind = 1 ∧ ∀ i j, i < 64 → j < 64 →
        Claims.tileCode ((u.mx core).tile t) (64 * i + j) = ofS 32 ((Claims.tileCode (e.tile t) (64 * i + j) : Int) + (((rowCodes m.1 m.2 c.sub.k (row i)).zip
          (rowCodes l.fmt.toNat l.blog c.sub.k ((l.cols[j]?).getD 0))).map fun p => p.1 * p.2).sum)) ∧
      (c.sub.acc = false → (e.tile t).kind = 0 → ∃ u f, s.perform core c = some (u, f) ∧ ((u.mx core).tile t).kind = 0 ∧ ∀ i j, i < 64 → j < 64 →
        Claims.tileCode ((u.mx core).tile t) (64 * i + j) = (mmaElem c.rnd (64 * i + j) (Claims.tileCode (e.tile t) (64 * i + j))
          (rowValues m.1 m.2 c.sub.k (row i)).1 (rowValues l.fmt.toNat l.blog c.sub.k ((l.cols[j]?).getD 0)).1).1 % 2 ^ 32)) ∧
    (c.instr = .mma t fa fb r → s.rowsLanded core base c.sub.astr (operandRows 0) nb = false → s.perform core c = none) ∧
    (c.instr = .mma t fa fb r → s.rowsLanded core base c.sub.astr (operandRows 0) nb = true → e.latchOk c = false →
      s.perform core c = some (s.modMx core fun e => { e with fault := true }, 0)) ∧
    (c.instr = .mscale t va vb → (e.tile t).kind ≠ 2 → c.rows.length = 64 → c.cols.length = 64 → ∃ u f, s.perform core c = some (u, f) ∧ ((u.mx core).tile t).kind = 0 ∧
      ∀ i j, i < 64 → j < 64 → Claims.tileCode ((u.mx core).tile t) (64 * i + j) = (scaleElem c.rnd ((e.tile t).kind == 1) (64 * i + j) (Claims.tileCode (e.tile t) (64 * i + j))
        ((c.rows[i]?).getD 0).toNat ((c.cols[j]?).getD 0).toNat).1 % 2 ^ 32) ∧
    (c.instr = .mdrain t r 0 → c.target = none → c.a.toNat < 2 ^ 56 → s.watchedRange core base 16384 = false → ∃ u, s.perform core c = some (u, 0) ∧ u.mx core = { e with known := (u.mx core).known } ∧
      ((s.core core).mem.wf = true → ∀ j, j < 16384 → (u.homeByte (.bank core (base + j))).toNat = (e.tile t).data.toNat / 2 ^ (8 * j) % 256))

/-- The engine's moves. MATRIX_COMMAND_COMPLETE (R167, R279, R282): the engine takes the head command with what its task knew and what has arrived from its core, performs it and releases; the command leaves the queue, DONE counts it and its flags reach its task; nothing completes while the gate is shut.
MATRIX_GATE (R230) takes a token from counter MCTR. LATCH_STREAM and LATCH_FLIP (R178) pass a latch on and complete the `mrot`; ENGINE_RELEASE (R166) frees an engine that is empty or waits at an `mrot`; MDRAIN_WAKEUP (R181) puts the record into the target's mailbox. -/
def Claims.matrixMoves : Prop :=
  (∀ (s : State) (core : Nat), (s.mx core).queue = [] → exec (.matrixCommandComplete core) s = .next s ∧ exec (.matrixGate core) s = .next s ∧ exec (.latchFlip core) s = .next s) ∧
  (∀ (s : State) (core : Nat) (c : MCmd) (q : List MCmd), let e := s.mx core; let x := (s.core core).xbar; let n := vget x.counters x.mctr.toNat 0; let s' := s.takeCmd core c; e.queue = c :: q →
    (s'.mx core).queue = e.queue ∧ s'.tasks = s.tasks ∧ (∀ k, k ∈ (s'.mx core).known ↔ k ∈ c.known ∨ k ∈ e.known ∨ ∃ w ∈ s.hist, sameInstance 1 (.matrix core) w.party = true ∧ w.id = k) ∧
    (s.gateShut core c = true → exec (.matrixCommandComplete core) s = .next s) ∧
    (s.gateShut core c = false → s'.startDrain core c = none → s'.perform core c = none → exec (.matrixCommandComplete core) s = .next s') ∧
    (∀ u f, s.gateShut core c = false → s'.startDrain core c = none → s'.perform core c = some (u, f) → ∃ t, exec (.matrixCommandComplete core) s = .next t ∧
      (t.mx core).queue = (u.mx core).queue.drop 1 ∧ (t.mx core).done = (u.mx core).done + 1 ∧ (∃ r, (t.mx core).rel = some r ∧ r.snap = (t.mx core).known) ∧ (t.mx core).tiles = (u.mx core).tiles ∧
      ∀ i y, (i, y) ∈ u.tasks → y.tid = c.tid → y.life ≠ .free → ∃ z, (i, z) ∈ t.tasks ∧ z = { y with fflags := y.fflags ||| f, life := z.life }) ∧
    (x.men = true → c.token = false → c.sent = none → c.instr ≠ .mrot → n ≠ 0 → ∃ t, exec (.matrixGate core) s = .next t ∧ (t.mx core).queue = { c with token := true } :: q ∧
      (t.core core).xbar.counters = vput x.counters x.mctr.toNat (n - 1)) ∧
    (n = 0 → exec (.matrixGate core) s = .next s) ∧
    (c.instr = .mrot → e.streamAcked = true → (e.bank (!e.cur)).full = true → ∃ t, exec (.latchFlip core) s = .next t ∧ (t.mx core).cur = !e.cur ∧
      (t.mx core).streamAcked = false ∧ (t.mx core).queue = q ∧ (t.mx core).done = e.done + 1 ∧ (t.mx core).bank (!e.cur) = e.bank (!e.cur) ∧
      (t.mx core).bank e.cur = Latch.empty)) ∧
  (∀ (s : State) (core : Nat), let e := s.mx core; let p := s.mx e.pred; e.pred ≠ core → e.ringOn = true → (e.bank (!e.cur)).full = false → s.rotating e.pred = true → p.ringOn = true → p.succ = core →
    p.streamAcked = false → ∃ t, exec (.latchStream core) s = .next t ∧ (t.mx core).bank (!e.cur) = { p.bank p.cur with full := true } ∧
    (t.mx e.pred).streamAcked = true ∧ (t.mx core).bank e.cur = e.bank e.cur) ∧
  (∀ (s : State) (core : Nat), let e := s.mx core
    (e.releasing = true → e.queue = [] ∨ s.rotating core = true → ∃ t, exec (.engineRelease core) s = .next t ∧
      t.mx core = { MatrixEngine.reset with known := e.known, rel := e.rel }) ∧
    (e.releasing = false → exec (.engineRelease core) s = .next s)) ∧
  (∀ (s : State) (g : Msg), s.msgs = [g] → g.kind = .wake → s.msgReady g = true → (s.job g.job).desc.quads.contains (quadOf g.core) = true → ∃ t r,
    exec (.mdrainWakeup g.id) s = .next t ∧ t.msgs = [] ∧ (t.core g.core).mailbox = (s.core g.core).mailbox ++ [r] ∧ r.dwords = g.dwords ∧ r.src = .message)

/-- The matrix engine at work (R57, R166-R181, R230). -/
def Claims.matrixEngine : Prop := Claims.matrixEffects ∧ Claims.matrixMoves

/-- The matrix instructions and what the engine does with its queue. -/
def Obligations.MatrixInstructionsAndEngine : Prop := Claims.matrixInstructions ∧ Claims.matrixEngine

/-! ### Routines (R58, R186-R201) -/

/-- `rbind` (R190): a misaligned address traps MISALIGN; a valid image is the first of the core's store and D is its handle, bit 63 with the address. `hstat` (R193) reports a resident image's
properties, type and length, the unit's state and the number of images. -/
def Claims.routineStore : Prop :=
  ∀ (s v : State) (d a : Gpr) (r : Routine), let A := Claims.reg s a; let va := A.toNat % 2 ^ 56; let c := s.core (coreOf s.focus)
    (A.toNat % 64 ≠ 0 → Claims.traps (.rbind d a) s 2 0 A none) ∧
    (A.toNat % 64 = 0 → s.loadRoutine va = .ok (r, v) → v.focus = s.focus → ∃ t l, exec (.rbind d a) s = .next t ∧
      (t.core (coreOf s.focus)).routines = r :: l ∧ (t.task s.focus).g = Claims.gset (v.task s.focus) d (BitVec.ofNat 64 (2 ^ 63 + va)) ∧ r.addr = va) ∧
    (∃ y : Word, exec (.hstat d a) s = .next (Claims.wrote s d y 4) ∧ (c.routines.length ≤ 8 → y.toNat % 16 = c.routines.length ∧ y.getLsbD 5 = c.rcmd.isSome ∧
      (c.routineAt va = none → y.getLsbD 63 = false) ∧
      (∀ r, c.routineAt va = some r → 1 ≤ r.words.length → r.words.length ≤ 32 → y.getLsbD 63 = true ∧ y.getLsbD 62 = r.assoc ∧ y.getLsbD 61 = r.comm ∧ y.getLsbD 60 = r.w ∧
        y.toNat / 2 ^ 58 % 4 = r.ty.toNat ∧ y.toNat / 2 ^ 53 % 32 = r.words.length - 1)))

/-- `fold`, `scan` and `zip` at issue (R194, R198, R201): a block above its limit traps ILLEGAL; one whose checks pass takes the free unit and holds its task; a busy unit, and
one that an older task waits for, stalls it with its place in the line. -/
def Claims.routineIssue : Prop :=
  ∀ (s v : State) (d b : Gpr) (x : BitVec 1) (e a : BitVec 2) (p : HoPlan),
    let issues := fun (i : Instr) (h : HoForm) => (h.limit < b.toNat → Claims.traps i s 1 0 (wordOf i) none) ∧
      (s.hoPlan i h = .ok (p, v) → v.focus = s.focus →
        ((s.core (coreOf s.focus)).rcmd = none → s.mayClaim .routineUnit = true → ∃ t, exec i s = .next t ∧ (t.core (coreOf s.focus)).rcmd = some ⟨s.focus, i, p.r, false⟩ ∧ (t.task s.focus).engaged = true ∧
          (t.task s.focus).g = (v.task s.focus).g ∧ (t.task s.focus).pc = (v.task s.focus).pc) ∧
        ((s.core (coreOf s.focus)).rcmd.isSome = true ∨ s.mayClaim .routineUnit = false → exec i s = .next ((s.stallFor .routineUnit).pass 1 0)))
    issues (.fold d x a b) (foldForm x a b) ∧ issues (.scan d x e a b) (scanForm x e a b) ∧ issues (.zip e a b) (zipForm e a b)

/-- The combination that `fold`, `scan` and `zip` compute (R58, R196). In strict order the results are the prefixes from the identity on; with ASSOC = 1, and an operation that is associative, they are the
combinations of the elements in index order, whatever tree computes them; `zip` applies the routine to each pair. -/
def Claims.combinations : Prop :=
  ∀ (op : Nat → Nat × Nat → Nat × Nat → (Nat × Nat) × Notes) (f : Nat × Nat → Nat × Nat → Nat × Nat) (r : Routine) (x : Nat × Nat) (xs : List (Nat × Nat)),
    (∀ i a b, (op i a b).1 = f a b) →
    (r.assoc = false → (foldAll op r xs).1 = xs.foldl f r.identity ∧ ∀ i, i < xs.length → (scanAll op r xs).1[i]? = some ((xs.take (i + 1)).foldl f r.identity)) ∧
    (r.assoc = true → (foldAll op r []).1 = r.identity) ∧
    (r.assoc = true → (∀ a b c, f (f a b) c = f a (f b c)) → xs.length < 2 ^ 14 → (foldAll op r (x :: xs)).1 = xs.foldl f x ∧
      ∀ i, i ≤ xs.length → (scanAll op r (x :: xs)).1[i]? = some ((xs.take i).foldl f x))

/-- ROUTINE_COMMAND_COMPLETE (R196, R198, R199, R201) of a `fold` whose flags do not trap: D is the combination of the elements as they were read; of a `zip` of a task that does not buffer: its outputs join
the store buffer, and the task stays held until they have landed. Once every write of the task has landed the unit is free and the task goes on. A core with no command changes nothing. -/
def Claims.routineCompletion : Prop :=
  (∀ (s : State) (core : Nat), (s.core core).rcmd = none → exec (.routineCommandComplete core) s = .next s) ∧
  (∀ (s : State) (i : Instr) (r : Routine), let core := coreOf s.focus; let y := s.task s.focus; (s.core core).rcmd = some ⟨s.focus, i, r, true⟩ → y.engaged = true →
    (s.allArrived s.focus = false → exec (.routineCommandComplete core) s = .next s) ∧
    (s.allArrived s.focus = true → y.frame = none → ∃ t, exec (.routineCommandComplete core) s = .next t ∧ (t.core core).rcmd = none ∧ (t.task s.focus).engaged = false ∧
      (t.task s.focus).pc = pcPlus y.pc 4 ∧ (t.task s.focus).g = y.g ∧ ∀ l, t.homeByte l = s.homeByte l)) ∧
  (∀ (s : State) (d b : Gpr) (x : BitVec 1) (a e : BitVec 2) (p : HoPlan) (r : Routine), let core := coreOf s.focus; let y := s.task s.focus
    y.ftrapen = 0 → y.engaged = true → y.frame = none →
    ((s.core core).rcmd = some ⟨s.focus, .fold d x a b, r, false⟩ → s.hoPlanWith (.fold d x a b) (foldForm x a b) r = .ok p → ∀ q, p.srcs = [q] → ∃ t,
      exec (.routineCommandComplete core) s = .next t ∧ (s.allArrived s.focus = true → (t.core core).rcmd = none ∧ (t.task s.focus).engaged = false ∧ (t.task s.focus).pc = pcPlus y.pc 4) ∧
      (s.allArrived s.focus = false → (t.core core).rcmd = some ⟨s.focus, .fold d x a b, r, true⟩ ∧ (t.task s.focus).engaged = true ∧ (t.task s.focus).pc = y.pc) ∧
      (Claims.present s q.1 (q.2.span p.n) → ∀ l, t.homeByte l = s.homeByte l) ∧
      (t.task s.focus).g = Claims.gset y d (s.hoCompute (foldForm x a b) p.r ((s.hoRead p.r p.idx p.n q).1.map (·.1)) []).scalar) ∧
    ((s.core core).rcmd = some ⟨s.focus, .zip e a b, r, false⟩ → y.buffers = false → s.hoPlanWith (.zip e a b) (zipForm e a b) r = .ok p → ∀ l n, p.dst = some (l, .word) → p.n = n → ∃ t ws,
      exec (.routineCommandComplete core) s = .next t ∧ (t.task s.focus).sb = y.sb ++ ws ∧
      (n ≠ 0 → (t.core core).rcmd = some ⟨s.focus, .zip e a b, r, true⟩ ∧ (t.task s.focus).engaged = true ∧ (t.task s.focus).pc = y.pc) ∧
      (t.task s.focus).g = y.g ∧ (∀ z, (∀ j, j < 4 * n → z ≠ l.plus j) → Claims.afterWrites s ws z = s.homeByte z) ∧
      ∀ q1 q2 xs ys s1 s2, p.srcs = [q1, q2] → s.hoRead p.r p.idx n q1 = (xs, s1) → s1.hoRead p.r p.idx n q2 = (ys, s2) → ∀ j v1 v2 f1 f2, j < 4 * n → xs[j / 4]? = some (v1, f1) →
        ys[j / 4]? = some (v2, f2) → Claims.afterWrites s ws (l.plus j) = BitVec.ofNat 8 ((s.hoApply p.r (j / 4) v1 v2).1.1 / 2 ^ (8 * (j % 4)))))

/-- `rbind`, `hstat`, `fold`, `scan`, `zip` and the routine unit. -/
def Obligations.Routines : Prop := Claims.routineStore ∧ Claims.routineIssue ∧ Claims.combinations ∧ Claims.routineCompletion

/-! ### Guarded launch and the event crossbar (R223-R232) -/

/-- `glaunch` (R223, R225): the block register at most g59, n from 1 to 2^20, handlers aligned to 4 and the record to 32 bytes, both headers restartable; after the release at `.pkg` the record is written,
COUNT = n and zeros, and the lowest free guard entry of the quad holds the launch with the task's GTOL and CLASS. -/
def Claims.guardLaunch : Prop :=
  ∀ (s v w u : State) (a b : Gpr) (g0 : Nat), let i := Instr.glaunch a b; let n := (Claims.reg s a).toNat; let B := fun (k : Nat) => Claims.reg s (b + BitVec.ofNat 6 k)
    let q := quadOf (coreOf s.focus); let l := Loc.glob (spaceOf (w.asid (w.task s.focus).job) ((B 4).toNat % 2 ^ 56)) ((B 4).toNat % 2 ^ 56)
    (59 < b.toNat → Claims.traps i s 1 0 (wordOf i) none) ∧
    (b.toNat ≤ 59 → n = 0 ∨ 2 ^ 20 < n → Claims.traps i s 1 0 (wordOf i) (some (Claims.reg s a))) ∧
    (b.toNat ≤ 59 → 1 ≤ n → n ≤ 2 ^ 20 → (B 0).toNat % 4 ≠ 0 → Claims.traps i s 2 0 (B 0) none) ∧
    (b.toNat ≤ 59 → 1 ≤ n → n ≤ 2 ^ 20 → (∀ k, k < 3 → (B k).toNat % 4 = 0) → (B 4).toNat % 32 ≠ 0 → Claims.traps i s 2 0 (B 4) none) ∧
    (b.toNat ≤ 59 → 1 ≤ n → n ≤ 2 ^ 20 → (∀ k, k < 3 → (B k).toNat % 4 = 0) → (B 4).toNat % 32 = 0 → s.needRestartable (B 0) = .ok v → v.needRestartable (B 1) = .ok w →
      w.focus = s.focus → w.checkAccess l 32 accStore = .ok () → w.freeGuard q = some g0 → (w.task s.focus).guarded = false → Claims.direct (w.task s.focus) →
      w.releaseNow s.focus 4 = (true, u) → u.focus = s.focus → u.freeGuard q = some g0 → (u.task s.focus).g = (s.task s.focus).g → ∃ t e h, exec i s = .next t ∧
        t.hist = e :: h ∧ e.loc = l ∧ e.bytes = natBytes n 32 ∧ (t.quad q).guards = vput (u.quad q).guards g0 (some {
          job := (u.task s.focus).job, n := n, next := 0, sur := B 0, chk := B 1, exa := B 2, arg := B 3, record := B 4, gtol := (u.task s.focus).gtol, cls := (u.task s.focus).cls, redo := [], tiles := [] }) ∧
        (t.task s.focus).g = (u.task s.focus).g)

/-- `gres` (R227): only a check task may issue it; the task retires as by `end` and keeps its shadow buffer, and its tile has the residual A[31:0] with the check's GTOL. -/
def Claims.residuals : Prop :=
  ∀ (s : State) (a : Gpr), let x := s.task s.focus
    (x.isCheck = false → Claims.traps (.gres a) s 1 0 (wordOf (.gres a)) none) ∧
    (∀ q e tile g, x.guard = some (q, e, tile, .check) → e < 4 → x.moving = none → vget (s.quad q).guards e none = some g → ∃ t g', exec (.gres a) s = .next t ∧
      (t.task s.focus).life = .retired ∧ (t.task s.focus).how = 0 ∧ (t.task s.focus).residual = some (BitVec.ofNat 32 (Claims.reg s a).toNat) ∧
      (t.task s.focus).shadow = x.shadow ∧ vget (t.quad q).guards e none = some g' ∧
      ∀ y ∈ g.tiles, y.t = tile → ∃ z ∈ g'.tiles, z.t = tile ∧ z.residual = some (BitVec.ofNat 32 (Claims.reg s a).toNat) ∧ z.gtol = x.gtol)

/-- `evcfg` (R229, R231): an item above 56 or nonzero bits above A[8] trap ILLEGAL; D is the item's value; with A[8] the item becomes B, whose bits that must be zero are checked, and reads
back as B, and every other item is as it was; a term's latches and a counter's OVF are then clear. -/
def Claims.crossbarItems : Prop :=
  (∀ (s : State) (d a b : Gpr), let A := (Claims.reg s a).toNat; let n := A % 2 ^ 8; let c := coreOf s.focus; let x := (s.core c).xbar; let B := Claims.reg s b
    (2 ^ 9 ≤ A ∨ 56 < n → Claims.traps (.evcfg d a b) s 1 0 (wordOf (.evcfg d a b)) none) ∧
    (A < 2 ^ 8 → n ≤ 56 → exec (.evcfg d a b) s = .next (Claims.wrote s d (x.item n) 4)) ∧
    (2 ^ 8 ≤ A → A < 2 ^ 9 → n ≤ 56 → itemOk n B = false → Claims.traps (.evcfg d a b) s 1 0 (wordOf (.evcfg d a b)) (some B)) ∧
    (2 ^ 8 ≤ A → A < 2 ^ 9 → n ≤ 56 → itemOk n B = true → (s.task s.focus).life = .running → ∃ t, exec (.evcfg d a b) s = .next t ∧
      (t.task s.focus).g = Claims.gset (s.task s.focus) d (x.item n) ∧ (t.core c).xbar = x.setItem n B)) ∧
  (∀ (x : Crossbar) (n m : Nat) (v : Word), n ≤ 56 → m ≤ 56 → itemOk n v = true → (x.setItem n v).item n = v ∧ (m ≠ n → (x.setItem n v).item m = x.item m) ∧
    (n < 32 → (vget (x.setItem n v).terms n ⟨1, true, 1, true, 1⟩).latched = 0) ∧ (32 ≤ n → n < 48 → (x.setItem n v).ovf.getLsbD (n - 32) = false))

/-- `evsig` (R232): nonzero A[63:8] trap ILLEGAL; with B = 0, after the release at `.core`, software line i of the own core is pulsed for every set bit of A[7:0]: each term that they do not make ready latches them, and with one
line a term that was ready has fired before it (R229); tasks in `wait` may wake. With B a coordinate the pulses travel after a release at `.pkg`. -/
def Claims.signals : Prop :=
  ∀ (s u : State) (a b : Gpr), let A := (Claims.reg s a).toNat; let c := coreOf s.focus; let v := (Claims.reg s b).toNat; let o := v / 256 % 4 * 160 + v / 16 % 16 * 16 + v % 16
    (2 ^ 8 ≤ A → Claims.traps (.evsig a b) s 1 0 (wordOf (.evsig a b)) none) ∧
    (A < 2 ^ 8 → s.releaseNow s.focus 1 = (true, u) → u.focus = s.focus → ∃ t, exec (.evsig a 0) s = .next (Claims.passed t 4) ∧
      (∀ k, t.task k = { u.task k with life := (t.task k).life }) ∧
      ∀ n, n < 32 → let y := vget (u.core c).xbar.terms n ⟨0, false, 0, false, 0⟩; let z := { y with latched := y.latched ||| BitVec.ofNat 32 (A * 2 ^ 24) }
        (z.ready = false → vget (t.core c).xbar.terms n ⟨0, false, 0, false, 0⟩ = z) ∧
        (∀ i, A = 2 ^ i → vget (t.core c).xbar.terms n ⟨0, false, 0, false, 0⟩ = if y.ready then { y with latched := BitVec.ofNat 32 (A * 2 ^ 24) } else z)) ∧
    (A < 2 ^ 8 → b ≠ 0 → v / 16 % 16 < 10 → o ≠ c → s.releaseNow s.focus 4 = (true, u) → u.focus = s.focus → ∃ t e, exec (.evsig a b) s = .next (Claims.passed t 4) ∧ t.tasks = u.tasks ∧
      t.msgs = u.msgs ++ [e] ∧ e.kind = .lines (BitVec.ofNat 8 A) ∧ e.core = o)

/-- `glaunch`, `gres`, `evcfg` and `evsig` (R223-R232). -/
def Claims.guardsAndCrossbar : Prop := Claims.guardLaunch ∧ Claims.residuals ∧ Claims.crossbarItems ∧ Claims.signals

/-! ### The life of a task (R20, R22-R24, R95, R102, R113) -/

/-- The word of memory that an update by the hardware changes (R95, R291): eight bytes of a page of class 0 to 2 in the address space, or of
class 3 in address space 0. -/
def Claims.memWord (s : State) (asid va : Nat) : Word := leWord (s.homeBytes (.glob (spaceOf asid va) va) 8)

/-- DISPATCH (R20, R22): of the waiting triggers that the core may start, the chosen one is of the lowest class number among them and fits, and it starts in the
free slot with the free lease base: Ready, with g1 to g7 from its doublewords 1 to 7, every other register at its reset value, its TASKID, class,
lease, and the PC 8 bytes behind its header; a header that could not be used leaves a trap at the handler. A slot that is taken changes nothing. -/
def Claims.dispatches : Prop :=
  (∀ (s : State) (core : Nat) (l : List (Weighed × Place)) (w : Weighed) (pl : Place), s.pickTrigger core l = some (w, pl) →
    (w, pl) ∈ l ∧ s.fits core w.lease w.shadow 1 = true ∧ ∀ e ∈ l, w.cls ≤ e.1.cls) ∧
  (∀ (s u : State) (core slot base : Nat) (l : List (Weighed × Place)) (w : Weighed) (pl : Place), let n := 16 * core + slot; let i := Instr.dispatch core slot base
    slot < 16 → core < 640 →
    ((s.task n).life ≠ .free → exec i s = .next s) ∧
    ((s.task n).life = .free → s.weighAll core (s.sources core) = (u, l) →
      (u.pickTrigger core l = none → exec i s = .next u) ∧
      (u.pickTrigger core l = some (w, pl) → u.placeFree n base w.lease w.shadow = true → ∃ t, exec i s = .next t ∧
        (let x := t.task n
         x.life = .ready ∧ x.tid = w.trig.tid ∧ x.job = w.trig.job ∧ x.cls = BitVec.ofNat 2 w.cls ∧ x.leaseCls = w.lease ∧
         (∀ r : Gpr, x.getG r = if 1 ≤ r.toNat ∧ r.toNat ≤ 7 then (w.trig.dwords[r.toNat]?).getD 0 else 0) ∧
         x.trapCause = 0 ∧ x.frame = none ∧ x.sb = [] ∧ x.fflags = 0 ∧
         (w.fail = none → x.pendingTrap = none ∧ x.pc = BitVec.ofNat 64 ((w.handler.toNat + 8) % 2 ^ 56)) ∧
         (∀ c sub v, w.fail = some (c, sub, v) → x.pc = w.handler ∧ ∃ info, x.pendingTrap = some (w.handler, c, sub, v, info))))))

/-- CONTEXT_LOADED (R23, R24, R107): once its input snapshot lies in memory, a Ready task is Held while a hold is on it, goes on waiting for a port
or for the barrier of its `bar` at hand, and runs otherwise; it stays Ready while the snapshot cannot be written yet. Said where no offer of it is to be made again
(R254). Where the snapshots lie is the model's choice (log 101). -/
def Claims.loads : Prop :=
  ∀ (s : State) (n : Nat), let x := s.task n; let i := Instr.contextLoaded n
    let enters := fun (l : Life) => exec i s = .next { s with tasks := tput s.tasks n { x with life := l } }
    let held := x.holdReq = true ∨ x.holdDbg = true ∨ x.holdSys = true
    let bar := ∃ b, x.bars.find? (fun b => b.nest == x.nest && b.pc == x.here) = some b ∧ b.passed = none
    let leave := (s.askLeave (.task x.tid (coreOf n)) true (snapshotLoc n) 64).1
    (x.life ≠ .ready ∨ x.tid = 0 → exec i s = .next s) ∧
    (x.life = .ready → x.tid ≠ 0 → x.resends = false → (x.snapDue = false ∨ x.snapshot = none) →
      (¬held → x.portWait = none → ¬bar → enters .running) ∧
      (¬held → x.portWait ≠ none → x.portDue = false → enters (.waiting .port)) ∧
      (¬held → x.portWait = none → bar → enters (.waiting .event)) ∧
      (held → ∃ w, enters (.held w))) ∧
    (x.life = .ready → x.tid ≠ 0 → x.snapDue = true → ∀ g, x.snapshot = some g →
      (leave = .later → ∃ t, exec i s = .next t ∧ (t.task n).life = .ready ∧ (t.task n).snapDue = true) ∧
      (leave = .now → (∀ a va, snapshotLoc n = .glob a va → s.peerOf a va = none) → ∃ t, exec i s = .next t ∧ (t.task n).life ≠ .ready ∧
        (t.task n).snapDue = false ∧ t.homeBytes (snapshotLoc n) 64 = bytesOfDwords ((List.range 8).map g.dw)))

/-- What the end of a task does to its join counter (R95): COUNT goes down by 1, POISON stays, and is set where the task ended with poison or
COUNT was 0 already. -/
def Claims.counted (poison : Bool) (c : Word) : Word :=
  if c.toNat % 2 ^ 63 = 0 then BitVec.ofNat 64 (2 ^ 63)
  else BitVec.ofNat 64 ((if poison then 2 ^ 63 else c.toNat / 2 ^ 63 * 2 ^ 63) + (c.toNat % 2 ^ 63 - 1))

/-- RETIRED_TO_FREE (R23, R95, R102) of a task that belongs to no pair: with an answer to an offer outstanding, or not Retired, nothing happens; while a write of it is under
way it stays Retired; then its slot is Free and empty and its join counter has counted it, where nothing holds the update up. KILL (R23, R113): a task in any state but Free retires with poison, and
its uncommitted buffer is gone; a swapped one retires where its context is. -/
def Claims.ends : Prop :=
  (∀ (s u : State) (n : Nat), let x := s.task n; let i := Instr.retiredToFree n
    n < 20000 → (x.life ≠ .retired ∨ x.settledPorts = false → exec i s = .next s) ∧
    (x.life = .retired → x.settledPorts = true → x.guarded = false →
      (s.commitNow n = (false, u) → exec i s = .next u) ∧
      (s.commitNow n = (true, u) → u.allArrived n = false → exec i s = .next u) ∧
      (s.commitNow n = (true, u) → u.allArrived n = true → ∃ t, exec i s = .next t ∧ t.task n = Task.empty ∧
        (let y := u.task n; let a := u.asid y.job
         ∀ c, y.joinAddr = some c → y.team = none → y.guard = none → Claims.updatable u (.task y.tid (coreOf n)) a (c.toNat % 2 ^ 56) →
          Claims.memWord t a (c.toNat % 2 ^ 56) = Claims.counted (y.how != 0) (Claims.memWord u a (c.toNat % 2 ^ 56)))))) ∧
  (∀ (s : State) (n : Nat), let x := s.task n; let i := Instr.kill n
    n < 20000 → (x.life = .free ∨ x.tid = 0 → exec i s = .next s) ∧
    (x.life ≠ .free → x.tid ≠ 0 → ∃ t, exec i s = .next t ∧ (t.task n).life = .retired ∧ (t.task n).how = 1 ∧ (t.task n).frame = none ∧
      (x.buffers = true → (t.task n).shadow = []))) ∧
  (∀ (s : State) (n : Nat) (w : Swap), s.swaps[n]? = some w → ∃ t w', exec (.kill (20000 + n)) s = .next t ∧ t.swaps[n]? = some w' ∧
    w'.task.life = .retired ∧ w'.task.how = 1 ∧ w'.core = w.core ∧ t.tasks = s.tasks)

/-- The start and the end of a task. -/
def Obligations.TaskStartsAndEnds : Prop := Claims.dispatches ∧ Claims.loads ∧ Claims.ends

/-! ### Pages, core errors, interrupts (R22, R106, R107, R213) -/

/-- A task parked for a page. -/
def Claims.parkedOn (x : Task) (asid va : Nat) : Prop := ∃ a v k i, x.life = .parked a v k i ∧ samePage a v asid va = true

/-- PAGE_RESIDENT and PAGE_DECLARED_INVALID (R106): only once the leaf is there, or says that the page does not exist. Tardar's queue then holds no request for the page,
every other request stays, and a parked task is Held where a hold is on it and runs otherwise, at the same instruction; declared invalid, it has a PAGE
trap with the faulting address and the TRAPINFO that the access fixed (R158). No other task changes. Said where no request of the host waits in a window for a page (R335), which would go on. -/
def Claims.pages : Prop :=
  ∀ (s : State) (asid va : Nat), let kind := (s.walk asid va).kind
    let back := fun (x : Task) => { x with life := if x.holdReq = true ∨ x.holdDbg = true ∨ x.holdSys = true then Life.held none else .running }
    let quiet := fun (t : State) => ∀ e, e ∈ t.faultQ ↔ e ∈ s.faultQ ∧ samePage e.1 e.2.1 asid va = false
    let idle := ∀ q, q < 4 → tget s.windows q [] = []
    (kind ≠ 2 → exec (.pageResident asid va) s = .next s) ∧ (kind ≠ 0 → exec (.pageDeclaredInvalid asid va) s = .next s) ∧
    (kind = 2 → idle → ∃ t, exec (.pageResident asid va) s = .next t ∧ quiet t ∧ t.hbm = s.hbm ∧
      (∀ n, Claims.parkedOn (s.task n) asid va → t.task n = back (s.task n)) ∧
      (∀ n, (∀ e ∈ s.tasks, e.1 = n → ¬Claims.parkedOn e.2 asid va) → t.task n = s.task n)) ∧
    (kind = 0 → idle → ∃ t, exec (.pageDeclaredInvalid asid va) s = .next t ∧ quiet t ∧ t.hbm = s.hbm ∧
      (∀ n, Claims.parkedOn (s.task n) asid va → (t.task n).pc = (s.task n).pc ∧ (t.task n).g = (s.task n).g ∧
        ∃ e ∈ s.tasks, e.1 = n ∧ ∃ a v k o info, e.2.life = .parked a v k o ∧ samePage a v asid va = true ∧ (∀ w, o = some w → info = w) ∧
          (t.task n).pendingTrap = some ((s.task n).here, 3, k, BitVec.ofNat 64 (v % 2 ^ 56), info)) ∧
      (∀ n, (∀ e ∈ s.tasks, e.1 = n → ¬Claims.parkedOn e.2 asid va) → t.task n = s.task n))

/-- CORE_ERROR (R107): a restartable task that has not committed, running or Retired, leaves its slot, and its input snapshot waits at its core's mailbox to start on another core; any other task
ends with INTEGRITY, SUB 2, at its instruction, without reaching a trap entry: Retired, or Held where a debugger is attached; Tardar is told. A Retired task that has committed holds only what is left of its
buffer, which is lost; a Swapped one that runs on its own ends where its context is, and an uncommitted one runs again. That INFO and TRAPINFO show the frame is the model's choice
(log 114). -/
def Claims.coreErrors : Prop :=
  (∀ (s : State) (n : Nat), let x := s.task n; let c := coreOf n; let i := Instr.coreError n
    n < 20000 → (x.life = .free ∨ x.tid = 0 ∨ (x.life = .retired ∧ x.shadow = []) → exec i s = .next s) ∧
    (x.life = .retired → x.tid ≠ 0 → x.shadow ≠ [] → x.buffers = false → x.guarded = false → ∃ t, exec i s = .next t ∧ .coreError x.tid ∈ t.notices ∧
      (t.task n).life = .retired ∧ (t.task n).how = 2 ∧ (t.task n).shadow = []) ∧
    (x.life = .retired → x.tid ≠ 0 → x.shadow ≠ [] → x.buffers = true → x.guarded = false → ∃ t, exec i s = .next t ∧ .coreError x.tid ∈ t.notices ∧
      t.task n = Task.empty ∧ (t.core c).mailbox = (s.core c).mailbox ++ (x.snapshot.map fun g => { g with
        src := .requeue, tid := x.tid, lcn := some x.lcn, page := none, avoid := some c, brk := x.brk, watch := x.watch }).toList) ∧
    (x.life ≠ .free → x.life ≠ .retired → x.tid ≠ 0 →
      (x.buffers = true → x.guarded = false → x.moving = none → ∃ t, exec i s = .next t ∧ .coreError x.tid ∈ t.notices ∧ t.task n = Task.empty ∧
        (t.core c).mailbox = (s.core c).mailbox ++ (x.snapshot.map fun g => { g with
          src := .requeue, tid := x.tid, lcn := some x.lcn, page := none, avoid := some c, brk := x.brk, watch := x.watch }).toList) ∧
      (x.buffers = false → x.moving = none → ∃ t, exec i s = .next t ∧ .coreError x.tid ∈ t.notices ∧
        (t.task n).trapCause = Claims.cause x.nest 6 2 (if x.frame = none then 0 else 1) ∧
        (t.task n).trapPc = BitVec.ofNat 64 (x.here.toNat % 2 ^ 56) ∧
        ((s.job x.job).debugger = false → (t.task n).life = .retired ∧ (t.task n).how = 2) ∧
        ((s.job x.job).debugger = true → (∃ w, (t.task n).life = .held w) ∧ (t.task n).holdDbg = true)))) ∧
  (∀ (s : State) (n : Nat) (w : Swap), s.swaps[n]? = some w → w.task.buffers = false → w.task.life ≠ .retired → ∃ t w',
    exec (.coreError (20000 + n)) s = .next t ∧ .coreError w.task.tid ∈ t.notices ∧ t.tasks = s.tasks ∧ t.swaps[n]? = some w' ∧ w'.core = w.core ∧
    w'.task.trapCause = Claims.cause w.task.nest 6 2 (if w.task.frame = none then 0 else 1) ∧
    ((s.job w.task.job).debugger = false → w'.task.life = .retired ∧ w'.task.how = 2) ∧
    ((s.job w.task.job).debugger = true → w'.task.life = w.task.life ∧ w'.task.holdDbg = true)) ∧
  (∀ (s : State) (n : Nat) (w : Swap), s.swaps[n]? = some w → w.task.buffers = true → w.task.guarded = false → w.task.life ≠ .retired →
    (s.swaps.filter fun v => v.task.tid == w.task.tid) = [w] → ∃ t,
    exec (.coreError (20000 + n)) s = .next t ∧ .coreError w.task.tid ∈ t.notices ∧ t.swaps = s.swaps.eraseIdx n ∧
    (t.core w.core).mailbox = (s.core w.core).mailbox ++ (w.task.snapshot.map fun g => { g with
      src := .requeue, tid := w.task.tid, lcn := some w.task.lcn, page := none, avoid := some w.core, brk := w.task.brk, watch := w.task.watch }).toList)

/-- ENGINE_INTERRUPT (R213): at the boundary of a Running or Waiting task outside its trap entry, whose job has one, the oldest waiting interrupt is
taken: cause 9 at the next instruction with INFO = 0, also while a repeat frame runs, and the others go on waiting. In the trap entry none is taken, nor ahead of a breakpoint's
trap or a pending one; a commit under way, the completion of a wait, and a hold come first. -/
def Claims.interrupts : Prop :=
  ∀ (s : State) (n : Nat) (q : EngineIrq) (r : List EngineIrq), let x := s.task n; let j := s.job x.job; let i := Instr.engineInterrupt n
    x.irqs = q :: r → (x.nest = true ∨ x.pendingTrap ≠ none ∨ (x.life = .running ∧ x.here ∈ x.brk ∧ x.skipStop = 0) → exec i s = .next s) ∧
    ((x.life = .running ∨ ∃ w, x.life = .waiting w) → x.nest = false → j.desc.trapEntry ≠ 0 → x.reply = none → x.moving = none → x.halt = none →
      x.pendingTrap = none → x.engaged = false → s.landing n = false → q.sub < 256 → x.owes = false →
      (x.life = .running → x.here ∉ x.brk ∨ x.skipStop.getLsbD 0 = true) →
      exec i s = .next (Claims.delivered (s.setTask n { x with irqs := r }) n { x with irqs := r }
        (Claims.entered { x with irqs := r } j.desc.trapEntry x.here 9 q.sub q.val q.info) x.here 9 q.sub q.val q.info))

/-- Absent pages, core errors and ENGINE interrupts. -/
def Obligations.PagesErrorsInterrupts : Prop := Claims.pages ∧ Claims.coreErrors ∧ Claims.interrupts

/-! ### Service, holds, debugger, waits (R23, R96, R99, R110, R114, R301, R356) -/

/-- The state with one context replaced. -/
def Claims.withTask (s : State) (n : Nat) (x : Task) : State := { s with tasks := tput s.tasks n x }

/-- Nothing is recorded that a context waits for or has to make again: no port, no barrier, no offer (R24). -/
def Claims.noWait (x : Task) : Prop := x.portWait = none ∧ x.bars = [] ∧ x.resends = false

/-- SYS_RELEASE (R110): a task that `sys` holds resumes at TRAPPC, in its trap entry at the instruction after the `sys`; a request that Tardar does not serve gives
g1 = 2^64 - 1; one it serves gives the registers Tardar wrote, by numbers that are the model's own (DESIGN CHOICE, log 14). Another hold keeps the task Held. -/
def Claims.serviceDone : Prop :=
  ∀ (s : State) (n : Nat), let x := s.task n
    let pc := if x.nest then x.pc else BitVec.ofNat 64 (x.trapPc.toNat % 2 ^ 56)
    let go := fun (y : Task) => { y with holdSys := false, life := if x.holdReq ∨ x.holdDbg then y.life else .running }
    (∀ b l, x.holdSys = false → exec (.sysRelease n b l) s = .next s) ∧
    (x.holdSys = true → x.life = .held none → Claims.noWait x →
      (∀ l, exec (.sysRelease n false l) s = .next (Claims.withTask s n (go { x with g := x.g.set 1 (BitVec.allOnes 64), pc := pc }))) ∧
      exec (.sysRelease n true []) s = .next (Claims.withTask s n (go { x with pc := pc })) ∧
      (∀ (r : Nat) (h : r < 64) (v : Word), r ≠ 0 →
        exec (.sysRelease n true [(r, v)]) s = .next (Claims.withTask s n (go { x with g := x.g.set r v, pc := pc }))) ∧
      (∀ v : Word, exec (.sysRelease n true [(64, v)]) s = .next (Claims.withTask s n (go { x with
        trapPc := BitVec.ofNat 64 (v.toNat % 2 ^ 56), pc := if x.nest then x.pc else BitVec.ofNat 64 (v.toNat % 2 ^ 56) })) ∧
        exec (.sysRelease n true [(70, v)]) s = .next (Claims.withTask s n (go { x with fflags := BitVec.ofNat 7 v.toNat, pc := pc }))))

/-- DEBUGGER_STOP and DEBUGGER_RESUME (R23, R114): a Running or Waiting task is Held with its wait kept, and a command of its of the routine unit is cancelled, but for one
whose outputs are landing, which ends first (R201), as do a commit under way (R103) and an `hhold` or `hrel` that stalls (R301); a `dsteal` between its accesses is issued again (R306). Any other
live task is marked, so that it restores into Held. A resume clears the debugger's hold alone; without another hold the task waits on for a port that has not answered or for its
barrier, and runs on otherwise. -/
def Claims.debuggerHolds : Prop :=
  ∀ (s : State) (n : Nat), let x := s.task n
    n < 20000 → (x.life = .free ∨ x.life = .retired ∨ x.tid = 0 → exec (.debuggerStop n) s = .next s) ∧
    (x.life ≠ .free → x.life ≠ .retired → x.tid ≠ 0 → (s.landing n = true ∨ x.committing = true ∨ x.reply ≠ none) →
      ∃ t, exec (.debuggerStop n) s = .next t ∧ t.task n = { x with holdDbg := true }) ∧
    (x.life ≠ .free → x.life ≠ .retired → x.tid ≠ 0 → s.landing n = false → x.committing = false → x.reply = none →
      ∃ t, exec (.debuggerStop n) s = .next t ∧ t.task n = { x with
      engaged := false
      theft := none
      holdDbg := true
      life := match x.life with
        | .running => .held none
        | .waiting w => .held (some w)
        | l => l }) ∧
    (x.holdDbg = false → exec (.debuggerResume n) s = .next s) ∧
    (∀ w, x.holdDbg = true → x.life = .held w → x.resends = false →
      let back := fun (l : Life) => n < 20000 → exec (.debuggerResume n) s = .next (Claims.withTask s n { x with holdDbg := false, life := l })
      (x.holdReq = true ∨ x.holdSys = true → back (.held w)) ∧
      (x.holdReq = false → x.holdSys = false →
        (Claims.noWait x → back .running) ∧
        (x.portWait ≠ none → x.portDue = false → back (.waiting .port)) ∧
        (∀ b, x.portWait = none → x.bars = [b] → b.pc = x.here → b.nest = x.nest → b.passed = none → back (.waiting .event))))

/-- The same for a swapped task: it stays where it is and is marked. -/
def Claims.swappedHolds : Prop :=
  ∀ (s : State) (n : Nat) (w : Swap), s.swaps[n]? = some w →
    (w.task.life ≠ .free → w.task.life ≠ .retired → ∃ t, exec (.debuggerStop (20000 + n)) s = .next t ∧ t.tasks = s.tasks ∧
      t.swaps[n]? = some { w with task := { w.task with holdDbg := true } }) ∧
    (∀ k, w.task.life = .swapped k → ∃ t, exec (.debuggerResume (20000 + n)) s = .next t ∧ t.tasks = s.tasks ∧
      t.swaps[n]? = some { w with task := { w.task with holdDbg := false } })

/-- DEBUGGER_ATTACH (R114): the debugger attaches to the job or leaves it; a task of the job takes up to 8 breakpoints and 4 watchpoints, each on an aligned
range of 8 bytes to 4 GiB. -/
def Claims.attaches : Prop :=
  ∀ (s : State) (j n : Nat) (on : Bool) (brk : List Word) (watch : List (Nat × Nat × Nat)), let x := s.task n; let i := Instr.debuggerAttach j on n brk watch
    (tfind s.jobs j = none → exec i s = .next s) ∧
    (∀ k, tfind s.jobs j = some k → n < 20000 → ∃ t, exec i s = .next t ∧ tfind t.jobs j = some { k with debugger := on } ∧
      (x.job = j → x.life ≠ .free → brk.length ≤ 8 → watch.length ≤ 4 →
        (∀ w ∈ watch, ∃ e, 3 ≤ e ∧ e ≤ 32 ∧ w.2.1 = 2 ^ e ∧ w.1 % 2 ^ e = 0) → t.task n = { x with brk := brk, watch := watch }) ∧
      (x.job ≠ j ∨ x.life = .free → t.tasks = s.tasks))

/-- HOLD_REQUEST (R301): the directory of a die applies its oldest request. The reply is 1 for no live task with the TASKID, one of another job included; 3 for a Retired task; 2
where the hold is as asked already; 0 else. An `hhold` of another task holds a Running or Waiting one at once and leaves a Ready or Parked one with a pending hold; an
`hrel` clears the hold, and a task with no other hold runs on. The requester has the reply. -/
def Claims.holdRequests : Prop :=
  ∀ (s : State) (d r : Nat) (tid : Word) (hold : Bool) (q : List (Nat × Word × Bool)), let i := Instr.holdRequest d
    ((s.die d).holdQ = [] → exec i s = .next s) ∧
    ((s.die d).holdQ = (r, tid, hold) :: q → ∃ t, exec i s = .next t ∧ (t.die d).holdQ = q ∧
      (∀ m n, (s.task m).tid = BitVec.ofNat 64 r → (s.task m).life ≠ .free → (s.task m).reply = some none →
        (s.anyTask tid = none ∨ jobOfTid tid ≠ jobOfTid (BitVec.ofNat 64 r) ∨ tid = 0 → n = 1) →
        (∀ x, s.anyTask tid = some x → jobOfTid tid = jobOfTid (BitVec.ofNat 64 r) → tid ≠ 0 →
          (x.life = .retired → n = 3) ∧
          (hold = true → (x.life = .ready ∨ ∃ a v k o, x.life = .parked a v k o) → n = 0) ∧
          (hold = true → (x.life = .running ∨ (∃ w, x.life = .waiting w) ∨ (∃ w, x.life = .held w) ∨ (∃ w, x.life = .swapped w)) →
            n = if x.holdReq then 2 else 0) ∧
          (hold = false → x.life ≠ .retired → n = if x.holdReq then 0 else 2)) →
        (s.anyTask tid = none ∨ ∃ x, s.anyTask tid = some x ∧ x.life ≠ .free) → (t.task m).reply = some (some n)) ∧
      (∀ k, s.findTid tid = some k → jobOfTid tid = jobOfTid (BitVec.ofNat 64 r) → r ≠ tid.toNat → (s.task k).life ≠ .retired → s.landing k = false →
        (s.task k).committing = false → (s.task k).reply = none →
        (hold = true → (s.task k).holdReq = false → (t.task k).holdReq = true ∧
          ((s.task k).life = .running → (t.task k).life = .held none) ∧
          (∀ w, (s.task k).life = .waiting w → (t.task k).life = .held (some w)) ∧
          ((s.task k).life = .ready → (t.task k).life = .ready)) ∧
        (hold = false → (s.task k).holdReq = true → (t.task k).holdReq = false ∧
          ((s.task k).holdDbg = false → (s.task k).holdSys = false → (s.task k).life = .held none →
            Claims.noWait (s.task k) → (t.task k).life = .running))))

/-- JOIN_REREAD, WAITV_REREAD and IDLE_DEADLINE (R96, R99, R356): a task in that wait issues its instruction again, `idle` once DIECLK has reached its deadline; no other task
is touched. -/
def Claims.rereads : Prop :=
  ∀ (s : State) (n : Nat), let x := s.task n; let run := Host.Outcome.next (Claims.withTask s n { x with life := .running })
    (x.life = .waiting .join → exec (.joinReread n) s = run) ∧ (x.life = .waiting .value → exec (.waitvReread n) s = run) ∧
    (∀ d a l b, s.fetch n x.pc.toNat = .ok (.instr (.idle d a) l b) → x.life = .waiting .time →
      ((x.getG a).toNat ≤ (s.clock (coreOf n)).toNat → exec (.idleDeadline n) s = run) ∧
      ((s.clock (coreOf n)).toNat < (x.getG a).toNat → exec (.idleDeadline n) s = .next s))

/-- Requests and answers of Tardar, the task directory and a debugger. -/
def Obligations.HoldsAndWaits : Prop :=
  Claims.serviceDone ∧ Claims.debuggerHolds ∧ Claims.swappedHolds ∧ Claims.attaches ∧ Claims.holdRequests ∧ Claims.rereads

/-! ### The flag tree and the crossbar (R52, R229, R232) -/

/-- FLAG_TREE_UPDATE (R52): a raise reaches QFLAGS of its quad and DFLAGS of its die, and only adds flags. TERM_FIRE (R229): an enabled term with every named input latched
clears its latches and, with INC = 1, adds 1 to its counter, which stays at 65,535 and sets OVF; of the tasks in `wait` on each nonzero counter of the core the first looks again (R98); any other term does nothing.
SOFTWARE_LINE_PULSE (R232): a pulse message that has come latches its software lines in every term of the target core that they do not make ready, and leaves the network. -/
def Claims.flagTreeAndCrossbar : Prop :=
  (∀ (s : State) (n c : Nat) (f : BitVec 7), s.raises[n]? = some (c, f) → ∃ t, exec (.flagTreeUpdate n) s = .next t ∧
    (t.quad (quadOf c)).qflags = (s.quad (quadOf c)).qflags ||| f ∧ (t.die (dieOf c)).dflags = (s.die (dieOf c)).dflags ||| f ∧
    t.raises = s.raises.eraseIdx n ∧ t.tasks = s.tasks ∧ t.cores = s.cores) ∧
  (∀ (s : State) (c n : Nat) (h : n < 32), let x := (s.core c).xbar; let m := x.terms[n]; let i := Instr.termFire c n
    (m.en = false ∨ m.latched &&& m.mask ≠ m.mask → exec i s = .next s) ∧
    (m.en = true → m.latched &&& m.mask = m.mask → ∃ t, exec i s = .next t ∧
      (let y := (t.core c).xbar
       y.terms = x.terms.set n { m with latched := 0 } ∧ y.waiters = x.waiters ∧
       (m.inc = false → y.counters = x.counters ∧ y.ovf = x.ovf) ∧
       (m.inc = true → x.counters[m.ctr.toNat] ≠ 0xFFFF →
        y.counters = x.counters.set m.ctr.toNat (x.counters[m.ctr.toNat] + 1) ∧ y.ovf = x.ovf) ∧
       (m.inc = true → x.counters[m.ctr.toNat] = 0xFFFF → y.counters = x.counters ∧ ∀ k, k < 16 → y.ovf.getLsbD k = (x.ovf.getLsbD k || k == m.ctr.toNat)) ∧
       (∀ k a, (s.task k).life = .waiting .event → vget y.counters a 0 ≠ 0 → (x.waiters.filter (·.2 == a)).head? = some (k, a) → (t.task k).life = .running)))) ∧
  (∀ (s : State) (m : Nat) (e : Msg) (b : BitVec 8), s.msgs.find? (·.id == m) = some e → e.kind = .lines b → s.msgReady e = true →
    ∃ t, exec (.softwareLinePulse m) s = .next t ∧ t.msgs = s.msgs.filter (·.id != m) ∧
      (∀ k, t.task k = { s.task k with life := (t.task k).life }) ∧
      ∀ (n : Nat) (h : n < 32), let y := (s.core e.core).xbar.terms[n]; let z := { y with latched := y.latched ||| BitVec.ofNat 32 (b.toNat * 2 ^ 24) }
        z.ready = false → (t.core e.core).xbar.terms[n] = z)

/-! ### The decision of a guarded tile (R227) -/

/-- The outcome of a tile both of whose tasks have ended (R227): none where it passes, else the reason it falls back: 3 where a buffer overflowed, 4 where the check did not end by `gres` or the surrogate by `end`, 2 where the residual or GTOL is a NaN, 1 where the residual, as
a real number, is above GTOL. -/
def Claims.outcome (y : GTile) : Option Nat :=
  if y.spilled then some 3
  else match y.sEnd, y.cEnd, y.residual with
    | some 1, some 1, some r => match (elemValue 2 r.toNat).cmp (elemValue 2 y.gtol.toNat) with
      | none => some 2
      | some .gt => some 1
      | some _ => none
    | _, _, _ => some 4

/-- An input of a core's crossbar is latched in every term that was not ready (R229). -/
def Claims.latches (s t : State) (core line : Nat) : Prop :=
  ∀ (n : Nat) (h : n < 32), let z := (s.core core).xbar.terms[n]
    z.ready = false → (t.core core).xbar.terms[n] = { z with latched := z.latched ||| (1 : BitVec 32) <<< line }

/-- The decision of a tile, at RETIRED_TO_FREE of one of its tasks (R225, R227). While a task of the pair has not ended, or an answer to an offer of it is outstanding, nothing happens. A tile that falls back commits nothing: both slots are Free and their buffers gone, FALL goes up by 1, input 20 pulses, and the
exact handler waits at a core of the quad, with the argument, the tile, N, its role, the record, the residual and the reason, linked to the record. One that passes stays decided: the surrogate's buffer is committed and then the check's; with both drained PASS goes up by 1 and COUNT down by 1, input 19 pulses, both slots are Free, and a guard whose COUNT is 0 is over (R223). -/
def Claims.decides : Prop :=
  ∀ (s : State) (n q e tile : Nat) (r : Role) (g : Guard) (y : GTile), let x := s.task n; let i := Instr.retiredToFree n; let pair := s.pairSlots q e tile
    let a := s.asid g.job; let va := g.record.toNat % 2 ^ 56
    n < 20000 → x.life = .retired → x.settledPorts = true → x.guarded = true → x.guard = some (q, e, tile, r) → (s.tasks.map (·.1)).Nodup →
    vget (s.quad q).guards e none = some g → g.tiles.find? (·.t == tile) = some y →
    (y.sEnd = none ∨ y.cEnd = none ∨ (∃ m ∈ pair, (s.task m).settledPorts = false) → exec i s = .next s) ∧
    (y.sEnd ≠ none → y.cEnd ≠ none → (∀ m ∈ pair, (s.task m).settledPorts = true ∧ (s.task m).joinAddr = none ∧ (s.task m).team = none) →
      (∀ w ∈ s.swaps, ∀ z, w.task.guard ≠ some (q, e, tile, z)) →
      (∀ why, y.decided = false → Claims.outcome y = some why → let c := if quadOf y.core = q then y.core else quadCore q 0
        ∃ t tr, exec i s = .next t ∧ (∀ m ∈ pair, t.task m = Task.empty) ∧ Claims.latches s t y.core 20 ∧
          (t.core c).mailbox = (s.core c).mailbox ++ [tr] ∧ tr.counter = some g.record ∧ tr.job = g.job ∧
          tr.dwords = [handlerWord g.exa, g.arg, BitVec.ofNat 64 tile, BitVec.ofNat 64 g.n, 2, g.record,
            match y.residual with | some v => v.setWidth 64 | none => 0x7FC00000, BitVec.ofNat 64 why] ∧
          (Claims.updatable s (.transom q) a (va + 16) → (∀ m ∈ pair, (s.task m).sb = []) → t.path = s.path ∧ t.homeWord a (va + 16) = s.homeWord a (va + 16) + 1)) ∧
      (∀ k l, y.decided = true ∨ Claims.outcome y = none → pair = [k, l] ∨ pair = [l, k] → (s.task k).guard = some (q, e, tile, .surrogate) →
        (s.task l).guard = some (q, e, tile, .check) → ∃ t, exec i s = .next t ∧
          ((s.task k).shadow ≠ [] → (t.task k).shadow ≠ [] → (t.task l).shadow = (s.task l).shadow ∧
            ∃ g' y', vget (t.quad q).guards e none = some g' ∧ g'.tiles.find? (·.t == tile) = some y' ∧ y' = { y with decided := true }) ∧
          ((s.task k).shadow = [] → (s.task l).shadow = [] → (s.allArrived k = false ∨ s.allArrived l = false) → (t.task k).life = .retired ∧ t.hist = s.hist) ∧
          ((s.task k).shadow = [] → (s.task l).shadow = [] → s.allArrived k = true → s.allArrived l = true → va % 32 = 0 →
            Claims.updatable s (.task (s.task k).tid (coreOf k)) a va → Claims.updatable s (.task (s.task k).tid (coreOf k)) a (va + 8) →
            t.task k = Task.empty ∧ t.task l = Task.empty ∧ Claims.latches s t y.core 19 ∧ t.homeWord a (va + 8) = s.homeWord a (va + 8) + 1 ∧
            t.homeWord a va = Claims.counted false (s.homeWord a va) ∧ (e < 4 → (s.homeWord a va).toNat % 2 ^ 63 = 1 → vget (t.quad q).guards e none = none))))

/-- The decision of a guarded tile. -/
def Obligations.GuardedTileDecision : Prop := Claims.decides

/-- Guards, the flag tree and the crossbar. -/
def Obligations.GuardsFlagsAndCrossbar : Prop := Claims.guardsAndCrossbar ∧ Claims.flagTreeAndCrossbar

/-! ### Messages, queues and thefts (R17, R133, R293, R294, R296, R298, R299) -/

/-- A refused message: it leaves the network, and a negative acknowledgement for its task goes to the core it came from. -/
def Claims.refused (s t : State) (e : Msg) : Prop :=
  ∃ r, t.msgs = s.msgs.filter (·.id != e.id) ++ [r] ∧ r.kind = .nack e.tid ∧ r.core = e.fromCore ∧ t.tasks = s.tasks

/-- A trigger that the hardware has accepted on a die: what the message brought, and a TASKID of the job on that die with a SERIAL that is not 0 (R17). -/
def Claims.enqueued (g : Trigger) (e : Msg) (src : Source) (die : Nat) : Prop :=
  g.dwords = e.dwords ∧ g.src = src ∧ g.job = e.job ∧ g.rel = e.rel ∧ g.tid.toNat % 4 = die % 4 ∧ g.tid.toNat / 2 ^ 48 = e.job % 2 ^ 16 ∧
  g.tid.toNat / 4 % 2 ^ 46 ≠ 0

/-- MAILBOX_MESSAGE (R298, R299): a message for a core that another job has is refused; else it joins the mailbox and pulses line 18; a record whose handler table entry
is unbound is parked there, and as the 65th parked one refused. NEGATIVE_ACKNOWLEDGEMENT: the sender's count goes up by 1, wherever its context is. GLOBAL_QUEUE_RECORD
(R296): the record goes to the end of its job's queue at its slice. -/
def Claims.mails : Prop :=
  ∀ (s : State) (m : Nat) (e : Msg), s.msgs.find? (·.id == m) = some e →
    (e.kind = .mailbox → let i := Instr.mailboxMessage m; let g := { Trigger.of e.dwords .message e.job with rel := e.rel }
      let joins := fun (p : Option Nat) => ∃ t g, exec i s = .next t ∧ t.msgs = s.msgs.filter (·.id != m) ∧
        (t.core e.core).mailbox = (s.core e.core).mailbox ++ [g] ∧ Claims.enqueued g e .message (dieOf e.core) ∧ g.parked = p ∧
        ∀ (n : Nat) (h : n < 32), ((t.core e.core).xbar.terms[n]).latched.getLsbD 18 = true
      (s.msgReady e = false → exec i s = .next s) ∧
      (s.msgReady e = true → (s.core e.core).job ≠ some e.job → ∃ t, exec i s = .next t ∧ Claims.refused s t e) ∧
      (s.msgReady e = true → (s.core e.core).job = some e.job →
        (∀ n, s.named e.core g = .unbound n → 64 ≤ ((s.core e.core).mailbox.filter (·.parked.isSome)).length →
          ∃ t, exec i s = .next t ∧ Claims.refused s t e) ∧
        (∀ n, s.named e.core g = .unbound n → ((s.core e.core).mailbox.filter (·.parked.isSome)).length < 64 → joins (some n)) ∧
        ((∀ n, s.named e.core g ≠ .unbound n) → joins none))) ∧
    (∀ tid, e.kind = .nack tid → ∃ t, exec (.negativeAcknowledgement m) s = .next t ∧ t.msgs = s.msgs.filter (·.id != m) ∧
      (∀ n, (s.task n).tid = tid → (s.task n).life ≠ .free → t.task n = { s.task n with nacks := (s.task n).nacks + 1 }) ∧
      (∀ n, (s.task n).tid ≠ tid → t.task n = s.task n)) ∧
    (∀ k, e.kind = .queue k → (s.msgReady e = false → exec (.globalQueueRecord m) s = .next s) ∧
      (s.msgReady e = true → ∃ t g, exec (.globalQueueRecord m) s = .next t ∧ t.msgs = s.msgs.filter (·.id != m) ∧ Claims.enqueued g e .queue (k / 96) ∧
        tget t.queues (queueKey k e.job) [] = tget s.queues (queueKey k e.job) [] ++ [g] ∧
        ∀ n, n ≠ queueKey k e.job → tget t.queues n [] = tget s.queues n []))

/-- MESSAGE_RING_ARRIVAL (R133): a message for an entry without a message ring is refused; one of more slots than CAP too, and NACKS goes up by 1. Its last packet decides: of an earlier one only the number left goes down. One that fits before the
ring's end and in its free slots is placed: its records lie in the slots from TAIL on, and TAIL moves on by their number with the message's release. One that
fits behind a pad of the slots up to the ring's end is placed after it. Any other is held while RINGWAIT is not 0, else refused. RING_WAIT_EXPIRY: one held for RINGWAIT cycles is refused. -/
def Claims.ringMessages : Prop :=
  ∀ (s : State) (m n : Nat) (e : Msg), let i := Instr.messageRingArrival m; let h : RingRef := ⟨e.core, n⟩; let k := e.dwords.length / 8
    s.msgs.find? (·.id == m) = some e → e.kind = .ring n → n < 32 →
    (e.landed = false → s.msgReady e = false → exec i s = .next s) ∧
    (e.landed = true ∨ s.msgReady e = true → 1 < e.left → exec i s = .next { s with msgs := s.msgs.map fun x => if x.id = m then { x with left := x.left - 1 } else x }) ∧
    (e.landed = true ∨ s.msgReady e = true → e.left ≤ 1 →
      ((s.ring h = none ∨ ∃ r, s.ring h = some r ∧ r.msg = false) → ∃ t, exec i s = .next t ∧ Claims.refused s t e) ∧
      (∀ r, s.ring h = some r → r.msg = true → let filled := (r.tail - r.head).toNat; let end_ := r.cap - r.tail.toNat % r.cap
        let gone := ∃ t, exec i s = .next t ∧ Claims.refused s t e ∧ t.ring h = some { r with nacks := r.nacks + 1, held := r.held.filter (·.1 != m) }
        let placed := fun (pad : Nat) (marks : List (BitVec 32 × Nat × Bool)) => ∃ t, exec i s = .next t ∧ t.msgs = s.msgs.filter (·.id != m) ∧
          t.ring h = some { r.carry e.rel with
            tail := r.tail + BitVec.ofNat 32 pad + BitVec.ofNat 32 k
            marks := r.marks ++ marks ++ [(r.tail + BitVec.ofNat 32 pad, k, false)]
            held := r.held.filter (·.1 != m) } ∧
          (r.slog = 6 → (s.core e.core).mem.wf = true → ∀ a j, a < k → j < 64 → t.homeByte (.bank e.core (r.base + ((r.tail + BitVec.ofNat 32 pad).toNat + a) % r.cap * 64 + j)) =
            ((bytesOfDwords e.dwords)[64 * a + j]?).getD 0)
        let holds := (k ≤ end_ → r.cap - filled < k) ∧ (end_ < k → r.cap - filled < end_ + k)
        (e.landed = true → m ∈ r.held.map (·.1) → exec i s = .next s) ∧
        (e.landed = true → m ∉ r.held.map (·.1) → ∃ t, exec i s = .next t ∧ Claims.refused s t e) ∧
        (e.landed = false → r.cap < k → gone) ∧
        (e.landed = false → k ≤ r.cap → k ≤ end_ → k ≤ r.cap - filled → placed 0 []) ∧
        (e.landed = false → k ≤ r.cap → end_ < k → end_ + k ≤ r.cap - filled → 0 < end_ → placed end_ [(r.tail, end_, true)]) ∧
        (e.landed = false → k ≤ r.cap → holds →
          ((s.core e.core).ringwait = 0 → gone) ∧
          ((s.core e.core).ringwait ≠ 0 → ∃ t, exec i s = .next t ∧ t.ring h = some { r with held := r.held ++ [(m, s.cycle)] } ∧
            t.msgs = s.msgs.map fun x => if x.id = m then { x with landed := true } else x)) ∧
        (∀ c, r.held.find? (·.1 == m) = some (m, c) →
          (r.held = [(m, c)] → c + (s.core e.core).ringwait.toNat ≤ s.cycle → ∃ t, exec (.ringWaitExpiry m) s = .next t ∧ Claims.refused s t e) ∧
          (s.cycle < c + (s.core e.core).ringwait.toNat → exec (.ringWaitExpiry m) s = .next s))))

/-- STEAL_ATTEMPT, STEAL_OPERATION and STEAL_REPLY (R293, R294, R300): an idle core asks the next victim of its walk, after a failed round the queue of another slice, with one attempt at a
time, and the attempts at cores at least 32 cycles apart. A theft reads HEAD and TAIL, then the record, then moves HEAD by a compare-and-swap, which fails where HEAD has moved; nothing else of the victim changes. A failure counts; a
success ends the search, and a record that goes first under R22 starts at once. -/
def Claims.thefts : Prop :=
  (∀ (s : State) (c : Nat), let k := s.core c; let vs := s.victims c; let i := Instr.stealAttempt c
    (s.idle c = false ∨ k.steal ≠ none → exec i s = .next s) ∧
    (k.stealFails < vs.length → s.stealTime c = false → exec i s = .next s) ∧ (∀ b, k.stealAt = some b → (s.stealTime c = true ↔ b + 32 ≤ s.cycle)) ∧
    (c < 640 → s.idle c = true → k.steal = none → k.stealFails < vs.length → s.stealTime c = true → ∃ t v, exec i s = .next t ∧ vs[k.victim % vs.length]? = some v ∧
      t.core c = { k with
        steal := some ⟨false, v, 0, 0, none, none, s.cycle⟩
        victim := (k.victim + 1) % vs.length
        stealAttempts := k.stealAttempts + 1
        stealAt := some s.cycle }) ∧
    (c < 640 → s.idle c = true → k.steal = none → vs.length ≤ k.stealFails → ∃ t, exec i s = .next t ∧ t.core c = { k with
      steal := some ⟨true, k.nextSlice % 384, 0, 0, none, none, s.cycle⟩
      nextSlice := (k.nextSlice + 1) % 384 })) ∧
  (∀ (s : State) (c : Nat) (a : Steal), let k := s.core c; let v := s.core a.victim; let i := Instr.stealOperation c
    k.steal = some a → k.job ≠ none → a.slice = false → a.victim ≠ c →
    let now := fun (b : Steal) => ∃ t, exec i s = .next t ∧ t.core c = { k with steal := some b }
    (a.stage = 0 → (v.dequeTail - v.dequeHead).toInt ≤ 0 → now { a with stage := 3, result := some 1 }) ∧
    (a.stage = 0 → 0 < (v.dequeTail - v.dequeHead).toInt → now { a with stage := 1, head := v.dequeHead }) ∧
    (a.stage = 1 → ∃ g, now { a with stage := 2, record := some g } ∧ g.dwords = dwordsOf 8 (v.mem.bytes (v.dequeAt + 64 + 64 * (a.head.toNat % v.dequeCap)) 64)) ∧
    (a.stage = 2 → v.dequeHead ≠ a.head → now { a with stage := 3, result := some 2 }) ∧
    (a.stage = 2 → v.dequeHead = a.head → v.mem.wf = true → ∃ t, exec i s = .next t ∧ t.core c = { k with steal := some { a with stage := 3, result := some 0 } } ∧
      (t.core a.victim).dequeHead = a.head + 1 ∧ ∀ o, (o < v.dequeAt ∨ v.dequeAt + 8 ≤ o) → t.homeByte (.bank a.victim o) = s.homeByte (.bank a.victim o))) ∧
  (∀ (s : State) (c slot base : Nat) (a : Steal), let k := s.core c; let i := Instr.stealReply c slot base
    k.steal = some a → (a.result = none → exec i s = .next s) ∧
    (∀ n, a.result = some n → n ≠ 0 → a.slice = false → ∃ t, exec i s = .next t ∧ (t.core c).steal = none ∧ (t.core c).stealFails = k.stealFails + 1 ∧
      (t.core c).stealFailed = k.stealFailed + 1 ∧ t.tasks = s.tasks) ∧
    (∀ g w u l, a.result = some 0 → a.record = some g → c < 640 → s.weigh c g = .go w → s.weighAll c (s.sources c) = (u, l) →
      u.pickTrigger c (l ++ [(w, .deque 0)]) = some (w, .deque 0) → u.placeFree (16 * c + slot % 16) base w.lease w.shadow = true →
      ∃ t, exec i s = .next t ∧ (t.core c).steal = none ∧ (t.core c).stealFails = 0 ∧ (t.task (16 * c + slot % 16)).life = .ready ∧
        (t.task (16 * c + slot % 16)).tid = g.tid))

/-- Messages, queues and thefts. -/
def Obligations.MessagesAndThefts : Prop := Claims.mails ∧ Claims.ringMessages ∧ Claims.thefts

/-! ### Teams, guard pairs, pre-emption, migration (R224, R226, R258, R289-R292, R303) -/

/-- What a task of a team or pair finds at its start: it is Ready, with its TASKID, its class, and its argument registers (R20, R224, R290). -/
def Claims.starts (t : State) (n : Nat) (tid : Word) (cls : Nat) (args : List Word) : Prop :=
  (t.task n).life = .ready ∧ (t.task n).tid = tid ∧ (t.task n).cls = BitVec.ofNat 2 cls ∧
  ∀ r : Gpr, 1 ≤ r.toNat → r.toNat ≤ 7 → (t.task n).getG r = (args[r.toNat - 1]?).getD 0

/-- TEAM_ADMISSION (R290, R292): a grid with teams left, on a quad of its job: where no quad of the job could ever hold a team, Tardar is told once; where this quad meets all its
needs at once, no other work goes first and nothing of a lower class number waits (R22, R303), the grid's next team starts: task i on core index i mod 4, with the argument, the team's number, i and the size; else nothing happens. That swapped work goes first is DEDUCED (log 67). -/
def Claims.teams : Prop :=
  ∀ (s : State) (grid quad : Nat) (places : List (Nat × Nat)) (g : Grid) (w : Weighed), let i := Instr.teamAdmission grid quad places
    s.grids.find? (fun g => g.id == grid && decide (g.next < g.teams)) = some g →
    ((s.job g.job).desc.quads.contains quad = false → exec i s = .next s) ∧
    ((s.job g.job).desc.quads.contains quad = true → s.gridWeight (quadCore quad 0) g = .go w →
      let possible := (s.job g.job).desc.quads.any fun q => s.teamPossible q w.lease w.shadow g.size g.scr
      (possible = false → .gridUnplaceable grid ∉ s.notices → exec i s = .next { s with notices := s.notices ++ [.gridUnplaceable grid] }) ∧
      (possible = true → (s.lowestRun quad g.scr = none ∨ s.placesOk quad w.lease w.shadow g.size places = false ∨
        s.teamFits quad w.lease w.shadow g.size = false ∨ s.teamAhead g.job w.cls g.id = true ∨ s.gridFirst g w.cls = false ∨
        ∃ k, k < 4 ∧ (s.goesFirst (quadCore quad k) w.cls = true ∨ s.triggerBelow (quadCore quad k) w.cls = true ∨ s.teamBelow (quadCore quad k) w.cls = true ∨
          s.pairBelow (quadCore quad k) w.cls = true)) → exec i s = .next s) ∧
      (possible = true → (s.lowestRun quad g.scr).isSome = true → s.placesOk quad w.lease w.shadow g.size places = true →
        s.teamFits quad w.lease w.shadow g.size = true → s.teamAhead g.job w.cls g.id = false → s.gridFirst g w.cls = true →
        (∀ k, k < 4 → s.goesFirst (quadCore quad k) w.cls = false ∧ s.triggerBelow (quadCore quad k) w.cls = false ∧ s.teamBelow (quadCore quad k) w.cls = false ∧
          s.pairBelow (quadCore quad k) w.cls = false) → ∃ t, exec i s = .next t ∧
          t.grids = s.grids.map (fun h => if h.id = g.id then { h with next := h.next + 1 } else h) ∧
          ∀ n p, places[n]? = some p → coreOf p.1 = quadCore quad (n % 4) ∧
            Claims.starts t p.1 (BitVec.ofNat 64 (g.job % 65536 * 2 ^ 48 + serialAt g.serial (g.next * g.size + n) * 4 + g.die % 4)) w.cls
              [g.arg, BitVec.ofNat 64 g.next, BitVec.ofNat 64 n, BitVec.ofNat 64 g.size, 0, 0, 0] ∧
            (t.task p.1).team = some (s.nextId, n, g.size)))

/-- GUARD_PAIR_DISPATCH (R224): the next tile's surrogate and check start together in two slots of a core of the quad where both headers, both places and all that goes first allow it, and
the entry holds the tile; both tasks get the argument, the tile, N, their role and the record. -/
def Claims.pairs : Prop :=
  ∀ (s u : State) (q e c a1 a2 b1 b2 tile : Nat) (a b : Trigger) (g : Guard) (w v : Weighed), let i := Instr.guardPairDispatch q e c [a1, a2] [b1, b2]
    let ok := (s.core c).job = some a.job ∧ s.pairCore q c a w v = true ∧ s.goesFirst c w.cls = false ∧ s.triggerBelow c w.cls = false ∧ s.teamBelow c w.cls = false ∧ s.pairBelow c w.cls = false ∧
      a1 < 16 ∧ a2 < 16 ∧ s.pairPlaces c w v (16 * c + a1) (16 * c + a2) b1 b2 = true
    (vget (s.quad q).guards e none = none → exec i s = .next s) ∧
    (vget (s.quad q).guards e none = some g → g.redo = [] → g.n ≤ g.next → exec i s = .next s) ∧
    (vget (s.quad q).guards e none = some g → s.nextPair q e g = some (tile, a, b, u) → s.weigh c a = .go w → s.weigh c b = .go v →
      (¬ok → exec i s = .next s) ∧
      (ok → e < 4 → ∃ t, exec i s = .next t ∧ (t.task (16 * c + a1)).life = .ready ∧ (t.task (16 * c + a1)).tid = a.tid ∧
        (t.task (16 * c + a2)).life = .ready ∧ (t.task (16 * c + a2)).tid = b.tid ∧
        (∃ g', vget (t.quad q).guards e none = some g' ∧ g'.tiles = g.tiles ++ [⟨tile, coreOf (16 * c + a1), none, none, false, none, 0, false⟩]) ∧
        (g.redo = [] → tile = g.next ∧
          Claims.starts t (16 * c + a1) a.tid w.cls [g.arg, BitVec.ofNat 64 tile, BitVec.ofNat 64 g.n, 0, g.record, 0, 0] ∧
          Claims.starts t (16 * c + a2) b.tid v.cls [g.arg, BitVec.ofNat 64 tile, BitVec.ofNat 64 g.n, 1, g.record, 0, 0])))

/-- TIME_SLICE_EXPIRY (R292) and PREEMPTION_REQUEST (R303) ask for halts and change nothing else: the first of every task of a resident team whose 2 ms are over while another team of
its class waits; the second of its victims, each of a larger class number. HALT (R25, R303): at its boundary a victim stops, withdraws its outstanding offers, leaves `wait`, and gives up a command of
the routine unit; one whose `hhold` or `hrel` has no reply yet, whose commit is under way or whose outputs are landing goes on. -/
def Claims.halts : Prop :=
  (∀ (s : State) (quad team : Nat) (m : Team) (g : Grid), let i := Instr.timeSliceExpiry quad team
    let due := m.quad = quad ∧ m.swapped = false ∧ m.resident + 2000000 ≤ (s.clock (quadCore quad 0)).toNat ∧ s.teamWaits m g.job = true
    tfind s.teams team = some m → s.grids.find? (·.id == m.grid) = some g →
    (¬due → exec i s = .next s) ∧
    (due → ∃ t, exec i s = .next t ∧ t.cores = s.cores ∧ t.quads = s.quads ∧
      (∀ n ∈ s.teamSlots team, (s.task n).halt = none → t.task n = { s.task n with halt := some ⟨true, m.cls, false⟩ }) ∧
      (∀ n, n ∉ s.teamSlots team → t.task n = s.task n))) ∧
  (∀ (s : State) (quad cls : Nat) (victims : List Nat), let i := Instr.preemptionRequest quad cls victims
    let due := (s.needs quad cls).any fun n => n.served cls s.withoutHalting victims
    (victims = [] ∨ due = false → exec i s = .next s) ∧
    (victims ≠ [] → due = true → ∃ t, exec i s = .next t ∧ t.cores = s.cores ∧ t.quads = s.quads ∧
      ∀ v ∈ victims, (∃ x, (v, x) ∈ s.tasks ∧ cls < x.cls.toNat) ∧
        ((s.task v).team = none → (s.task v).halt = none → t.task v = { s.task v with halt := some ⟨false, cls, false⟩ }))) ∧
  (∀ (s : State) (n : Nat), let x := s.task n
    (x.halt = none → exec (.halt n) s = .next s) ∧
    (∀ h, x.halt = some h →
      (x.reply ≠ none ∨ h.halted = true ∨ x.committing = true ∨ s.landing n = true ∨ x.life = .free ∨ x.life = .ready ∨ x.life = .retired → exec (.halt n) s = .next s) ∧
      ((match x.life with | .running | .waiting _ | .held _ | .parked .. => true | _ => false) = true → h.halted = false → x.reply = none → x.committing = false →
        s.landing n = false → x.moving = none → ∃ t, exec (.halt n) s = .next t ∧ t.task n = { x with engaged := false, theft := none, halt := some { h with halted := true }, p := (t.task n).p } ∧
          (∀ k ∈ (t.core (coreOf n)).xbar.waiters, k.1 ≠ n) ∧
          (∀ (k : Nat) (_ : k < 16) (r : PortRef), x.p[k] = some r → ∃ r', (t.task n).p[k] = some r' ∧ r'.offered = r.offered ∧
            (r.offered.isSome = true → r'.asked = true ∧ (r.asked = false → (coreOf n, x.phase, PMsg.withdraw x.tid r.name) ∈ (t.quad (nameQuad r.name)).toT))))))

/-- SWAP_SAVE (R185, R220, R284, R292): a halted task whose offers are all answered leaves its slot for memory with all its registers, and its store buffer goes on draining; with matrix
engines of its own it waits until their queues have drained, and they go with it. A task of a team waits for all of it, and the whole team goes with its banks, which others may use then (DEDUCED, log 66). -/
def Claims.saves : Prop :=
  ∀ (s : State) (n : Nat), let x := s.task n; let c := coreOf n
    let out := { x with sb := [], life := .swapped x.life.kept, halt := none }
    (x.halt = none ∨ x.saveable = false → exec (.swapSave n) s = .next s) ∧
    (∀ h, x.halt = some h → x.saveable = true → x.stream = none →
      (x.team = none → (∀ e ∈ s.cores, e.2.mx.owner ≠ some x.owner) → ∃ t l, exec (.swapSave n) s = .next t ∧ t.task n = Task.empty ∧ t.path = s.path ++ l ∧
        l.map (fun w => { w with sent := 0 }) = x.sb.map (fun w => { w with sent := 0 }) ∧ t.swaps = s.swaps ++ [⟨out, c, none, []⟩] ∧ t.cores = s.cores) ∧
      (x.team = none → (∃ e ∈ s.cores, e.2.mx.owner = some x.owner ∧ e.2.mx.queue ≠ []) → exec (.swapSave n) s = .next s) ∧
      (x.team = none → (∀ e ∈ s.cores, e.2.mx.owner = some x.owner → e.2.mx.queue = []) → ∃ t es, exec (.swapSave n) s = .next t ∧ t.task n = Task.empty ∧
        t.swaps = s.swaps ++ [⟨out, c, none, es⟩] ∧ ∀ e ∈ s.cores, e.2.mx.owner = some x.owner → (e.1, e.2.mx) ∈ es ∧ t.mx e.1 = MatrixEngine.reset) ∧
      (∀ key i z m, x.team = some (key, i, z) → tfind s.teams key = some m →
        let all := (s.teamSlots key).all (fun u => (s.task u).saveable) = true ∧ s.banksQuiet m.quad m.bank m.scr = true ∧ (∀ e ∈ s.cores, e.2.mx.owner = some (true, key) → e.2.mx.queue = [])
        (¬all → exec (.swapSave n) s = .next s) ∧
        (all → ∃ t m', exec (.swapSave n) s = .next t ∧ (∀ k ∈ s.teamSlots key, t.task k = Task.empty) ∧ tfind t.teams key = some m' ∧
          m'.swapped = true ∧ m'.bySlice = h.slice ∧ m'.banks = (quadCores m.quad).map fun k => (k, (s.core k).mem.run m.bank m.scr))))

/-- RESTORE (R23, R24, R292, R303): a swapped task of no team returns to a free slot of a core of its quad where its needs are met and nothing goes before it, Ready, with all its registers and its
engines; the entry is gone. A task of a team returns to the core it was halted on; the first one brings the team back, in its turn. The stamp of its dispatch stays (DEDUCED, log 69). -/
def Claims.restores : Prop :=
  ∀ (s : State) (n k base : Nat) (w : Swap), let i := Instr.restore n k base; let c := coreOf k
    let back := { w.task with leaseBase := if leaseSize w.task.leaseCls = 0 then 0 else base, life := .ready }
    let ok := w.task.life ≠ .retired ∧ k < 10240 ∧ s.placeFree k base w.task.leaseCls w.task.shadowKiB = true ∧ (s.core c).job = some w.task.job
    let first := fun (cores : List Nat) => s.swapAhead n w = false ∧ s.nothingBelow cores w.task.cls.toNat = true
    (s.swaps[n]? = none → exec i s = .next s) ∧
    (s.swaps[n]? = some w →
      (¬ok → exec i s = .next s) ∧
      (w.team = none → ok → ¬first [c] → exec i s = .next s) ∧
      (w.team = none → ok → first [c] → quadOf c = quadOf w.core → s.taskReturns w c = true → (∀ (h : Nat) (_ : h < 16), w.task.p[h] = none) →
        ∃ t, exec i s = .next t ∧ t.task k = back ∧ t.swaps = s.swaps.eraseIdx n ∧
          ∀ a e l, w.engines = a ++ e :: l → (∀ y ∈ l, y.1 ≠ e.1) → t.mx e.1 = e.2) ∧
      (∀ key m, w.team = some key → tfind s.teams key = some m → (∀ (h : Nat) (_ : h < 16), w.task.p[h] = none) →
        (c ≠ w.core → exec i s = .next s) ∧
        (ok → c = w.core → m.swapped = true → (¬first (quadCores m.quad) ∨ s.teamTurn m = false ∨ s.teamReturns key m = false) → exec i s = .next s) ∧
        (ok → c = w.core → m.swapped = true → first (quadCores m.quad) → s.teamTurn m = true → s.teamReturns key m = true → ∃ t m', exec i s = .next t ∧ (t.task k).life = .ready ∧
          t.swaps = s.swaps.eraseIdx n ∧ tfind t.teams key = some m' ∧ m'.swapped = false ∧ m'.alive = m.alive) ∧
        (ok → c = w.core → m.swapped = false → ∃ t, exec i s = .next t ∧ (t.task k).life = .ready ∧ (t.task k).tid = w.task.tid ∧
          t.swaps = s.swaps.eraseIdx n)))

/-- Migration (R74, R75, R258). MIGRATION: a task that would issue an instruction of extension D now, on a core without it, stops before it and asks core index 0 of its quad. MIGRATION_ADMIT: that
core holds a slot for it once its withdrawals are answered, its needs are met, and no other work goes first. MIGRATION_CONTEXT_LOADED: the context stands in the new slot with all its registers, its old
slot is Free, and its ports are bound again from there; the matrix engine's state stays. -/
def Claims.migrates : Prop :=
  ∀ (s : State) (n : Nat), let x := s.task n; let c := coreOf n
    (s.wantsMove n = false → exec (.migration n) s = .next s) ∧
    (s.wantsMove n = true → ∃ t, exec (.migration n) s = .next t ∧ t.task n = { x with moving := some ⟨quadCore (quadOf c) 0, none, s.nextId⟩, p := (t.task n).p }) ∧
    (x.issues = false ∨ s.instrNext n = false → exec (.migration n) s = .next s) ∧
    (∀ a d l i, x.issues = true → s.instrNext n = true → x.frame = none → s.fetch n x.pc.toNat = .ok (.instr i l d) → quadIndex c = a → s.wantsMove n = (d && a != 0)) ∧
    (∀ slot base, x.moving = none → exec (.migrationAdmit n slot base) s = .next s) ∧
    (∀ slot base m, x.moving = some m → m.slot = none → slot < 16 → x.life ≠ .free → let d := 16 * m.dest + slot
      (x.settledPorts = false ∨ s.placeFree d base x.leaseCls x.shadowKiB = false ∨ s.moveWaits n m x.cls.toNat = true →
        exec (.migrationAdmit n slot base) s = .next s) ∧
      (x.settledPorts = true → s.placeFree d base x.leaseCls x.shadowKiB = true → s.moveWaits n m x.cls.toNat = false →
        ∃ t, exec (.migrationAdmit n slot base) s = .next t ∧ t.task n = { x with moving := some { m with slot := some d } } ∧
          (t.task d).life = .ready ∧ (t.task d).tid = 0 ∧ (t.task d).leaseCls = x.leaseCls ∧
          (t.task d).leaseBase = if leaseSize x.leaseCls = 0 then 0 else base)) ∧
    (∀ m d, x.moving = some m → m.slot = some d → d ≠ n → x.stream = none → ∃ t, exec (.migrationContextLoaded n) s = .next t ∧ t.task n = Task.empty ∧
      (∀ (h : Nat) (_ : h < 16) (r : PortRef), x.p[h] = some r → r.dlv = none →
        (coreOf d, x.phase, PMsg.rebind x.tid r.name) ∈ (t.quad (nameQuad r.name)).toT) ∧
      ((∀ (h : Nat) (_ : h < 16), x.p[h] = none) → t.task d = { x with leaseBase := (s.task d).leaseBase, moving := none } ∧ t.cores = s.cores)) ∧
    (x.moving = none → exec (.migrationContextLoaded n) s = .next s)

/-- Teams, guard pairs, halts, saves, restores and migration. -/
def Obligations.TeamsAndPreemption : Prop :=
  Claims.teams ∧ Claims.pairs ∧ Claims.halts ∧ Claims.saves ∧ Claims.restores ∧ Claims.migrates

/-! ### L2, translation, notifications, moves of pages (R265, R266, R269, R270, R323-R330, R344, R347) -/

/-- SECTOR_FILL and EVICTION (R265, R266). A filled sector has every word's MASK bit set, and no byte reads differently where its set has a way for the line; a full set first loses one of its lines. An evicted line leaves its slice with every replica and redirect of it (R270); a
clean one writes nothing; the words of a dirty sector that hold data stand in HBM then, where its page is present. -/
def Claims.lines : Prop :=
  ∀ (s : State) (asid line sector : Nat), let va := 256 * line; let l := s.line asid va; let key := lineKey asid va; line < 2 ^ 48 →
    (4 ≤ sector → exec (.sectorFill asid line sector) s = .next s) ∧
    (sector < 4 → ∃ t, exec (.sectorFill asid line sector) s = .next t ∧ (∀ i, i < 16 → (t.line asid va).mask.getLsbD (16 * sector + i) = true) ∧ t.tasks = s.tasks ∧
      (tfind s.l2 key ≠ none ∨ (s.setMates asid va).length < 16 →
        (∀ a v, v < 2 ^ 56 → t.homeByte (.glob a v) = s.homeByte (.glob a v)) ∧ t.cores = s.cores ∧ ∀ k, k ≠ key → tfind t.l2 k = tfind s.l2 k) ∧
      (tfind s.l2 key = none → 16 ≤ (s.setMates asid va).length → ∃ k ∈ s.setMates asid va, tfind t.l2 (lineKey (keyAsid k) (keyVa k)) = none)) ∧
    (tfind s.l2 key = none → exec (.eviction asid line) s = .next s) ∧
    (tfind s.l2 key ≠ none → ∃ t, exec (.eviction asid line) s = .next t ∧ tfind t.l2 key = none ∧ (∀ k, k ≠ key → tfind t.l2 k = tfind s.l2 k) ∧
      (∀ d x, (d, x) ∈ t.dies → ∀ r ∈ x.replicas, r.1 ≠ key) ∧ (∀ c x, (c, x) ∈ t.cores → key ∉ x.redirects) ∧
      (l.dirty = 0 → t.hbm = s.hbm) ∧
      (∀ k i, k < 4 → i < 64 → l.dirty = (1 : BitVec 4) <<< k → l.has (64 * k + i) = true → (s.translate asid (va + 64 * k)).kind = 2 → s.hbm.wf = true →
        t.hbm.byte (physical (s.translate asid (va + 64 * k)).pte (va + 64 * k) + i) = l.byte (64 * k + i)))

/-- The number of the frame whose access-counter record counts a page (R328), from its leaf's bits [39:12]. -/
def Claims.frame (pte : Word) : Nat := pte.toNat / 2 ^ 12 % 2 ^ 28 * 4096 / 65536

/-- The place of a frame's access-counter record in its stack (R318, R328; that the records lie in the order of the frames is DEDUCED, log 96). -/
def Claims.recordAt (f : Nat) : Nat := f / 2 ^ 20 * 2 ^ 36 + 0x200000 + 8 * (f % 2 ^ 20)

/-- SLICE_TRANSLATION (R322, R324, R328-R330): a page that is not there is reported, with a malformed entry of its walk, and is not kept; a present leaf is in the stack port's TLB then. For another package, with bit 60 of the leaf, the record of its
frame, in the reserved area of its stack, counts one more, up to 65,535, with that package in REQ; on a page that is not pinned, MIGTHR reached and PEND 0, one HOT notification is queued, its record in the queue's memory at MQTAIL, and PEND is 1, or, without room, MQOVF counts and PEND is 2;
where the queue's own page is away nothing is counted yet (DESIGN CHOICE, log 108). Where the queue lies is log 110.
ATTRIBUTE_QUERY (R323): the unit's attribute cache holds the page's kind and permissions; a unit that has them already changes nothing; which of 256 entries goes is the model's choice (log 12), and an absent page's are kept too (DEDUCED, log 81). -/
def Claims.translations : Prop :=
  ∀ (s : State) (asid va pkg unit : Nat), let w := s.translate asid va; let i := Instr.sliceTranslation asid va pkg; let f := Claims.frame w.pte
    let record_ := fun (u : State) => leWord (u.hbm.bytes (Claims.recordAt f) 8)
    let r := record_ s; let n := min 65535 (r.toNat / 2 ^ 48 + 1); let pend := r.toNat / 2 ^ 36 % 4
    let record := fun (p : Nat) => BitVec.ofNat 64 (n * 2 ^ 48 + pkg % 2 ^ 10 * 2 ^ 38 + p * 2 ^ 36)
    let u := s.sliceAsk asid va; let used := s.mqTail - s.mqHead; let at_ := mqPlace s.mqTail
    let leave := (u.askLeave (.curator (homeStack va / 3)) true at_ 32).1
    let q : Attr := ⟨spaceOf asid va, pageClass va, va % 2 ^ 56 / 2 ^ pageShift va, w.kind, w.pte.getLsbD 1, w.pte.getLsbD 2, w.pte.getLsbD 3⟩
    (w.kind ≠ 2 → w.bad = none → exec i s = .next { s with notices := s.notices ++ [.staleTranslation (spaceOf asid va) va] }) ∧
    (∀ pa, w.kind ≠ 2 → w.bad = some pa → exec i s = .next { s with
      notices := s.notices ++ [.malformedEntry pa] ++ [.staleTranslation (spaceOf asid va) va] }) ∧
    (w.kind = 2 → ∃ t, exec i s = .next t ∧ (t.translate asid va).kind = 2 ∧ (t.translate asid va).pte = w.pte ∧ t.tasks = s.tasks ∧
      (pkg = s.pkg ∨ w.pte.getLsbD 60 = false → t.hbm = s.hbm ∧ t.mqTail = s.mqTail) ∧
      (pkg ≠ s.pkg → w.pte.getLsbD 60 = true → s.hbm.wf = true →
        let only := ∀ a, a < Claims.recordAt f ∨ Claims.recordAt f + 8 ≤ a → t.hbm.byte a = s.hbm.byte a
        (w.pte.getLsbD 61 = true → record_ t = record 0 ∧ t.mqTail = s.mqTail ∧ only) ∧
        (w.pte.getLsbD 61 = false → (n < s.conf.migthr ∨ pend ≠ 0) → record_ t = record pend ∧ t.mqTail = s.mqTail ∧ only) ∧
        (w.pte.getLsbD 61 = false → s.conf.migthr ≤ n → pend = 0 → used < 4095 → leave = .now → record_ t = record 1 ∧ t.mqTail = s.mqTail + 1 ∧
          (∀ a b, at_ = .glob a b → s.peerOf a b = none →
            leWord (t.homeBytes at_ 8) = BitVec.ofNat 64 (pageBase va % 2 ^ 56) ∧
            leWord (t.homeBytes (at_.plus 8) 8) = BitVec.ofNat 64 (spaceOf asid va % 2 ^ 16 + pkg % 2 ^ 10 * 2 ^ 16 + n * 2 ^ 32 + homeStack va * 2 ^ 48) ∧
            leWord (t.homeBytes (at_.plus 16) 8) = (s.die (homeStack va / 3)).dieclk ∧ leWord (t.homeBytes (at_.plus 24) 8) = 0)) ∧
        (w.pte.getLsbD 61 = false → s.conf.migthr ≤ n → pend = 0 → used < 4095 → leave = .later → record_ t = r ∧ t.mqTail = s.mqTail) ∧
        (w.pte.getLsbD 61 = false → s.conf.migthr ≤ n → pend = 0 → 4095 ≤ used → record_ t = record 2 ∧ t.mqTail = s.mqTail ∧ only ∧
          t.mqOvf = if s.mqOvf = BitVec.allOnes 32 then s.mqOvf else s.mqOvf + 1))) ∧
    (w.bad = none → ((tget s.attrs unit []).any q.same = true → exec (.attributeQuery unit asid va) s = .next s) ∧
      ((tget s.attrs unit []).any q.same = false → exec (.attributeQuery unit asid va) s = .next { s with
        attrs := tput s.attrs unit ((q :: tget s.attrs unit []).take 256) }))

/-- PEND_SCAN (R329): with more than 2,048 entries in use nothing happens; else the stack's owed notifications are queued in ascending frame order: the lowest one takes the entry at MQTAIL, its PEND is 1 and it is owed no more,
and the rest follow it. One whose PEND is no longer 2 is owed no more and takes no entry. -/
def Claims.owedScan : Prop :=
  ∀ (s : State) (k : Nat), let record_ := fun (u : State) (f : Nat) => leWord (u.hbm.bytes (Claims.recordAt f) 8)
    let mine := (s.owed.filter fun e => homeStack e.2.2 == k).mergeSort fun a b => decide (a.1 ≤ b.1)
    (2048 < s.mqTail - s.mqHead ∨ mine = [] → exec (.pendScan k) s = .next s) ∧
    (∀ e rest, s.mqTail - s.mqHead ≤ 2048 → mine = e :: rest → ∃ u, exec (.pendScan k) s = .next (rest.foldl State.payOwed u) ∧
      let r := (record_ s e.1).toNat; let at_ := mqPlace s.mqTail; let leave := (s.askLeave (.curator (homeStack e.2.2 / 3)) true at_ 32).1
      (r / 2 ^ 36 % 4 ≠ 2 → u = { s with owed := s.owed.filter (·.1 != e.1) }) ∧
      (r / 2 ^ 36 % 4 = 2 → leave = .later → u.owed = s.owed ∧ u.mqTail = s.mqTail) ∧
      (r / 2 ^ 36 % 4 = 2 → leave = .now → u.owed = s.owed.filter (·.1 != e.1) ∧ u.mqTail = s.mqTail + 1 ∧
        (s.hbm.wf = true → record_ u e.1 = BitVec.ofNat 64 (r / 2 ^ 48 * 2 ^ 48 + r / 2 ^ 38 % 2 ^ 10 * 2 ^ 38 + 2 ^ 36)) ∧
        (∀ a b, at_ = .glob a b → s.peerOf a b = none →
          leWord (u.homeBytes at_ 8) = BitVec.ofNat 64 (pageBase e.2.2 % 2 ^ 56) ∧
          leWord (u.homeBytes (at_.plus 8) 8) = BitVec.ofNat 64 (spaceOf e.2.1 e.2.2 % 2 ^ 16 + r / 2 ^ 38 % 2 ^ 10 * 2 ^ 16 + r / 2 ^ 48 * 2 ^ 32 +
            homeStack e.2.2 * 2 ^ 48) ∧
          leWord (u.homeBytes (at_.plus 16) 8) = (s.die (homeStack e.2.2 / 3)).dieclk)))

/-- REPLICATION (R269): a line present in L2, not replicated and not being withdrawn, with at least 64 loads from at least two quadrants and without a write or a `cinv` within 4,096 cycles, gets one helper slice in each other
quadrant of its home die, and the interface of every core that read it gets a redirect; with 256 lines replicated the die first evicts one (the oldest, DESIGN CHOICE, log 27); else nothing happens. WITHDRAW_ACK (R270): an awaited unit is awaited no more; after the last one the line is no longer being withdrawn and no replica of it is left; any other acknowledgement changes nothing (said where no request of the host waits in a window, which would go on). -/
def Claims.replicas : Prop :=
  ∀ (s : State) (asid line unit : Nat), let va := line * 256; let key := lineKey asid va; let home := s.homeSlice asid va; let d := home / 96; let x := s.die d
    let loads := ((tget s.hot key []).filter fun e => decide (s.cycle < e.2 + 4096)).map (·.1)
    let may := tfind s.l2 key ≠ none ∧ s.replicated (.glob (spaceOf asid va) va) = false ∧ s.lineWithdrawn key = false ∧ 64 ≤ loads.length ∧
      (∃ a ∈ loads, ∃ b ∈ loads, dieOf a ≠ dieOf b ∨ quadrantOf a ≠ quadrantOf b) ∧ (∀ n, tfind s.invalidated key = some n → n + 4096 ≤ s.cycle) ∧
      ∀ w ∈ s.hist, w.loc.line = .glob (spaceOf asid va) line → w.arrivedAt + 4096 ≤ s.cycle
    (¬may → exec (.replication asid line) s = .next s) ∧
    (may → ∃ t, exec (.replication asid line) s = .next t ∧ (t.die d).replicas = (if x.replicas.length < 256 then x.replicas
        else x.replicas.filter (·.1 != (x.replicas.headD (0, [])).1)) ++ [(key, [0, 1, 2, 3].filter (· != home % 96 / 24))] ∧
      (∀ c ∈ loads, key ∈ (t.core c).redirects) ∧
      t.tasks = s.tasks ∧ t.l2 = s.l2 ∧ ∀ l, t.homeByte l = s.homeByte l) ∧
    ((∀ w, w < 4 → tget s.windows w [] = []) →
    (x.withdrawing.find? (·.1 == key) = none → exec (.withdrawAck asid line unit) s = .next s) ∧
    (∀ us, x.withdrawing.find? (·.1 == key) = some (key, us) →
      (unit ∉ us → exec (.withdrawAck asid line unit) s = .next s) ∧
      (unit ∈ us → (∃ u ∈ us, u ≠ unit) → ∃ t, exec (.withdrawAck asid line unit) s = .next t ∧
        (t.die d).withdrawing.find? (·.1 == key) = some (key, us.filter (· != unit))) ∧
      (unit ∈ us → (∀ u ∈ us, u = unit) → ∃ t, exec (.withdrawAck asid line unit) s = .next t ∧
        (t.die d).withdrawing = x.withdrawing.filter (·.1 != key) ∧ (∀ e y, (e, y) ∈ t.dies → ∀ r ∈ y.replicas, r.1 ≠ key))))

/-- MOVE_REQUEST (R344, R347) for a present page that one package holds: one made before the page's last move, one for a pinned page, and one to its own package move nothing. The fourth move within 1 ms pins the page instead: PINNED in its
leaf, PEND 0, and one notification of TYPE 1 with REQ and COUNT of its counter record; it waits while that entry of the queue is in use or its page is away. Any other goes: the package asked for holds the page, with its bytes, no TLB and no attribute cache holds it, and the
stamp of the move is kept with the two before it, in the time base of the page's new home by the skew entries of the die. -/
def Claims.pageMoves : Prop :=
  ∀ (s : State) (asid va dest src : Nat) (made : Word), let w := s.walk asid va; let l := tget s.moves (pageKey asid va) []; let i := Instr.moveRequest asid va dest made
    let die := s.die (homeStack va / 3); let entry := fun p => tget die.skew (4 * p + homeStack va / 3) 0
    let off := fun (p : Nat) => if p = s.pkg ∨ (entry p).toNat % 2 = 0 then (0 : Word) else BitVec.ofInt 64 ((entry p).extractLsb' 32 32).toInt
    let at_ := mqPlace s.mqTail; let leave := (s.askLeave (.curator (homeStack va / 3)) true at_ 32).1
    let stale := ∃ t, l.getLast? = some t ∧ made.toNat < t.toNat
    (w.kind ≠ 2 → exec i s = .next s) ∧
    (w.kind = 2 → s.homeOf asid va = some src → let now := die.dieclk + off src
      (stale ∨ w.pte.getLsbD 61 = true ∨ src = dest → exec i s = .next s) ∧
      (¬stale → w.pte.getLsbD 61 = false → src ≠ dest →
        (l.length = 3 → (now - l.headD 0).toNat < 1000000 → let r := Claims.recordAt (Claims.frame w.pte); let p := s.leafAt asid va
          let c := (leWord (s.hbm.bytes r 8)).toNat
          (4096 ≤ s.mqTail - s.mqHead → exec i s = .next s) ∧
          (s.mqTail - s.mqHead < 4096 → leave = .later → ∃ t, exec i s = .next t ∧ t.moves = s.moves ∧ t.peers = s.peers ∧ t.mqTail = s.mqTail ∧
            t.hbm = s.hbm) ∧
          (s.mqTail - s.mqHead < 4096 → leave = .now → ∃ t, exec i s = .next t ∧ t.moves = s.moves ∧ t.peers = s.peers ∧ t.mqTail = s.mqTail + 1 ∧
            (s.hbm.wf = true → (leWord (t.hbm.bytes r 8)).toNat / 2 ^ 36 % 4 = 0 ∧
              (p + 8 ≤ r ∨ r + 8 ≤ p → leWord (t.hbm.bytes p 8) = w.pte ||| BitVec.ofNat 64 (2 ^ 61))) ∧
            (∀ a b, at_ = .glob a b → s.peerOf a b = none → s.hbm.wf = true →
              leWord (t.homeBytes at_ 8) = BitVec.ofNat 64 (pageBase va % 2 ^ 56) ∧
              leWord (t.homeBytes (at_.plus 8) 8) = BitVec.ofNat 64 (spaceOf asid va % 2 ^ 16 + c / 2 ^ 38 % 2 ^ 10 * 2 ^ 16 + c / 2 ^ 48 * 2 ^ 32 +
                homeStack va * 2 ^ 48 + 2 ^ 52)))) ∧
        (¬(l.length = 3 ∧ (now - l.headD 0).toNat < 1000000) → ∃ t, exec i s = .next t ∧ t.homeOf asid va = some dest ∧
          tget t.moves (pageKey asid va) [] = ((l ++ [now]).drop (l.length + 1 - 3)).map (fun m => m + off dest - off src) ∧
          (∀ k e, (k, e) ∈ t.tlbs → ∀ y ∈ e, ¬(y.asid = spaceOf asid va ∧ y.cls = pageClass va ∧ y.vpn = va % 2 ^ 56 / 2 ^ pageShift va)) ∧
          (src = s.pkg → s.linesIn asid (pageBase va % 2 ^ 56) (2 ^ pageShift va) = [] → ∀ o, o < 2 ^ pageShift va →
            (tget t.peerMem dest Memory.empty).byte (peerKey asid (pageBase va % 2 ^ 56) + o) = s.hbm.byte (frameOf w.pte + o)))))

/-- L2 and translation: fills, evictions, translations, owed notifications, replicas and moves. -/
def Obligations.LinesAndPages : Prop :=
  Claims.lines ∧ Claims.translations ∧ Claims.owedScan ∧ Claims.replicas ∧ Claims.pageMoves

/-! ### The host port, the start sequence, errors and cooling (R272, R332-R341) -/

/-- HOST_WINDOW_WRITE, HOST_WINDOW_READ and WBASE (R272, R335). Before the start is done a write is dropped and a read gets Completer Abort. There are four windows of 64 MiB; the PF and 8 VFs use them, with writes of at most
256 bytes and reads of at most 4 KiB, and nothing else is taken. A write to present pages that the window may write, within one
sector, stands in memory at WBASE plus the offset, as a write of the window's service core with a release at `.pkg`; one to an absent page asks Tardar for it and waits, one to a replicated line waits for its withdrawal, and one that is refused is dropped with a notification.
A read of present sound bytes with no write of the past on them gives their home's bytes; a refused one gets Completer Abort. WBASE takes the value for its host function and window alone. While a request of a window
waits, every later one of that window waits behind it. The address space of the PF is the model's choice (log 111). -/
def Claims.windows : Prop :=
  ∀ (s : State) (fn q off n : Nat) (data : List Byte), let i := Instr.hostWindowWrite fn q off data; let j := Instr.hostWindowRead fn q off n
    let a := if fn = 0 then 0 else Config.hostSpace fn % 65536; let va := ((tget s.wbase (4 * fn + q) 0).toNat + off) % 2 ^ 56; let l := Loc.glob (spaceOf a va) va
    let wr := s.checkPages (644 + q) a false true false 1 va data.length; let rd := s.checkPages (644 + q) a true false false 0 va n
    (4 ≤ q ∨ 8 < fn ∨ 2 ^ 26 < off + data.length ∨ 256 < data.length → exec i s = .next s) ∧
    (4 ≤ q ∨ 8 < fn ∨ 2 ^ 26 < off + n ∨ 4096 < n → exec j s = .next s) ∧
    (4 ≤ q ∨ 8 < fn → ∀ v : Word, exec (.wbase fn q v) s = .next s) ∧
    (q < 4 → fn ≤ 8 → off + data.length ≤ 2 ^ 26 → data.length ≤ 256 → off + n ≤ 2 ^ 26 → n ≤ 4096 →
    (tget s.windows q [] ≠ [] → exec i s = .next { s with windows := tput s.windows q (tget s.windows q [] ++ [.write fn off data false]) } ∧
      exec j s = .next { s with windows := tput s.windows q (tget s.windows q [] ++ [.read fn off n]) } ∧
      ∀ v : Word, exec (.wbase fn q v) s = .next { s with windows := tput s.windows q (tget s.windows q [] ++ [.wbase fn (some v)]) }) ∧
    (tfind s.windows q = none →
    (s.boot.done = false → exec i s = .next s ∧ exec j s = .next { s with hostReplies := s.hostReplies ++ [.completerAbort] }) ∧
    (s.boot.done = true →
      (wr = .ok () → data ≠ [] → s.replicatedFrom l data.length = true → ∃ t, exec i s = .next t ∧ tget t.windows q [] = [.write fn off data false] ∧
        t.hist = s.hist) ∧
      (wr = .ok () → data ≠ [] → s.replicatedFrom l data.length = false → s.behindSwitch l = false → va % 64 + data.length ≤ 64 → ∃ t e, exec i s = .next t ∧ t.hist = e :: s.hist ∧ e.loc = l ∧ e.bytes = data ∧
        e.party = .service q ∧ e.rel.map (·.scope) = [4] ∧
        (s.peerOf (spaceOf a va) va = none → ∀ k, k < data.length → t.homeByte (.glob (spaceOf a va) (va + k)) = (data[k]?).getD 0)) ∧
      (∀ b v k f, wr = .error (.absent b v k f) → exec i s = .next { s.askPage b v k with windows := tput s.windows q [.write fn off data false] }) ∧
      (∀ c x v k, wr = .error (.trap c x v k) → (s.translate a va).bad = none → va % 65536 + data.length ≤ 65536 → exec i s = .next { s with notices := s.notices ++ [.hostRefused a va] }) ∧
      (rd = .ok () → (s.hist.any (·.meets l n)) = false → (∀ k ∈ sectorStarts va n, s.sectorState (l.plus k) = 0) → ∃ t, exec j s = .next t ∧
        t.hostReplies = s.hostReplies ++ [.data (s.homeBytes l n) false] ∧ t.tasks = s.tasks) ∧
      (∀ b v k f, rd = .error (.absent b v k f) → exec j s = .next { s.askPage b v k with windows := tput s.windows q [.read fn off n] }) ∧
      (∀ c x v k, rd = .error (.trap c x v k) → (s.translate a va).bad = none → va % 65536 + n ≤ 65536 → exec j s = .next { s with
        notices := s.notices ++ [.hostRefused a va], hostReplies := s.hostReplies ++ [.completerAbort] })) ∧
    (∀ v : Word, exec (.wbase fn q v) s = .next { s with wbase := tput s.wbase (4 * fn + q) v })))

/-- A start begins (R336, R337, R339): stage 1, with STARTS, WARM and RETRY; every other register of the device is at its reset value, and the arrays with their valid bits, the TLBs, the attribute caches, the HBM, the stored images and the configuration in force stay until
their stage. -/
def Claims.begun (s t : State) (warm retry : Bool) (starts : BitVec 32) : Prop :=
  t.boot = { Boot.reset with stage := 1, warm := warm, retry := retry, starts := starts, trained := s.boot.trained, requests := s.boot.requests } ∧
  t.tasks = [] ∧ t.dies = [] ∧ t.jobs = [] ∧ t.msgs = [] ∧ t.path = [] ∧ t.hist = [] ∧ t.wbase = [] ∧ t.hbm = s.hbm ∧ t.l2 = s.l2 ∧ t.tlbs = s.tlbs ∧
  t.attrs = s.attrs ∧ t.image = s.image ∧ t.conf = s.conf ∧ t.rollback = s.rollback ∧
  (∀ c, t.core c = { Core.reset with mem := (s.core c).mem, rings := (s.core c).rings, cacheLines := (s.core c).cacheLines }) ∧
  ∀ q, t.quad q = { Quad.reset with annex := (s.quad q).annex, cas := (s.quad q).cas }

/-- COLD_START and WARM_START (R336, R339): ignored while a start runs; after a failure STARTS counts from power-on again (DEDUCED, log 76); a warm one without retained HBM parameters runs as a cold one. STAGE_COMPLETE (R336-R341): a stage past its limit does not complete; the next stage is written; stage 2 applies and measures a configuration image whose signature and anti-rollback version are
right, and fails with code 1 otherwise; stage 3 retains the parameters, and a cold start's empties the HBM (what a cold HBM holds is log 4); stage 4 zeroes every bank, in a warm start only the Shadow and Scratch banks (those of the reset BANKMAP, DEDUCED, log 77), empties L2, TLBs, attribute caches, rings and
casements, and sets the image's defaults of RINGWAIT and the route tables; stage 5 starts Tardar's image, whose signature is right, on the 16 service cores and leads to DONE, and fails with code 2 otherwise. STAGE_FAILURE and STAGE_TIMEOUT (R337-R339): the first failure of a
start makes one further attempt, as a cold start; the second stops the device with FAIL and the code of the stage, 5 for a limit of R338. -/
def Claims.startSequence : Prop :=
  ∀ (s : State), let b := s.boot; let running := b.stage ≠ 0 ∧ b.done = false ∧ b.fail = false
    let fails := fun (i : Instr) (code : Nat) => (b.retry = false → ∃ t, exec i s = .next t ∧ Claims.begun s t false true (b.starts + 1)) ∧
      (b.retry = true → exec i s = .next { s with boot := { b with fail := true, code := code } })
    let at_ := fun (n : Nat) (t : State) => t.boot.stage = n ∧ t.boot.since = (s.die 0).dieclk ∧ t.boot.done = false ∧ t.tasks = s.tasks
    (running → exec .coldStart s = .next s ∧ exec .warmStart s = .next s) ∧
    (¬running → b.fail = false → ∃ t, exec .coldStart s = .next t ∧ Claims.begun s t false false (b.starts + 1)) ∧
    (b.fail = true → ∃ t, exec .coldStart s = .next t ∧ Claims.begun s t false false 1) ∧
    (b.done = true → b.fail = false → b.stage ≠ 0 → ∃ t, exec .warmStart s = .next t ∧ Claims.begun s t b.trained false (b.starts + 1)) ∧
    (¬running → ∀ n, exec .stageComplete s = .next s ∧ exec (.stageFailure n) s = .next s ∧ exec .stageTimeout s = .next s) ∧
    let limit := match b.stage with
      | 1 => 50000000
      | 2 => 250000000
      | 3 => (if b.warm then 400000000 else 4000000000) + s.conf.more[0]
      | 4 => (if b.warm then 200000000 else 1500000000) + s.conf.more[1]
      | _ => 2000000000 + s.conf.more[2]
    let spent := ((s.die 0).dieclk - b.since).toNat
    (running → limit < spent → exec .stageComplete s = .next s ∧ (b.stage < 6 → fails .stageTimeout 5)) ∧
    (running → spent ≤ limit → exec .stageTimeout s = .next s) ∧
    (running → spent ≤ limit →
      (b.stage = 1 → ∃ t, exec .stageComplete s = .next t ∧ at_ 2 t ∧ t.hbm = s.hbm ∧ t.cores = s.cores) ∧
      (b.stage = 2 → s.image.good = true → s.rollback ≤ s.image.version → ∃ t, exec .stageComplete s = .next t ∧ at_ 3 t ∧ t.hbm = s.hbm ∧ t.cores = s.cores ∧
        t.conf = s.image ∧ t.rollback = s.image.version) ∧
      (b.stage = 2 → s.image.good = false ∨ s.image.version < s.rollback → fails .stageComplete 1) ∧
      (b.stage = 3 → ∃ t, exec .stageComplete s = .next t ∧ at_ 4 t ∧ t.boot.trained = true ∧ t.hbm = if b.warm then s.hbm else Memory.empty) ∧
      (b.stage = 4 → ∃ t, exec .stageComplete s = .next t ∧ at_ 5 t ∧ t.hbm = s.hbm ∧
        (∀ c o, (t.core c).mem.byte o = if b.warm ∧ 256 ≤ o / 4096 ∧ o / 4096 < 352 then (s.core c).mem.byte o else 0) ∧
        t.l2 = [] ∧ t.tlbs = [] ∧ t.attrs = [] ∧ t.peers = [] ∧ t.l2Partitioned = false ∧
        (∀ c r, c < 640 → vget (t.core c).rings r none = none ∧ (t.core c).cacheLines = [] ∧
          (s.conf.ringwait ≠ 4096 → (t.core c).ringwait = BitVec.ofNat 32 s.conf.ringwait)) ∧
        (∀ q e, vget (t.quad q).cas e none = none ∧ (t.quad q).annex = []) ∧ ∀ d, d < 4 → s.conf.routes ≠ routesReset → (t.die d).routes = s.conf.routes) ∧
      (b.stage = 5 → s.tardar.good = true → ∃ t, exec .stageComplete s = .next t ∧ t.boot.stage = 6 ∧ t.boot.done = true ∧ t.boot.fail = false ∧ t.boot.requests = 0 ∧
        t.boot.tardar = s.tardar.content ∧ (∀ q, q < 16 → (t.task (10240 + q)).life = .running ∧ (t.task (10240 + q)).pc = Config.tardarEntry) ∧
        t.hostReplies.length = s.hostReplies.length + b.requests) ∧
      (b.stage = 5 → s.tardar.good = false → fails .stageComplete 2)) ∧
    (running →
      (b.stage = 2 → fails (.stageFailure 1) 1) ∧ (b.stage = 3 → fails (.stageFailure 3) 3) ∧ (b.stage = 4 → fails (.stageFailure 4) 4) ∧
      (b.stage = 5 → fails (.stageFailure 2) 2))

/-- GET_MEASUREMENTS (R335, R340): nothing answers before a start, a request during one waits for its end, and after it the reply holds the three digests, of what the start measured, the kind of the start and STARTS. CORRECTABLE_ERROR (R334): counted on its die;
an uncorrectable error in a sector of a core's banks poisons it. COOLANT_OUT_OF_LIMITS and COOLANT_WITHIN_LIMITS (R341): the arithmetic clock halves, with a notification, and goes back. -/
def Claims.sensors : Prop :=
  ∀ (s : State), let b := s.boot
    (b.stage = 0 → exec .getMeasurements s = .next s) ∧
    (b.stage ≠ 0 → b.done = false → b.fail = false → exec .getMeasurements s = .next { s with boot := { b with requests := b.requests + 1 } }) ∧
    (b.stage ≠ 0 → b.done = true ∨ b.fail = true → exec .getMeasurements s = .next { s with
      hostReplies := s.hostReplies ++ [.measurements (Config.digest 1 []) (Config.digest 2 b.config) (Config.digest 3 b.tardar) b.warm b.starts] }) ∧
    (∀ d, exec (.correctableError d none) s = .next { s with dies := tput s.dies d { s.die d with correctable := (s.die d).correctable + 1 } }) ∧
    (∀ d c n, c < 640 → ∃ t, exec (.correctableError d (some (c, n))) s = .next t ∧ t.sectorState (.bank c (64 * n)) = 1 ∧
      (∀ o, t.homeByte o = s.homeByte o) ∧ ∀ o, o / 64 ≠ n → t.sectorState (.bank c o) = s.sectorState (.bank c o)) ∧
    (exec .coolantOutOfLimits s = .next (if s.halfClock then s else { s with halfClock := true, notices := s.notices ++ [.coolant false] })) ∧
    exec .coolantWithinLimits s = .next { s with halfClock := false }

/-- What lies outside the device, as a scheduled move. A read of BOOTSTAT by the PF gives STAGE, CODE, DONE, FAIL, WARM, RETRY and STARTS at their places, also in a device that has stopped (R337, R339), and a VF reads zero; a write of BOOTCMD asks for a start, and that of a VF is ignored. In a stopped device no
task issues, and no event but a cold start and the answers of its mailboxes has an effect. Tardar writes an entry of a page table (R322), advances MQHEAD (R329), swaps zero into a counter record or ends its PEND (R328), and raises an MSI-X vector (R335). A stored image is applied by a start only, and the coolant is within the limits of the image in force or not
(R341). That the environment acts by a schedule in the state is the model's choice (log 2). -/
def Claims.outsideMoves : Prop :=
  ∀ (s : State) (m : Move) (r : List Move), s.schedule = m :: r → let u : State := { s with schedule := r }; let b := s.boot
    let reply := fun (t : State) (w : Word) => t.hostReplies = s.hostReplies ++ [.data (bytesOfDwords [w]) false]
    let flag := fun (c : Bool) (n : Nat) => if c then 2 ^ n else 0
    let stat := BitVec.ofNat 64 (b.stage % 256 * 2 ^ 56 + b.code % 256 * 2 ^ 48 + flag b.done 47 + flag b.fail 46 + flag b.warm 45 + flag b.retry 44 + b.starts.toNat)
    (b.fail = true → (∀ n, m = .issue n → step s = .next u) ∧ (∀ i, m = .event i → i ≠ .coldStart → i ≠ .getMeasurements → step s = .next u) ∧
      ∀ c n, m = .pass c n → step s = .next u) ∧
    (b.stage ≠ 0 → (m = .bar2 0 0 none → ∃ t, step s = .next t ∧ reply t stat ∧ t.boot = b ∧ t.tasks = s.tasks) ∧
      (∀ fn, fn ≠ 0 → m = .bar2 fn 0 none → ∃ t, step s = .next t ∧ reply t 0) ∧
      (∀ fn v, fn ≠ 0 → m = .bar2 fn 8 (some v) → ∃ t, step s = .next t ∧ t.boot = b ∧ t.tasks = s.tasks) ∧
      (∀ v : Word, m = .bar2 0 8 (some v) → b.done = true → b.fail = false →
        (v.toNat % 4 = 1 → ∃ t, step s = .next t ∧ t.boot.stage = 1 ∧ t.boot.warm = b.trained ∧ t.boot.starts = b.starts + 1) ∧
        (v.toNat % 4 = 2 → ∃ t, step s = .next t ∧ t.boot.stage = 1 ∧ t.boot.warm = false ∧ t.boot.starts = b.starts + 1) ∧
        (v.toNat % 4 = 0 ∨ v.toNat % 4 = 3 → ∃ t, step s = .next t ∧ t.boot = b ∧ t.tasks = s.tasks))) ∧
    (b.fail = false →
      (∀ pa e, m = .entry pa e → s.hbm.wf = true → ∃ t, step s = .next t ∧
        (pa % 8 = 0 → pa < 12 * 2 ^ 36 → leWord (t.hbm.bytes pa 8) = e ∧ ∀ a, a < pa ∨ pa + 8 ≤ a → t.hbm.byte a = s.hbm.byte a) ∧
        (pa % 8 ≠ 0 ∨ 12 * 2 ^ 36 ≤ pa → t.hbm = s.hbm)) ∧
      (∀ n, m = .mqHead n → ∃ t, step s = .next t ∧ t.mqTail = s.mqTail ∧ t.mqHead = if s.mqHead ≤ n ∧ n ≤ s.mqTail then n else s.mqHead) ∧
      (∀ f all, m = .record f all → f < 12 * 2 ^ 20 → s.hbm.wf = true → ∃ t, step s = .next t ∧
        let c := (leWord (s.hbm.bytes (Claims.recordAt f) 8)).toNat
        leWord (t.hbm.bytes (Claims.recordAt f) 8) = if all then 0 else BitVec.ofNat 64 (c / 2 ^ 38 * 2 ^ 38)) ∧
      (∀ fn v, m = .msix fn v → ∃ t, step s = .next t ∧
        t.hostReplies = s.hostReplies ++ (if fn ≤ 8 ∧ v < 32 then [.interrupt fn v] else [])) ∧
      (∀ i, m = .image i → ∃ t, step s = .next t ∧ t.image = i ∧ t.conf = s.conf) ∧
      (∀ x y, m = .coolant x y → ∃ t, step s = .next t ∧ (t.halfClock = true ↔ s.conf.inlet < x ∨ y < s.conf.flow)))

/-- The host's requests, the start sequence, the sensors, and what lies outside. -/
def Obligations.HostAndStart : Prop := Claims.windows ∧ Claims.startSequence ∧ Claims.sensors ∧ Claims.outsideMoves

/-! ### Collectives (R309-R317) -/

/-- The doubleword address of a die's request area and of the slot of a ticket (R309). -/
def Claims.area (die : Nat) : Nat := 0x00FFFF0000000000 + 0x10000 * die

/-- COLLECTIVE_REQUEST_TAKEN (R309-R311, R314, R315): without a complete request at HEAD nothing happens. A request is taken by clearing V in its slot and moving HEAD on by one; one whose status address is unaligned or refused is dropped
and Tardar told; any other is the next request of its group at this member, and joins the collective of that count, which one that no group or limit allows aborts with CAUSE 1. While the request area is away Tardar is asked for it (R327). Stated for the operations without a routine. -/
def Claims.requests : Prop :=
  ∀ (s v : State) (die n : Nat) (r : Request), die < 4 → let i := Instr.collectiveRequestTaken die; let asid := v.asid r.job; let st := (r.dw 5).toNat
    let key := seqKey die r.job r.group; let seq := tget v.collSeq key 0
    let taken := fun (t : State) => ∃ a b, t.hist = b :: a :: v.hist ∧ a.loc = .glob 0 (Claims.area die + 64 + 64 * (n % 256)) ∧
      a.bytes = natBytes ((r.dw 0).toNat % 2 ^ 63) 8 ∧ b.loc = .glob 0 (Claims.area die + 8) ∧ b.bytes = natBytes (n + 1) 8
    (∀ a b c, s.areaCheck die = .absent a b c → exec i s = .next (s.askPage a b c)) ∧
    (s.areaCheck die = .fine → s.readSlot die = none → exec i s = .next s) ∧
    (s.areaCheck die = .fine → s.readSlot die = some (n, r, v) →
      (st % 8 ≠ 0 ∨ v.engineCheck die asid (st % 2 ^ 56) 8 true = .refused → ∃ t, exec i s = .next t ∧ taken t ∧
        t.notices = v.notices ++ [.badStatus r.job r.group] ∧ t.colls = v.colls) ∧
      (st % 8 = 0 → v.engineCheck die asid (st % 2 ^ 56) 8 true ≠ .refused → (r.op = 2 ∨ r.op = 3) → ∃ t k m, exec i s = .next t ∧ taken t ∧
        tget t.collSeq key 0 = seq + 1 ∧ k ∈ t.colls ∧ k.job = r.job ∧ k.group = r.group ∧ k.seq = seq ∧ m ∈ k.members ∧ m.die = die ∧
        m.src = (r.dw 2).toNat % 2 ^ 56 ∧ m.dst = (r.dw 3).toNat % 2 ^ 56 ∧ m.status = r.dw 5 ∧ m.bitmap = [] ∧ m.ended = false ∧
        ((∀ x ∈ v.colls, ¬(x.job = r.job ∧ x.group = r.group ∧ x.seq = seq)) →
          (v.groupOf r = none → k.cause = some 1) ∧
          (∀ g, v.groupOf r = some g → r.sound g (v.globalDie die) = true → k.cause = none) ∧
          (∀ g, v.groupOf r = some g → r.sound g (v.globalDie die) = false → k.cause = some 1))))

/-- RESERVATION_GRANT (R316): an engine serves the waiting requests by group number, then by their order; the first is granted its whole staging once that fits, and before it no other. No grant sets two collectives that share an engine running at once (R317). -/
def Claims.reservations : Prop :=
  ∀ (s : State) (die : Nat) (k : Coll), let g := s.globalDie die; let i := Instr.reservationGrant die
    let shared := fun (x y : Coll) => ∃ d ∈ x.ranks, d / 4 = s.pkg ∧ d ∈ y.ranks; let run := fun (x : Coll) => x.on = true ∧ x.cause = none
    (s.firstWaiting g = none → exec i s = .next s) ∧
    (s.firstWaiting g = some k →
      (k ∈ s.colls ∧ s.waitsAt g k = true ∧ ∀ x ∈ s.colls, s.waitsAt g x = true → k.group < x.group ∨ (k.group = x.group ∧ k.seq ≤ x.seq)) ∧
      (2 ^ 21 < s.stagingUsed g + k.rg * 2 ^ (12 + k.what.cl) → exec i s = .next s) ∧
      (s.stagingUsed g + k.rg * 2 ^ (12 + k.what.cl) ≤ 2 ^ 21 → ∃ t, exec i s = .next t ∧ t.tasks = s.tasks ∧
        (∀ x ∈ t.colls, x.id = k.id → (tfind x.grants g).isSome = true) ∧
        ((s.colls.map (·.id)).Nodup → ∀ x ∈ t.colls, ∀ y ∈ t.colls, x.id ≠ y.id → shared x y → run x → run y →
          ∃ x' ∈ s.colls, ∃ y' ∈ s.colls, x'.id = x.id ∧ y'.id = y.id ∧ run x' ∧ run y')))

/-- CHUNK_WRITTEN (R311, R312, R334): a member that has not yet written the chunk writes its final words at their place in its destination, and then its bit of the bitmap with a release at `.pkg`. A broadcast's words are rank 0's, a gather's those of
all ranks in order. A chunk that is not in progress, and a member that has written it, write nothing; contributions that went bad in staging abort the collective with CAUSE 5. FINAL_ACK (R312, R316): once every member has written the chunk it is acknowledged and its contributions are dropped; the last one releases
the reservations. -/
def Claims.chunks : Prop :=
  ∀ (s : State) (die coll j : Nat) (k : Coll), s.colls.find? (·.id == coll) = some k → let i := Instr.chunkWritten die coll j; let asid := s.asid k.job
    let open_ := k.on = true ∧ k.cause = none ∧ (tfind k.since j).isSome = true ∧ j ∉ k.acked
    (¬open_ → exec i s = .next s ∧ exec (.finalAck coll j) s = .next s) ∧
    (∀ m, k.members.find? (·.die == die) = some m →
      (m.bitmap.contains j = true ∨ m.ended = true → exec i s = .next s) ∧
      (∀ l, open_ → m.bitmap.contains j = false → m.ended = false → k.keep.find? (·.1 == j) = some (j, l, true) →
        ((s.localRanks k).all fun g => k.members.any fun x => s.globalDie x.die == g) = true →
        ∃ t k', exec i s = .next t ∧ t.hist = s.hist ∧ t.colls.find? (·.id == coll) = some k' ∧ k'.cause = some 5) ∧
      (∀ l, open_ → m.bitmap.contains j = false → m.ended = false → k.keep.find? (·.1 == j) = some (j, l, false) →
        ((s.localRanks k).all fun g => k.members.any fun x => s.globalDie x.die == g) = true →
        let rank := k.ranks.idxOf (s.globalDie die); let ws := (k.result rank j l).1; let dst := (m.dst + 4 * (k.chunk j).1) % 2 ^ 56
        let bit := (m.status.toNat % 2 ^ 56 + (8 + j / 8)) % 2 ^ 56
        (k.what.op = 2 → ws = l.headD []) ∧ (k.what.op = 3 → ws = l.flatten) ∧
        (s.engineCheck die asid dst (4 * ws.length) true = .fine → s.engineCheck die asid (m.status.toNat % 2 ^ 56 + (8 + j / 8)) 1 true = .fine → dst % 64 + 4 * ws.length ≤ 64 →
          ws ≠ [] → ∃ t a b k' m', exec i s = .next t ∧ t.hist = b :: a :: s.hist ∧ a.loc = .glob (spaceOf asid dst) dst ∧
            a.bytes = ws.flatMap (fun w => natBytes w.toNat 4) ∧ b.loc = .glob (spaceOf asid bit) bit ∧ b.bytes = [BitVec.ofNat 8 (2 ^ (j % 8))] ∧
            b.mask = b.bytes ∧ b.rel.map (·.scope) = [4] ∧ t.colls.find? (·.id == coll) = some k' ∧
            k'.members.find? (·.die == die) = some m' ∧ m'.bitmap = m.bitmap ++ [j]))) ∧
    (open_ → (k.keep.any (·.1 == j)) = true → (k.members.all (·.bitmap.contains j)) = true →
      ∃ t k', exec (.finalAck coll j) s = .next t ∧ t.tasks = s.tasks ∧ t.colls.find? (·.id == coll) = some k' ∧ k'.acked = k.acked ++ [j] ∧
        k'.keep = k.keep.filter (·.1 != j) ∧ k'.members = k.members ∧ k'.grants = if k.acked.length + 1 = k.what.chunks k.ranks.length then [] else k.grants) ∧
    (open_ → ((k.keep.any (·.1 == j)) = false ∨ (k.members.all (·.bitmap.contains j)) = false) → exec (.finalAck coll j) s = .next s)

/-- CHUNK_FAILURE and CHUNK_NO_PROGRESS (R313): the first failure of a collective moves it to the alternate tree and counts a retry, the second aborts it with CAUSE 2, as does a lost link of the alternate tree; no progress is a failure 2^20 cycles after the chunk started or last progressed. MEMBER_LOST (R314): CAUSE 3, where no
cause came before and a chunk is left. -/
def Claims.failures : Prop :=
  ∀ (s : State) (coll j : Nat) (k : Coll), s.colls.find? (·.id == coll) = some k →
    let open_ := k.on = true ∧ k.cause = none ∧ (tfind k.since j).isSome = true ∧ j ∉ k.acked
    let sound := ∀ n ∈ k.links.2, n < 16 → s.links.getLsbD n = true
    let fails := fun (i : Instr) => ∃ t k', exec i s = .next t ∧ t.tasks = s.tasks ∧ t.colls.find? (·.id == coll) = some k' ∧ k'.acked = k.acked ∧
      (k.alternate = true → k' = { k with cause := some 2 }) ∧
      (k.alternate = false → k'.alternate = true ∧ k'.retries = k.retries + 1 ∧ tfind k'.since j = some s.cycle ∧ (sound → k'.cause = none) ∧ (¬sound → k'.cause = some 2))
    let since := tget k.since j 0
    (¬open_ → exec (.chunkFailure coll j) s = .next s ∧ exec (.chunkNoProgress coll j) s = .next s) ∧
    (open_ → fails (.chunkFailure coll j)) ∧
    (open_ → s.cycle < since + 2 ^ 20 → exec (.chunkNoProgress coll j) s = .next s) ∧
    (open_ → since + 2 ^ 20 ≤ s.cycle → fails (.chunkNoProgress coll j)) ∧
    (k.acked.length = k.what.chunks k.ranks.length → exec (.memberLost coll) s = .next s) ∧
    (k.acked.length ≠ k.what.chunks k.ranks.length → ∃ t, exec (.memberLost coll) s = .next t ∧ t.tasks = s.tasks ∧
      t.colls.find? (·.id == coll) = some (if k.cause.isSome then k else { k with cause := some 3 }))

/-- COLLECTIVE_END (R314, R315): not before every chunk is acknowledged or the collective aborted. The member then writes the status doubleword, with END, the abort and its cause, its flags, the retries and the chunks written, with a release
at `.pkg`, and a wake-up message follows where one was asked for. -/
def Claims.collectiveEnds : Prop :=
  ∀ (s : State) (die coll : Nat) (k : Coll) (m : CollMember), let i := Instr.collectiveEnd die coll; let st := m.status.toNat % 2 ^ 56; let asid := s.asid k.job
    s.colls.find? (·.id == coll) = some k → k.members.find? (·.die == die) = some m →
    (m.ended = true ∨ (k.cause = none ∧ k.acked.length ≠ k.what.chunks k.ranks.length) → exec i s = .next s) ∧
    (m.ended = false → (k.cause ≠ none ∨ k.acked.length = k.what.chunks k.ranks.length) → s.engineCheck die asid st 8 true = .fine → st % 8 = 0 →
      ∃ t e, exec i s = .next t ∧ t.hist = e :: s.hist ∧ e.loc = .glob (spaceOf asid st) st ∧ e.rel.map (·.scope) = [4] ∧
        e.bytes = natBytes (2 ^ 63 + (match k.cause with | some c => 2 ^ 62 + c % 16 * 2 ^ 58 | none => 0) + m.flags.toNat * 2 ^ 51 +
          min 255 k.retries * 2 ^ 32 + m.bitmap.length % 2 ^ 32) 8 ∧
        (m.wake = 0 → t.msgs = s.msgs) ∧
        (m.wake ≠ 0 → ∃ w, t.msgs = s.msgs ++ [w] ∧ w.kind = .mailbox ∧ w.core = m.core ∧ w.job = k.job ∧
          w.dwords = [handlerWord m.wake, m.status, m.warg, 0, 0, 0, 0, 0]) ∧
        ∀ k', t.colls.find? (·.id == coll) = some k' → ∀ x ∈ k'.members, x.die = die → x.ended = true)

/-- Collectives: requests, reservations, chunks, failures and ends. -/
def Obligations.Collectives : Prop :=
  Claims.requests ∧ Claims.reservations ∧ Claims.chunks ∧ Claims.failures ∧ Claims.collectiveEnds

/-! ### Links, time lines, trace records, jobs (R17, R116, R251, R313, R348, R350-R354, R358, R388) -/

/-- LINK_FAILURE (R313, R348): the link is gone and Tardar told; a running collective with chunks in progress whose tree has lost a link redoes them on the alternate tree, counting each, or aborts with CAUSE 2 if it was there already or
the alternate tree has lost one too; one whose tree is whole goes on as it was. SKEW_MEASUREMENT (R350): from four stamps the entry of the neighbour gets OFFSET and ERR, half of their sums, with VALID. LAMPORT_DELIVERY (R351): the greater of the die's and the carried value, plus 1, with LWRAP where it wraps. -/
def Claims.fabric : Prop :=
  (∀ (s : State) (n : Nat),
    (16 ≤ n ∨ s.links.getLsbD n = false → exec (.linkFailure n) s = .next s) ∧
    (n < 16 → s.links.getLsbD n = true → (s.colls.map (·.id)).Nodup → ∃ t, exec (.linkFailure n) s = .next t ∧
      (∀ i, i < 16 → t.links.getLsbD i = (s.links.getLsbD i && i != n)) ∧ t.notices = s.notices ++ [.linkFailed n] ∧ t.tasks = s.tasks ∧
      ∀ k ∈ s.colls, let whole := fun (l : List Nat) => ∀ m ∈ l, m < 16 → s.links.getLsbD m = true ∧ m ≠ n
        let mine := if k.alternate then k.links.2 else k.links.1
        (k.cause ≠ none → k ∈ t.colls) ∧
        (k.on = true → k.cause = none → whole mine → ∃ k', t.colls.find? (·.id == k.id) = some k' ∧ k'.alternate = k.alternate ∧ k'.retries = k.retries ∧ k'.cause = none ∧ k'.acked = k.acked) ∧
        (k.on = true → k.cause = none → ¬whole mine → (∃ e ∈ k.since, e.1 ∉ k.acked) → ∃ k', t.colls.find? (·.id == k.id) = some k' ∧ k'.acked = k.acked ∧
          (k.alternate = true → k'.cause = some 2) ∧
          (k.alternate = false → k'.alternate = true ∧ k'.retries = k.retries + (k'.since.filter fun e => !k'.acked.contains e.1).length ∧
            (whole k.links.2 → k'.cause = none) ∧ (¬whole k.links.2 → k'.cause = some 2))))) ∧
  (∀ (s : State) (d n : Nat) (t1 t2 t3 t4 : Word) (o e : Int), (t2 - t1).toInt + (t3 - t4).toInt = 2 * o → (t4 - t1).toInt - (t3 - t2).toInt = 2 * e →
    -2 ^ 31 ≤ o → o < 2 ^ 31 → exec (.skewMeasurement d n t1 t2 t3 t4) s = .next { s with dies := tput s.dies d { s.die d with
      skew := tput (s.die d).skew n (BitVec.ofNat 64 ((o % 2 ^ 32).toNat * 2 ^ 32 + min 65535 e.toNat * 2 ^ 16 + 1)) } }) ∧
  (∀ (s : State) (d : Nat) (v : BitVec 32), let x := s.die d; let m := max x.lamport.toNat v.toNat + 1
    exec (.lamportDelivery d v) s = .next { s with dies := tput s.dies d { x with
      lamport := BitVec.ofNat 32 m, lwrap := x.lwrap || decide (m = 2 ^ 32) } })

/-- TRACECTL_WRITE (R352): TRACEBASE takes bits [55:12]; TRACECTL its bits [63:56] and [15:0], with EN 0 where LOG is not 10 to 24; turning tracing on starts TAIL and LOST from zero (LOST is DEDUCED, log 84), in its registers and in the header of the buffer, whose doublewords 3 to 7 are zero; it waits for the header's page. TRACE_RECORD (R354): the Curator takes the oldest record of a
source once it may access its buffer, and where the buffer's page refuses it the record is lost (DESIGN CHOICE, log 108); switched off, it keeps nothing; without STOP it writes the record at its place of the buffer and then TAIL, one more; with STOP it drops a record of a full buffer and counts it. -/
def Claims.traces : Prop :=
  ∀ (s : State) (d u : Nat) (v : Word), let x := s.die d; let log := v.toNat / 2 ^ 56 % 2 ^ 6
    let kept := v &&& 0xFF0000000000FFFF; let c := if 10 ≤ log ∧ log ≤ 24 then kept else kept &&& 0x7FFFFFFFFFFFFFFF
    (exec (.tracectlWrite d true v) s = .next { s with dies := tput s.dies d { x with tracebase := v &&& 0x00FFFFFFFFFFF000 } }) ∧
    (x.tracing = true ∨ c.getLsbD 63 = false → exec (.tracectlWrite d false v) s = .next { s with dies := tput s.dies d { x with tracectl := c } }) ∧
    (x.tracing = false → c.getLsbD 63 = true → (s.curatorAsk d true 0 64).1 = .now → ∃ t, exec (.tracectlWrite d false v) s = .next t ∧
      (t.die d).tracectl = c ∧ (t.die d).traceTail = 0 ∧ (t.die d).traceLost = 0 ∧ t.tasks = s.tasks ∧
      (∀ a b, traceLoc x.tracebase 0 = .glob a b → s.peerOf a b = none → b % 64 = 0 → ∀ o, o < 16 ∨ (24 ≤ o ∧ o < 64) → t.homeByte (.glob a (b + o)) = 0)) ∧
    (x.tracing = false → c.getLsbD 63 = true → (s.curatorAsk d true 0 64).1 = .later → ∃ t, exec (.tracectlWrite d false v) s = .next t ∧ t.dies = s.dies) ∧
    (s.traceQueue d u = [] → exec (.traceRecord d u) s = .next s) ∧
    (∀ r q, s.traceQueue d u = r :: q → x.lostSince = false →
      (x.tracing = false → ∃ t, exec (.traceRecord d u) s = .next t ∧ t.traceQueue d u = q ∧ t.hist = s.hist) ∧
      (x.tracing = true → (s.curatorAsks d (s.traceAsks d)).1 = .later → ∃ t, exec (.traceRecord d u) s = .next t ∧ t.traceQueue d u = r :: q ∧ t.hist = s.hist) ∧
      (x.tracing = true → (s.curatorAsks d (s.traceAsks d)).1 = .never → ∃ t, exec (.traceRecord d u) s = .next t ∧ t.traceQueue d u = q ∧ t.hist = s.hist ∧
        (t.die d).traceLost = x.traceLost + 1 ∧ (t.die d).lostSince = true) ∧
      (x.tracing = true → (s.curatorAsks d (s.traceAsks d)).1 = .now → x.tracectl.getLsbD 62 = false → ∃ t a b, exec (.traceRecord d u) s = .next t ∧ t.traceQueue d u = q ∧ t.hist = b :: a :: s.hist ∧
        a.loc = .glob 0 ((x.tracebase.toNat + (64 + 64 * (x.traceTail % 2 ^ (x.tracectl.toNat / 2 ^ 56 % 2 ^ 6)))) % 2 ^ 56) ∧ a.bytes = bytesOfDwords (x.stamped r) ∧
        b.loc = .glob 0 (x.tracebase.toNat % 2 ^ 56) ∧ b.bytes = natBytes (x.traceTail + 1) 8 ∧ (t.die d).traceTail = x.traceTail + 1 ∧ (t.die d).lwrap = false) ∧
      (x.tracing = true → (s.curatorAsks d (s.traceAsks d)).1 = .now → x.tracectl.getLsbD 62 = true →
        (((s.curatorAsks d (s.traceAsks d)).2.popTrace u).traceHead d).1 = 0 →
        2 ^ (x.tracectl.toNat / 2 ^ 56 % 2 ^ 6) ≤ x.traceTail → ∃ t, exec (.traceRecord d u) s = .next t ∧ t.traceQueue d u = q ∧
          (t.die d).traceTail = x.traceTail ∧ (t.die d).traceLost = x.traceLost + 1 ∧ (t.die d).lostSince = true))

/-- JOB_START (R17, R18, R116, R136, R358, R388): a job starts on whole quads that no job has, its cores numbered 0 to 4Q - 1, once the start is done and nothing of an earlier job of its number is left; one whose `.local` image does not
lie in Scratch banks is refused, and one that finds a line of a request area replicated waits for its withdrawal (R270). No die has counted a task of it yet (all four dies: DEDUCED, log 83). Its cores have its BANKMAP and RINGWAIT, no ring, no routine and no trigger, and the image in their banks. JOB_END (R251, R388): its tasks retire with poison, its waiting work, its casements and its table entries are gone, but for the grids whose teams have yet to count down their counter (R291),
and its cores are free. -/
def Claims.jobs : Prop :=
  (∀ (s : State) (j : JobDesc), let i := Instr.jobStart j; let n := j.job.toNat
    let numbered := j.quads.Nodup ∧ (j.lcn.map (·.1)).Perm (coresOf j.quads) ∧ (j.lcn.map fun e => e.2.toNat).Perm (List.range (4 * j.quads.length))
    let plain := ∀ d, d < 4 → s.replicatedFrom (.glob 0 (Claims.area d)) 16 = false
    let may := s.boot.done = true ∧ s.jobGone n = true ∧ s.quadsFree j.quads = true ∧ numbered
    (¬may → exec i s = .next s) ∧
    (may → plain → jobImageFits j = false → exec i s = .next { s with notices := s.notices ++ [.jobRefused n] }) ∧
    (may → plain → jobImageFits j = true → ∃ t, exec i s = .next t ∧ tfind t.jobs n = some ⟨j, false, 0, []⟩ ∧ t.tasks = s.tasks ∧
      (∀ c ∈ coresOf j.quads, let k := t.core c
        k.job = some n ∧ k.bankmap = jobBankmap j c ∧ k.ringwait = j.ringwait ∧ k.mailbox = [] ∧ k.routines = [] ∧ k.stealAttempts = 0 ∧
        (∀ (e : Nat) (_ : e < 32), k.rings[e] = none) ∧
        ((s.core c).mem.wf = true → ∀ (o : Nat) (h : o < j.localImage.length), k.mem.byte o = j.localImage[o])) ∧
      (∀ q ∈ j.quads, (t.quad q).qflags = 0) ∧ ∀ d, d < 4 → tget (t.die d).serial n 0 = 0)) ∧
  (∀ (s : State) (n : Nat), let i := Instr.jobEnd n
    (tfind s.jobs n = none → exec i s = .next s) ∧
    (tfind s.jobs n ≠ none → ∃ t, exec i s = .next t ∧
      (∀ c k, (c, k) ∈ t.cores → k.job ≠ some n ∧ ∀ g ∈ k.mailbox, g.job ≠ n) ∧ (∀ k l, (k, l) ∈ t.queues → ∀ g ∈ l, g.job ≠ n) ∧
      (∀ g ∈ t.grids, g.job = n → g.teams = g.next ∧ ∃ e ∈ t.teams, e.2.grid = g.id) ∧ (∀ m ∈ t.msgs, m.job ≠ n) ∧
      (∀ q k, (q, k) ∈ t.quads → ∀ (e : Nat) (_ : e < 16) (x : Casement), k.cas[e] = some x → x.job ≠ n) ∧
      (∀ c, let x := s.task c; x.job = n → x.tid ≠ 0 → x.life ≠ .free → x.moving = none →
        (∀ e ∈ s.tasks, ∀ m, e.2.moving = some m → m.slot ≠ some c) → (t.task c).life = .retired ∧ (x.life ≠ .retired → (t.task c).how = 1))))

/-- The fabric, the Curator and jobs. -/
def Obligations.FabricTraceAndJobs : Prop := Claims.fabric ∧ Claims.traces ∧ Claims.jobs

/-! ### Encoding, fetch and step (R59-R74, R276) -/

/-- Words of the manual's worked encodings, written as they stand there, decode to the instructions they stand for (R62-R69, R70, R71). -/
def Obligations.DecodeSamples : Prop :=
  decodeWord 0x04518700 = .ok (.add 5 6 7) ∧ decodeWord 0x20413FF0 = .ok (.addi 4 4 0x3FF0) ∧
  decodePair 0xFC000004 0x20410000 = .ok (.addiPrefixed 4 4 0x10000) ∧ decodeWord 0x1051880C = .ok (.zext 5 6 8 3) ∧
  decodeWord 0x14518704 = .ok (.cmp 5 6 7 4) ∧ decodeWord 0x48518BFD = .ok (.bc 5 6 2 0x3FD) ∧ decodeWord 0x47F00064 = .ok (.jal 63 100) ∧
  decodeWord 0x58911804 = .ok (.ld 9 4 1 2 0 4) ∧ decodeWord 0x5C910C01 = .ok (.st 9 4 0 3 1) ∧ decodeWord 0x60028C0A = .ok (.redAdd 10 12 1 1) ∧
  decodeWord 0x80400823 = .ok (.vfma 2 0 1 0 4) ∧ decodeWord 0xA0020040 = .ok (.vld 0 4 0 0 2 0) ∧ decodeWord 0x8C241814 = .ok (.vcmp 1 4 3 0 2 4) ∧
  decodeWord 0xB1210700 = .ok (.mma 1 4 4 7) ∧ decodeWord 0x74508601 = .ok (.get 5 2 6) ∧ decodeWord 0x78518A00 = .ok (.cpy 5 6 10) ∧
  decodeWord 0x6C00000B = .ok (.acq 3) ∧ decodeWord 0x70518A08 = .ok (.launch 5 6 10) ∧ decodeWord 0xF8310502 = .ok (.evcfg 3 4 5) ∧
  decodeWord 0x54014003 = .ok (.sys 5)

/-- No bit of an encoding is dropped: the bytes of every well-formed instruction decode to it, with its length, whatever follows them. -/
def Obligations.DecodeOfEncode : Prop :=
  ∀ (i : Instr) (rest : List Byte), i.wf = true → isEvent i = false → decodeBytes (encodeBytes i ++ rest) = .ok (i, 4 * (encode i).length)

/-- No two words mean one instruction: a word, or a pair, that decodes is what its instruction encodes to, and that instruction is well formed. -/
def Obligations.EncodeOfDecode : Prop :=
  (∀ (w : Half32) (i : Instr), decodeWord w = .ok i → encode i = [w] ∧ i.wf = true) ∧
  (∀ (p w : Half32) (i : Instr), isPrefix p = true → decodePair p w = .ok i → encode i = [p, w] ∧ i.wf = true)

/-- Nothing comes before the next instruction of the context in focus (R23-R25, R93, R100, R113, R114, R213): it may issue, no commit, no datum it kept, no offer to be made again, no wait for a port or at its barrier, no hold and no `yield` is left over, no trap and no interrupt waits, and no
breakpoint stands there that it has not just reported. -/
def Claims.free (s : State) : Prop :=
  let x := s.task s.focus
  x.issues = true ∧ (x.committed = false ∨ x.shadow = []) ∧ (∀ (h : Nat) (_ : h < 16), (x.p[h]).all (fun r => r.landing.isNone && r.again.isNone) = true) ∧ x.portWait = none ∧
  (∀ b ∈ x.bars, b.pc ≠ x.here ∨ b.nest ≠ x.nest) ∧ ((x.holdReq = false ∧ x.holdDbg = false ∧ x.holdSys = false) ∨ x.reply ≠ none) ∧ x.yielded = none ∧ x.pendingTrap = none ∧
  (x.irqs = [] ∨ x.nest = true ∨ (s.job x.job).desc.trapEntry = 0 ∨ x.reply ≠ none) ∧ (x.here ∉ x.brk ∨ x.skipStop.getLsbD 0 = true)

/-- A step runs the decoded instruction (R59, R60, R276). With no scheduled move and the device not stopped, the context in focus issues; where it may, with nothing pending at its boundary, and the bytes at its PC decode to an instruction, the step is
`exec` of that instruction in the state after the fetch, which only notes the page's attributes and, for the tasks of the core in `yield`, that this one has issued. In a repeat frame it is the frame's instruction. A scheduled move comes first: an issue of a
context, or an event. In a device that has stopped nothing issues, and no move has an effect but power-on and what its mailboxes answer (R337). Around it, only the search cycles of idle cores are counted. -/
def Obligations.StepRunsDecoded : Prop :=
  (∀ (s : State), let x := s.task s.focus; s.schedule = [] → s.boot.fail = false → Claims.free s →
    (∀ b1 i, x.frame = none → s.fetchWord s.focus x.pc.toNat = .ok b1 → isPrefix (asWord b1) = false → decodeBytes b1 = .ok (i, 4) → step s = timed s (exec i s.fetched)) ∧
    (∀ b1 b2 i, x.frame = none → s.fetchWord s.focus x.pc.toNat = .ok b1 → isPrefix (asWord b1) = true → s.fetchWord s.focus (x.pc.toNat + 4) = .ok b2 →
      decodeBytes (b1 ++ b2) = .ok (i, 8) → step s = timed s (exec i s.fetched)) ∧
    (∀ f i, x.frame = some f → f.instr = some i → step s = timed s (exec i s.noteIssue)) ∧
    (∀ c, let y := s.fetched.task c; { y with yielded := none } = { s.task c with yielded := none } ∧
      ((s.task c).yielded = none → y.yielded = none) ∧ (coreOf c ≠ coreOf s.focus → y.yielded = (s.task c).yielded)) ∧
    s.fetched.cores = s.cores ∧ s.fetched.l2 = s.l2 ∧ s.fetched.hbm = s.hbm) ∧
  (∀ (s : State) (t : Nat) (r : List Move), s.boot.fail = false → s.schedule = .issue t :: r → step s = timed { s with schedule := r } (issueStep { s with schedule := r, focus := t })) ∧
  (∀ (s : State) (i : Instr) (r : List Move), s.boot.fail = false ∨ i = .coldStart → s.schedule = .event i :: r → isEvent i = true →
    step s = timed { s with schedule := r } (exec i { s with schedule := r })) ∧
  (∀ (s : State), s.boot.fail = true → (s.schedule = [] → step s = .next s) ∧
    ∀ m r, s.schedule = m :: r → m.afterStop = false → step s = .next { s with schedule := r }) ∧
  (∀ (s t : State), ∃ cs, timed s (.next t) = .next { t with cores := cs } ∧ ∀ c, { ({ t with cores := cs }.core c) with searchCycles := 0 } = { t.core c with searchCycles := 0 })

/-- A word that no instruction has (R74): a task of a core with extension D, or a word that asks for none, traps ILLEGAL with the word, or the pair, in TRAPVAL, when it issues, at once or, where a halt is asked for, at its next issue (R113); a word of a reserved major, a `cmp` code from 10 on, a Test operation from 6 on, the shift
selector 3, and a prefix before a word that takes none decode to no instruction. -/
def Obligations.IllegalWords : Prop :=
  (∀ (s : State) (v : Word) (d : Bool), let x := s.task s.focus; s.schedule = [] → s.boot.fail = false → Claims.free s → x.frame = none → s.fetch s.focus x.pc.toNat = .ok (.bad v d) →
    (d = false ∨ quadIndex (coreOf s.focus) = 0 → (x.halt = none → step s = timed s (.next (s.deliver s.focus x.here 1 0 v none))) ∧
      (x.halt ≠ none → ∃ t i, step s = .next t ∧ (t.task s.focus).pendingTrap = some (x.here, 1, 0, v, i) ∧ (t.task s.focus).pc = x.pc)) ∧
    (d = true → quadIndex (coreOf s.focus) ≠ 0 → step s = timed s (.next (s.startMigration s.focus (quadCore (quadOf (coreOf s.focus)) 0) true)))) ∧
  (∀ (w : Half32), (fld w 26 6 = 0 ∨ fld w 26 6 = 0x07 ∨ (0x0C ≤ (fld w 26 6).toNat ∧ (fld w 26 6).toNat ≤ 0x0F) ∨ fld w 26 6 = 0x2E ∨ fld w 26 6 = 0x2F ∨ fld w 26 6 = 0x32 ∨ fld w 26 6 = 0x33 ∨
    (0x34 ≤ (fld w 26 6).toNat ∧ (fld w 26 6).toNat ≤ 0x3D) ∨
    (fld w 26 6 = 0x05 ∧ 0x0A ≤ (fld w 0 8).toNat ∧ fld w 0 8 ≠ 0x10) ∨ (fld w 26 6 = 0x13 ∧ 6 ≤ (fld w 17 3).toNat) ∨ (fld w 26 6 = 0x09 ∧ fld w 12 2 = 3)) →
    ∀ i, decodeWord w ≠ .ok i) ∧
  (∀ (p w : Half32), let m := (fld w 26 6).toNat
    m ∉ [0x08, 0x0A, 0x16, 0x17, 0x18] → (m < 0x27 ∨ 0x2B < m) → ∀ i, decodePair p w ≠ .ok i)

/-! ### Reset and the invariant of memory (R8, R116, R134, R228-R231, R239, R256, R262, R329, R336, R350, R351) -/

/-- What reset leaves, where the manual gives a value: every core's BANKMAP, RINGWAIT, deque banks, rings and crossbar with its terms, counters, gates and crossing addresses; QPOOL, the guard entries and the flags of a quad; DIECLK, LAMPORT and the route table of a die; MIGTHR and the notification
queue; no task, no job, and a device whose start has not begun. -/
def Obligations.Reset : Prop :=
  (∀ c b, let k := State.reset.core c
    k.ringwait = 4096 ∧ (∀ (e : Nat) (_ : e < 32), k.rings[e] = none) ∧ k.job = none ∧ k.dequeBase = 320 ∧ k.dequeBanks = 16 ∧
    k.xbar.ovf = 0 ∧ (∀ (n : Nat) (_ : n < 32), k.xbar.terms[n] = ⟨0, false, 0, false, 0⟩) ∧ (∀ (n : Nat) (_ : n < 16), k.xbar.counters[n] = 0) ∧
    k.xbar.men = false ∧ k.xbar.mctr = 0 ∧ k.xbar.cen = false ∧ k.xbar.cctr = 0 ∧ (∀ (n : Nat) (_ : n < 8), k.xbar.cross[n] = 0) ∧
    (b < 384 → k.bankmap.toNat / 4 ^ b % 4 = if b < 256 then 0 else if b < 320 then 1 else if b < 352 then 2 else 3)) ∧
  (∀ q, let k := State.reset.quad q; k.qpool = 0 ∧ k.qflags = 0 ∧ (∀ (e : Nat) (_ : e < 4), k.guards[e] = none) ∧ (∀ (e : Nat) (_ : e < 16), k.cas[e] = none)) ∧
  (∀ d, let k := State.reset.die d; k.dieclk = 0 ∧ k.lamport = 0 ∧ k.dflags = 0 ∧ k.tracectl = 0 ∧ k.routes.toList = [0, 1, 0, 0, 2, 0, 0, 0]) ∧
  (∀ t, State.reset.task t = Task.empty) ∧ Task.empty.life = .free ∧ Task.empty.trapCause = 0 ∧ Task.empty.fflags = 0 ∧ Task.empty.ftrapen = 0 ∧ Task.empty.round = 0 ∧
  State.reset.conf.migthr = 256 ∧ State.reset.mqHead = 0 ∧ State.reset.mqTail = 0 ∧ State.reset.mqOvf = 0 ∧ State.reset.boot.stage = 0 ∧ State.reset.boot.done = false ∧ State.reset.boot.fail = false

/-- Every memory of a machine is in its canonical form: the banks of its cores, the HBM, what other packages hold of its pages, and the banks saved with a swapped team, which lie within the team's run. -/
def Claims.memoriesOk (s : State) : Prop :=
  (∀ c k, (c, k) ∈ s.cores → k.mem.wf = true) ∧ s.hbm.wf = true ∧ (∀ p m, (p, m) ∈ s.peerMem → m.wf = true) ∧
  ∀ n t, (n, t) ∈ s.teams → ∀ c m, (c, m) ∈ t.banks → m.wf = true ∧ ∀ e ∈ m.cells, t.bank ≤ e.1 / 4096 ∧ e.1 / 4096 < t.bank + t.scr

/-- Reset has every memory in its canonical form. -/
def Obligations.ResetMemories : Prop := Claims.memoriesOk State.reset

/-- Every step keeps every memory in its canonical form, from every state that has it: whatever the instruction or the event. -/
def Obligations.StepKeepsMemories : Prop := ∀ s t : State, Claims.memoriesOk s → step s = .next t → Claims.memoriesOk t
end

