-- ==== Sys2Proof/Laws/Tables.lean ====
section
/-! SUPPORT. Laws of tables, vectors and memories: a read after a write, a write after a write, and that every memory operation keeps
the canonical form. -/

namespace Sys2Proof.Machine

/-! ### Tables -/

@[simp] theorem tfind_tput_same {α : Type} (t : Tbl α) (n : Nat) (a : α) : tfind (tput t n a) n = some a := by
  induction t with
  | nil => simp [tput, tfind]
  | cons e r ih =>
    obtain ⟨k, v⟩ := e
    simp only [tput]
    split
    · simp [tfind]
    · split
      · simp [tfind]
      · simp [tfind, *]

theorem tfind_tput_ne {α : Type} (t : Tbl α) {m n : Nat} (a : α) (h : m ≠ n) : tfind (tput t n a) m = tfind t m := by
  induction t with
  | nil => simp [tput, tfind, Ne.symm h]
  | cons e r ih =>
    obtain ⟨k, v⟩ := e
    simp only [tput]
    split
    · subst_vars; simp [tfind, Ne.symm h]
    · split
      · simp [tfind, Ne.symm h]
      · simp [tfind, ih]

@[simp] theorem tget_tput_same {α : Type} (t : Tbl α) (n : Nat) (a d : α) : tget (tput t n a) n d = a := by simp [tget]

theorem tget_tput_ne {α : Type} (t : Tbl α) {m n : Nat} (a d : α) (h : m ≠ n) : tget (tput t n a) m d = tget t m d := by
  simp [tget, tfind_tput_ne t a h]

@[simp] theorem tput_tput {α : Type} (t : Tbl α) (n : Nat) (a b : α) : tput (tput t n a) n b = tput t n b := by
  induction t with
  | nil => simp [tput]
  | cons e r ih =>
    obtain ⟨k, v⟩ := e
    simp only [tput]
    split
    · simp [tput]
    · split
      · simp [tput]
      · simp [tput, *]

/-! ### Vectors -/

theorem vget_vput_same {α : Type} {n : Nat} (v : Vector α n) {i : Nat} (a d : α) (h : i < n) : vget (vput v i a) i d = a := by
  simp [vget, vput, h]

theorem vget_vput_ne {α : Type} {n : Nat} (v : Vector α n) {i j : Nat} (a d : α) (h : i ≠ j) : vget (vput v i a) j d = vget v j d := by
  unfold vget vput
  by_cases hi : i < n <;> by_cases hj : j < n <;> simp [hi, hj, Vector.getElem_set_ne, h]

/-! ### Memories -/

/-- Cells from a bound on read 0 below it. -/
theorem cellByte_below {l : List Host.Cell} {lo a : Nat} (h : cellsFrom lo l = true) (ha : a < lo) : cellByte l a = 0 := by
  induction l generalizing lo with
  | nil => rfl
  | cons e r ih =>
    obtain ⟨k, b⟩ := e
    simp [cellsFrom] at h
    rw [cellByte, if_neg (by omega)]
    exact ih h.2 (by omega)

/-- The canonical form holds from any lower bound. -/
theorem cellsFrom_lower {l : List Host.Cell} {lo lo' : Nat} (h : cellsFrom lo l = true) (hl : lo' ≤ lo) : cellsFrom lo' l = true := by
  cases l with
  | nil => rfl
  | cons e r =>
    obtain ⟨k, b⟩ := e
    simp [cellsFrom] at h ⊢
    exact ⟨⟨by omega, h.1.2⟩, h.2⟩

/-- Writing a byte keeps the canonical form. -/
theorem cellPut_wf {l : List Host.Cell} {lo a : Nat} (b : Byte) (h : cellsFrom lo l = true) (ha : lo ≤ a) :
    cellsFrom lo (cellPut l a b) = true := by
  induction l generalizing lo with
  | nil =>
    rw [cellPut]
    split
    · rfl
    · rename_i hb; simp only [cellsFrom, Bool.and_eq_true, decide_eq_true_eq, bne_iff_ne]; exact ⟨⟨ha, hb⟩, trivial⟩
  | cons e r ih =>
    obtain ⟨k, c⟩ := e
    have h0 := h
    simp only [cellsFrom, Bool.and_eq_true, decide_eq_true_eq, bne_iff_ne] at h
    obtain ⟨⟨h1, h2⟩, h3⟩ := h
    simp only [cellPut]
    split
    · split
      · exact h0
      · rename_i hk hb
        simp only [cellsFrom, Bool.and_eq_true, decide_eq_true_eq, bne_iff_ne]
        exact ⟨⟨ha, hb⟩, ⟨⟨by omega, h2⟩, h3⟩⟩
    · split
      · subst_vars
        split
        · exact cellsFrom_lower h3 (by omega)
        · rename_i hb
          simp only [cellsFrom, Bool.and_eq_true, decide_eq_true_eq, bne_iff_ne]
          exact ⟨⟨ha, hb⟩, h3⟩
      · simp only [cellsFrom, Bool.and_eq_true, decide_eq_true_eq, bne_iff_ne]
        exact ⟨⟨h1, h2⟩, ih h3 (by omega)⟩

/-- A read after a write to the same place gives the value written. -/
theorem cellByte_cellPut_same {l : List Host.Cell} {lo : Nat} (a : Nat) (b : Byte) (h : cellsFrom lo l = true) :
    cellByte (cellPut l a b) a = b := by
  induction l generalizing lo with
  | nil =>
    rw [cellPut]
    split
    · rename_i hb; exact hb.symm
    · rw [cellByte, if_pos rfl]
  | cons e r ih =>
    obtain ⟨k, c⟩ := e
    have h0 := h
    simp [cellsFrom] at h
    obtain ⟨⟨h1, h2⟩, h3⟩ := h
    simp only [cellPut]
    split
    · split
      · rename_i hk hb
        rw [hb, cellByte, if_neg (by omega)]
        exact cellByte_below h3 (by omega)
      · simp [cellByte]
    · split
      · subst_vars
        split
        · rename_i hb; rw [hb]; exact cellByte_below h3 (by omega)
        · simp [cellByte]
      · rw [cellByte, if_neg (by omega)]; exact ih h3

/-- A write leaves every other place alone. -/
theorem cellByte_cellPut_ne {l : List Host.Cell} {a c : Nat} (b : Byte) (h : c ≠ a) : cellByte (cellPut l a b) c = cellByte l c := by
  induction l with
  | nil =>
    rw [cellPut]
    split
    · rfl
    · simp [cellByte, Ne.symm h]
  | cons e r ih =>
    obtain ⟨k, d⟩ := e
    simp only [cellPut]
    split
    · split
      · rfl
      · rw [cellByte, if_neg (Ne.symm h)]
    · split
      · subst_vars
        split
        · rw [cellByte, if_neg (Ne.symm h)]
        · rw [cellByte, cellByte, if_neg (Ne.symm h), if_neg (Ne.symm h)]
      · rw [cellByte, cellByte, ih]

theorem Memory.put_wf {m : Memory} (a : Nat) (b : Byte) (h : m.wf = true) : (m.put a b).wf = true := cellPut_wf b h (Nat.zero_le a)

theorem Memory.byte_put_same {m : Memory} (a : Nat) (b : Byte) (h : m.wf = true) : (m.put a b).byte a = b := cellByte_cellPut_same a b h

theorem Memory.byte_put_ne (m : Memory) {a c : Nat} (b : Byte) (h : c ≠ a) : (m.put a b).byte c = m.byte c := cellByte_cellPut_ne b h

theorem Memory.putBytes_wf {m : Memory} (a : Nat) (bs : List Byte) (h : m.wf = true) : (m.putBytes a bs).wf = true := by
  induction bs generalizing m a with
  | nil => exact h
  | cons b r ih => exact ih (a + 1) (Memory.put_wf a b h)

/-- Bytes outside the written range read as before. -/
theorem Memory.byte_putBytes_out (m : Memory) (a : Nat) (bs : List Byte) {c : Nat} (h : c < a ∨ a + bs.length ≤ c) :
    (m.putBytes a bs).byte c = m.byte c := by
  induction bs generalizing m a with
  | nil => rfl
  | cons b r ih =>
    simp at h
    rw [Memory.putBytes, ih _ _ (by omega), Memory.byte_put_ne _ _ (by omega)]

/-- Bytes of the written range read what was written. -/
theorem Memory.byte_putBytes_in {m : Memory} (a : Nat) (bs : List Byte) {j : Nat} (h : m.wf = true) (hj : j < bs.length) :
    (m.putBytes a bs).byte (a + j) = bs[j] := by
  induction bs generalizing m a j with
  | nil => simp at hj
  | cons b r ih =>
    rw [Memory.putBytes]
    cases j with
    | zero => rw [Memory.byte_putBytes_out _ _ _ (by omega)]; exact Memory.byte_put_same _ _ h
    | succ j =>
      have := ih (a + 1) (Memory.put_wf a b h) (j := j) (by simpa using hj)
      simpa [Nat.add_assoc, Nat.add_comm 1] using this

end Sys2Proof.Machine
end

