-- ==== Sys2Proof/Laws/State.lean ====
section
/-! SUPPORT. One lemma per field per update, and the laws of the accessors: a proof never unfolds a record update. -/

namespace Sys2Proof.Machine

/-! ### The updates in their normal form -/

@[simp] theorem State.modTask_eq (s : State) (t : Nat) (f : Task → Task) : s.modTask t f = s.setTask t (f (s.task t)) := rfl
@[simp] theorem State.onMe_eq (s : State) (f : Task → Task) : s.onMe f = s.setTask s.focus (f (s.task s.focus)) := rfl
@[simp] theorem State.me_eq (s : State) : s.me = s.task s.focus := rfl
@[simp] theorem State.setG_eq (s : State) (d : Gpr) (v : Word) : s.setG d v = s.setTask s.focus ((s.task s.focus).setG d v) := rfl
@[simp] theorem State.retire_eq (s : State) (n : Nat) : s.retire n = s.setTask s.focus (Task.next n (s.task s.focus)) := rfl
@[simp] theorem State.g_eq (s : State) (r : Gpr) : s.g r = (s.task s.focus).getG r := rfl
@[simp] theorem State.myCore_eq (s : State) : s.myCore = coreOf s.focus := rfl

/-! ### Accessors after updates -/

@[simp] theorem State.setTask_setTask (s : State) (t : Nat) (x y : Task) : (s.setTask t x).setTask t y = s.setTask t y := by
  simp [State.setTask]
@[simp] theorem State.task_setTask (s : State) (t : Nat) (x : Task) : (s.setTask t x).task t = x := by simp [State.task, State.setTask]
theorem State.task_setTask_ne (s : State) {t u : Nat} (x : Task) (h : u ≠ t) : (s.setTask t x).task u = s.task u := by
  simp [State.task, State.setTask, tget_tput_ne _ _ _ h]
@[simp] theorem State.core_setTask (s : State) (t : Nat) (x : Task) (c : Nat) : (s.setTask t x).core c = s.core c := rfl
@[simp] theorem State.quad_setTask (s : State) (t : Nat) (x : Task) (q : Nat) : (s.setTask t x).quad q = s.quad q := rfl
@[simp] theorem State.die_setTask (s : State) (t : Nat) (x : Task) (d : Nat) : (s.setTask t x).die d = s.die d := rfl
@[simp] theorem State.job_setTask (s : State) (t : Nat) (x : Task) (j : Nat) : (s.setTask t x).job j = s.job j := rfl
@[simp] theorem State.asid_setTask (s : State) (t : Nat) (x : Task) (j : Nat) : (s.setTask t x).asid j = s.asid j := rfl
@[simp] theorem State.core_modCore (s : State) (c : Nat) (f : Core → Core) : (s.modCore c f).core c = f (s.core c) := by
  simp [State.core, State.modCore]
theorem State.core_modCore_ne (s : State) {c e : Nat} (f : Core → Core) (h : e ≠ c) : (s.modCore c f).core e = s.core e := by
  simp [State.core, State.modCore, tget_tput_ne _ _ _ h]
@[simp] theorem State.task_modCore (s : State) (c : Nat) (f : Core → Core) (t : Nat) : (s.modCore c f).task t = s.task t := rfl
@[simp] theorem State.quad_modCore (s : State) (c : Nat) (f : Core → Core) (q : Nat) : (s.modCore c f).quad q = s.quad q := rfl
@[simp] theorem State.die_modCore (s : State) (c : Nat) (f : Core → Core) (d : Nat) : (s.modCore c f).die d = s.die d := rfl
@[simp] theorem State.job_modCore (s : State) (c : Nat) (f : Core → Core) (j : Nat) : (s.modCore c f).job j = s.job j := rfl
@[simp] theorem State.quad_modQuad (s : State) (q : Nat) (f : Quad → Quad) : (s.modQuad q f).quad q = f (s.quad q) := by
  simp [State.quad, State.modQuad]
theorem State.quad_modQuad_ne (s : State) {q e : Nat} (f : Quad → Quad) (h : e ≠ q) : (s.modQuad q f).quad e = s.quad e := by
  simp [State.quad, State.modQuad, tget_tput_ne _ _ _ h]
@[simp] theorem State.task_modQuad (s : State) (q : Nat) (f : Quad → Quad) (t : Nat) : (s.modQuad q f).task t = s.task t := rfl
@[simp] theorem State.core_modQuad (s : State) (q : Nat) (f : Quad → Quad) (c : Nat) : (s.modQuad q f).core c = s.core c := rfl
@[simp] theorem State.die_modQuad (s : State) (q : Nat) (f : Quad → Quad) (d : Nat) : (s.modQuad q f).die d = s.die d := rfl
@[simp] theorem State.job_modQuad (s : State) (q : Nat) (f : Quad → Quad) (j : Nat) : (s.modQuad q f).job j = s.job j := rfl
@[simp] theorem State.die_modDie (s : State) (d : Nat) (f : Die → Die) : (s.modDie d f).die d = f (s.die d) := by
  simp [State.die, State.modDie]
theorem State.die_modDie_ne (s : State) {d e : Nat} (f : Die → Die) (h : e ≠ d) : (s.modDie d f).die e = s.die e := by
  simp [State.die, State.modDie, tget_tput_ne _ _ _ h]
@[simp] theorem State.task_modDie (s : State) (d : Nat) (f : Die → Die) (t : Nat) : (s.modDie d f).task t = s.task t := rfl
@[simp] theorem State.core_modDie (s : State) (d : Nat) (f : Die → Die) (c : Nat) : (s.modDie d f).core c = s.core c := rfl
@[simp] theorem State.quad_modDie (s : State) (d : Nat) (f : Die → Die) (q : Nat) : (s.modDie d f).quad q = s.quad q := rfl
@[simp] theorem State.job_modDie (s : State) (d : Nat) (f : Die → Die) (j : Nat) : (s.modDie d f).job j = s.job j := rfl
@[simp] theorem State.task_notify (s : State) (n : Notice) (t : Nat) : (s.notify n).task t = s.task t := rfl
@[simp] theorem State.core_notify (s : State) (n : Notice) (c : Nat) : (s.notify n).core c = s.core c := rfl
@[simp] theorem State.quad_notify (s : State) (n : Notice) (q : Nat) : (s.notify n).quad q = s.quad q := rfl
@[simp] theorem State.die_notify (s : State) (n : Notice) (d : Nat) : (s.notify n).die d = s.die d := rfl
@[simp] theorem State.job_notify (s : State) (n : Notice) (j : Nat) : (s.notify n).job j = s.job j := rfl

/-! ### Fields after `setTask` -/

@[simp] theorem State.setTask_tasks (s : State) (t : Nat) (x : Task) : (s.setTask t x).tasks = tput s.tasks t x := rfl
@[simp] theorem State.setTask_cores (s : State) (t : Nat) (x : Task) : (s.setTask t x).cores = s.cores := rfl
@[simp] theorem State.setTask_quads (s : State) (t : Nat) (x : Task) : (s.setTask t x).quads = s.quads := rfl
@[simp] theorem State.setTask_dies (s : State) (t : Nat) (x : Task) : (s.setTask t x).dies = s.dies := rfl
@[simp] theorem State.setTask_l2 (s : State) (t : Nat) (x : Task) : (s.setTask t x).l2 = s.l2 := rfl
@[simp] theorem State.setTask_l2Partitioned (s : State) (t : Nat) (x : Task) : (s.setTask t x).l2Partitioned = s.l2Partitioned := rfl
@[simp] theorem State.setTask_hot (s : State) (t : Nat) (x : Task) : (s.setTask t x).hot = s.hot := rfl
@[simp] theorem State.setTask_invalidated (s : State) (t : Nat) (x : Task) : (s.setTask t x).invalidated = s.invalidated := rfl
@[simp] theorem State.setTask_merges (s : State) (t : Nat) (x : Task) : (s.setTask t x).merges = s.merges := rfl
@[simp] theorem State.setTask_windows (s : State) (t : Nat) (x : Task) : (s.setTask t x).windows = s.windows := rfl
@[simp] theorem State.setTask_hbm (s : State) (t : Nat) (x : Task) : (s.setTask t x).hbm = s.hbm := rfl
@[simp] theorem State.setTask_queues (s : State) (t : Nat) (x : Task) : (s.setTask t x).queues = s.queues := rfl
@[simp] theorem State.setTask_parkedRecs (s : State) (t : Nat) (x : Task) : (s.setTask t x).parkedRecs = s.parkedRecs := rfl
@[simp] theorem State.setTask_path (s : State) (t : Nat) (x : Task) : (s.setTask t x).path = s.path := rfl
@[simp] theorem State.setTask_hist (s : State) (t : Nat) (x : Task) : (s.setTask t x).hist = s.hist := rfl
@[simp] theorem State.setTask_views (s : State) (t : Nat) (x : Task) : (s.setTask t x).views = s.views := rfl
@[simp] theorem State.setTask_atSwitch (s : State) (t : Nat) (x : Task) : (s.setTask t x).atSwitch = s.atSwitch := rfl
@[simp] theorem State.setTask_msgs (s : State) (t : Nat) (x : Task) : (s.setTask t x).msgs = s.msgs := rfl
@[simp] theorem State.setTask_nextId (s : State) (t : Nat) (x : Task) : (s.setTask t x).nextId = s.nextId := rfl
@[simp] theorem State.setTask_tlbs (s : State) (t : Nat) (x : Task) : (s.setTask t x).tlbs = s.tlbs := rfl
@[simp] theorem State.setTask_attrs (s : State) (t : Nat) (x : Task) : (s.setTask t x).attrs = s.attrs := rfl
@[simp] theorem State.setTask_peers (s : State) (t : Nat) (x : Task) : (s.setTask t x).peers = s.peers := rfl
@[simp] theorem State.setTask_mqHead (s : State) (t : Nat) (x : Task) : (s.setTask t x).mqHead = s.mqHead := rfl
@[simp] theorem State.setTask_mqTail (s : State) (t : Nat) (x : Task) : (s.setTask t x).mqTail = s.mqTail := rfl
@[simp] theorem State.setTask_mqOvf (s : State) (t : Nat) (x : Task) : (s.setTask t x).mqOvf = s.mqOvf := rfl
@[simp] theorem State.setTask_owed (s : State) (t : Nat) (x : Task) : (s.setTask t x).owed = s.owed := rfl
@[simp] theorem State.setTask_faultQ (s : State) (t : Nat) (x : Task) : (s.setTask t x).faultQ = s.faultQ := rfl
@[simp] theorem State.setTask_notices (s : State) (t : Nat) (x : Task) : (s.setTask t x).notices = s.notices := rfl
@[simp] theorem State.setTask_jobs (s : State) (t : Nat) (x : Task) : (s.setTask t x).jobs = s.jobs := rfl
@[simp] theorem State.setTask_grids (s : State) (t : Nat) (x : Task) : (s.setTask t x).grids = s.grids := rfl
@[simp] theorem State.setTask_teams (s : State) (t : Nat) (x : Task) : (s.setTask t x).teams = s.teams := rfl
@[simp] theorem State.setTask_swaps (s : State) (t : Nat) (x : Task) : (s.setTask t x).swaps = s.swaps := rfl
@[simp] theorem State.setTask_pkgBars (s : State) (t : Nat) (x : Task) : (s.setTask t x).pkgBars = s.pkgBars := rfl
@[simp] theorem State.setTask_podBars (s : State) (t : Nat) (x : Task) : (s.setTask t x).podBars = s.podBars := rfl
@[simp] theorem State.setTask_colls (s : State) (t : Nat) (x : Task) : (s.setTask t x).colls = s.colls := rfl
@[simp] theorem State.setTask_collSeq (s : State) (t : Nat) (x : Task) : (s.setTask t x).collSeq = s.collSeq := rfl
@[simp] theorem State.setTask_raises (s : State) (t : Nat) (x : Task) : (s.setTask t x).raises = s.raises := rfl
@[simp] theorem State.setTask_boot (s : State) (t : Nat) (x : Task) : (s.setTask t x).boot = s.boot := rfl
@[simp] theorem State.setTask_image (s : State) (t : Nat) (x : Task) : (s.setTask t x).image = s.image := rfl
@[simp] theorem State.setTask_conf (s : State) (t : Nat) (x : Task) : (s.setTask t x).conf = s.conf := rfl
@[simp] theorem State.setTask_rollback (s : State) (t : Nat) (x : Task) : (s.setTask t x).rollback = s.rollback := rfl
@[simp] theorem State.setTask_tardar (s : State) (t : Nat) (x : Task) : (s.setTask t x).tardar = s.tardar := rfl
@[simp] theorem State.setTask_wbase (s : State) (t : Nat) (x : Task) : (s.setTask t x).wbase = s.wbase := rfl
@[simp] theorem State.setTask_svcTrace (s : State) (t : Nat) (x : Task) : (s.setTask t x).svcTrace = s.svcTrace := rfl
@[simp] theorem State.setTask_hostReplies (s : State) (t : Nat) (x : Task) : (s.setTask t x).hostReplies = s.hostReplies := rfl
@[simp] theorem State.setTask_halfClock (s : State) (t : Nat) (x : Task) : (s.setTask t x).halfClock = s.halfClock := rfl
@[simp] theorem State.setTask_links (s : State) (t : Nat) (x : Task) : (s.setTask t x).links = s.links := rfl
@[simp] theorem State.setTask_unreachable (s : State) (t : Nat) (x : Task) : (s.setTask t x).unreachable = s.unreachable := rfl
@[simp] theorem State.setTask_peerMem (s : State) (t : Nat) (x : Task) : (s.setTask t x).peerMem = s.peerMem := rfl
@[simp] theorem State.setTask_moves (s : State) (t : Nat) (x : Task) : (s.setTask t x).moves = s.moves := rfl
@[simp] theorem State.setTask_pkg (s : State) (t : Nat) (x : Task) : (s.setTask t x).pkg = s.pkg := rfl
@[simp] theorem State.setTask_cycle (s : State) (t : Nat) (x : Task) : (s.setTask t x).cycle = s.cycle := rfl
@[simp] theorem State.setTask_focus (s : State) (t : Nat) (x : Task) : (s.setTask t x).focus = s.focus := rfl
@[simp] theorem State.setTask_schedule (s : State) (t : Nat) (x : Task) : (s.setTask t x).schedule = s.schedule := rfl
@[simp] theorem State.setTask_choices (s : State) (t : Nat) (x : Task) : (s.setTask t x).choices = s.choices := rfl
@[simp] theorem State.setTask_tick (s : State) (t : Nat) (x : Task) : (s.setTask t x).tick = s.tick := rfl

/-! ### Fields after `modCore` -/

@[simp] theorem State.modCore_tasks (s : State) (c : Nat) (f : Core → Core) : (s.modCore c f).tasks = s.tasks := rfl
@[simp] theorem State.modCore_cores (s : State) (c : Nat) (f : Core → Core) : (s.modCore c f).cores = tput s.cores c (f (s.core c)) := rfl
@[simp] theorem State.modCore_quads (s : State) (c : Nat) (f : Core → Core) : (s.modCore c f).quads = s.quads := rfl
@[simp] theorem State.modCore_dies (s : State) (c : Nat) (f : Core → Core) : (s.modCore c f).dies = s.dies := rfl
@[simp] theorem State.modCore_l2 (s : State) (c : Nat) (f : Core → Core) : (s.modCore c f).l2 = s.l2 := rfl
@[simp] theorem State.modCore_l2Partitioned (s : State) (c : Nat) (f : Core → Core) : (s.modCore c f).l2Partitioned = s.l2Partitioned := rfl
@[simp] theorem State.modCore_hot (s : State) (c : Nat) (f : Core → Core) : (s.modCore c f).hot = s.hot := rfl
@[simp] theorem State.modCore_invalidated (s : State) (c : Nat) (f : Core → Core) : (s.modCore c f).invalidated = s.invalidated := rfl
@[simp] theorem State.modCore_merges (s : State) (c : Nat) (f : Core → Core) : (s.modCore c f).merges = s.merges := rfl
@[simp] theorem State.modCore_windows (s : State) (c : Nat) (f : Core → Core) : (s.modCore c f).windows = s.windows := rfl
@[simp] theorem State.modCore_hbm (s : State) (c : Nat) (f : Core → Core) : (s.modCore c f).hbm = s.hbm := rfl
@[simp] theorem State.modCore_queues (s : State) (c : Nat) (f : Core → Core) : (s.modCore c f).queues = s.queues := rfl
@[simp] theorem State.modCore_parkedRecs (s : State) (c : Nat) (f : Core → Core) : (s.modCore c f).parkedRecs = s.parkedRecs := rfl
@[simp] theorem State.modCore_path (s : State) (c : Nat) (f : Core → Core) : (s.modCore c f).path = s.path := rfl
@[simp] theorem State.modCore_hist (s : State) (c : Nat) (f : Core → Core) : (s.modCore c f).hist = s.hist := rfl
@[simp] theorem State.modCore_views (s : State) (c : Nat) (f : Core → Core) : (s.modCore c f).views = s.views := rfl
@[simp] theorem State.modCore_atSwitch (s : State) (c : Nat) (f : Core → Core) : (s.modCore c f).atSwitch = s.atSwitch := rfl
@[simp] theorem State.modCore_msgs (s : State) (c : Nat) (f : Core → Core) : (s.modCore c f).msgs = s.msgs := rfl
@[simp] theorem State.modCore_nextId (s : State) (c : Nat) (f : Core → Core) : (s.modCore c f).nextId = s.nextId := rfl
@[simp] theorem State.modCore_tlbs (s : State) (c : Nat) (f : Core → Core) : (s.modCore c f).tlbs = s.tlbs := rfl
@[simp] theorem State.modCore_attrs (s : State) (c : Nat) (f : Core → Core) : (s.modCore c f).attrs = s.attrs := rfl
@[simp] theorem State.modCore_peers (s : State) (c : Nat) (f : Core → Core) : (s.modCore c f).peers = s.peers := rfl
@[simp] theorem State.modCore_mqHead (s : State) (c : Nat) (f : Core → Core) : (s.modCore c f).mqHead = s.mqHead := rfl
@[simp] theorem State.modCore_mqTail (s : State) (c : Nat) (f : Core → Core) : (s.modCore c f).mqTail = s.mqTail := rfl
@[simp] theorem State.modCore_mqOvf (s : State) (c : Nat) (f : Core → Core) : (s.modCore c f).mqOvf = s.mqOvf := rfl
@[simp] theorem State.modCore_owed (s : State) (c : Nat) (f : Core → Core) : (s.modCore c f).owed = s.owed := rfl
@[simp] theorem State.modCore_faultQ (s : State) (c : Nat) (f : Core → Core) : (s.modCore c f).faultQ = s.faultQ := rfl
@[simp] theorem State.modCore_notices (s : State) (c : Nat) (f : Core → Core) : (s.modCore c f).notices = s.notices := rfl
@[simp] theorem State.modCore_jobs (s : State) (c : Nat) (f : Core → Core) : (s.modCore c f).jobs = s.jobs := rfl
@[simp] theorem State.modCore_grids (s : State) (c : Nat) (f : Core → Core) : (s.modCore c f).grids = s.grids := rfl
@[simp] theorem State.modCore_teams (s : State) (c : Nat) (f : Core → Core) : (s.modCore c f).teams = s.teams := rfl
@[simp] theorem State.modCore_swaps (s : State) (c : Nat) (f : Core → Core) : (s.modCore c f).swaps = s.swaps := rfl
@[simp] theorem State.modCore_pkgBars (s : State) (c : Nat) (f : Core → Core) : (s.modCore c f).pkgBars = s.pkgBars := rfl
@[simp] theorem State.modCore_podBars (s : State) (c : Nat) (f : Core → Core) : (s.modCore c f).podBars = s.podBars := rfl
@[simp] theorem State.modCore_colls (s : State) (c : Nat) (f : Core → Core) : (s.modCore c f).colls = s.colls := rfl
@[simp] theorem State.modCore_collSeq (s : State) (c : Nat) (f : Core → Core) : (s.modCore c f).collSeq = s.collSeq := rfl
@[simp] theorem State.modCore_raises (s : State) (c : Nat) (f : Core → Core) : (s.modCore c f).raises = s.raises := rfl
@[simp] theorem State.modCore_boot (s : State) (c : Nat) (f : Core → Core) : (s.modCore c f).boot = s.boot := rfl
@[simp] theorem State.modCore_image (s : State) (c : Nat) (f : Core → Core) : (s.modCore c f).image = s.image := rfl
@[simp] theorem State.modCore_conf (s : State) (c : Nat) (f : Core → Core) : (s.modCore c f).conf = s.conf := rfl
@[simp] theorem State.modCore_rollback (s : State) (c : Nat) (f : Core → Core) : (s.modCore c f).rollback = s.rollback := rfl
@[simp] theorem State.modCore_tardar (s : State) (c : Nat) (f : Core → Core) : (s.modCore c f).tardar = s.tardar := rfl
@[simp] theorem State.modCore_wbase (s : State) (c : Nat) (f : Core → Core) : (s.modCore c f).wbase = s.wbase := rfl
@[simp] theorem State.modCore_svcTrace (s : State) (c : Nat) (f : Core → Core) : (s.modCore c f).svcTrace = s.svcTrace := rfl
@[simp] theorem State.modCore_hostReplies (s : State) (c : Nat) (f : Core → Core) : (s.modCore c f).hostReplies = s.hostReplies := rfl
@[simp] theorem State.modCore_halfClock (s : State) (c : Nat) (f : Core → Core) : (s.modCore c f).halfClock = s.halfClock := rfl
@[simp] theorem State.modCore_links (s : State) (c : Nat) (f : Core → Core) : (s.modCore c f).links = s.links := rfl
@[simp] theorem State.modCore_unreachable (s : State) (c : Nat) (f : Core → Core) : (s.modCore c f).unreachable = s.unreachable := rfl
@[simp] theorem State.modCore_peerMem (s : State) (c : Nat) (f : Core → Core) : (s.modCore c f).peerMem = s.peerMem := rfl
@[simp] theorem State.modCore_moves (s : State) (c : Nat) (f : Core → Core) : (s.modCore c f).moves = s.moves := rfl
@[simp] theorem State.modCore_pkg (s : State) (c : Nat) (f : Core → Core) : (s.modCore c f).pkg = s.pkg := rfl
@[simp] theorem State.modCore_cycle (s : State) (c : Nat) (f : Core → Core) : (s.modCore c f).cycle = s.cycle := rfl
@[simp] theorem State.modCore_focus (s : State) (c : Nat) (f : Core → Core) : (s.modCore c f).focus = s.focus := rfl
@[simp] theorem State.modCore_schedule (s : State) (c : Nat) (f : Core → Core) : (s.modCore c f).schedule = s.schedule := rfl
@[simp] theorem State.modCore_choices (s : State) (c : Nat) (f : Core → Core) : (s.modCore c f).choices = s.choices := rfl
@[simp] theorem State.modCore_tick (s : State) (c : Nat) (f : Core → Core) : (s.modCore c f).tick = s.tick := rfl

/-! ### Fields after `modQuad` -/

@[simp] theorem State.modQuad_tasks (s : State) (q : Nat) (f : Quad → Quad) : (s.modQuad q f).tasks = s.tasks := rfl
@[simp] theorem State.modQuad_cores (s : State) (q : Nat) (f : Quad → Quad) : (s.modQuad q f).cores = s.cores := rfl
@[simp] theorem State.modQuad_quads (s : State) (q : Nat) (f : Quad → Quad) : (s.modQuad q f).quads = tput s.quads q (f (s.quad q)) := rfl
@[simp] theorem State.modQuad_dies (s : State) (q : Nat) (f : Quad → Quad) : (s.modQuad q f).dies = s.dies := rfl
@[simp] theorem State.modQuad_l2 (s : State) (q : Nat) (f : Quad → Quad) : (s.modQuad q f).l2 = s.l2 := rfl
@[simp] theorem State.modQuad_l2Partitioned (s : State) (q : Nat) (f : Quad → Quad) : (s.modQuad q f).l2Partitioned = s.l2Partitioned := rfl
@[simp] theorem State.modQuad_hot (s : State) (q : Nat) (f : Quad → Quad) : (s.modQuad q f).hot = s.hot := rfl
@[simp] theorem State.modQuad_invalidated (s : State) (q : Nat) (f : Quad → Quad) : (s.modQuad q f).invalidated = s.invalidated := rfl
@[simp] theorem State.modQuad_merges (s : State) (q : Nat) (f : Quad → Quad) : (s.modQuad q f).merges = s.merges := rfl
@[simp] theorem State.modQuad_windows (s : State) (q : Nat) (f : Quad → Quad) : (s.modQuad q f).windows = s.windows := rfl
@[simp] theorem State.modQuad_hbm (s : State) (q : Nat) (f : Quad → Quad) : (s.modQuad q f).hbm = s.hbm := rfl
@[simp] theorem State.modQuad_queues (s : State) (q : Nat) (f : Quad → Quad) : (s.modQuad q f).queues = s.queues := rfl
@[simp] theorem State.modQuad_parkedRecs (s : State) (q : Nat) (f : Quad → Quad) : (s.modQuad q f).parkedRecs = s.parkedRecs := rfl
@[simp] theorem State.modQuad_path (s : State) (q : Nat) (f : Quad → Quad) : (s.modQuad q f).path = s.path := rfl
@[simp] theorem State.modQuad_hist (s : State) (q : Nat) (f : Quad → Quad) : (s.modQuad q f).hist = s.hist := rfl
@[simp] theorem State.modQuad_views (s : State) (q : Nat) (f : Quad → Quad) : (s.modQuad q f).views = s.views := rfl
@[simp] theorem State.modQuad_atSwitch (s : State) (q : Nat) (f : Quad → Quad) : (s.modQuad q f).atSwitch = s.atSwitch := rfl
@[simp] theorem State.modQuad_msgs (s : State) (q : Nat) (f : Quad → Quad) : (s.modQuad q f).msgs = s.msgs := rfl
@[simp] theorem State.modQuad_nextId (s : State) (q : Nat) (f : Quad → Quad) : (s.modQuad q f).nextId = s.nextId := rfl
@[simp] theorem State.modQuad_tlbs (s : State) (q : Nat) (f : Quad → Quad) : (s.modQuad q f).tlbs = s.tlbs := rfl
@[simp] theorem State.modQuad_attrs (s : State) (q : Nat) (f : Quad → Quad) : (s.modQuad q f).attrs = s.attrs := rfl
@[simp] theorem State.modQuad_peers (s : State) (q : Nat) (f : Quad → Quad) : (s.modQuad q f).peers = s.peers := rfl
@[simp] theorem State.modQuad_mqHead (s : State) (q : Nat) (f : Quad → Quad) : (s.modQuad q f).mqHead = s.mqHead := rfl
@[simp] theorem State.modQuad_mqTail (s : State) (q : Nat) (f : Quad → Quad) : (s.modQuad q f).mqTail = s.mqTail := rfl
@[simp] theorem State.modQuad_mqOvf (s : State) (q : Nat) (f : Quad → Quad) : (s.modQuad q f).mqOvf = s.mqOvf := rfl
@[simp] theorem State.modQuad_owed (s : State) (q : Nat) (f : Quad → Quad) : (s.modQuad q f).owed = s.owed := rfl
@[simp] theorem State.modQuad_faultQ (s : State) (q : Nat) (f : Quad → Quad) : (s.modQuad q f).faultQ = s.faultQ := rfl
@[simp] theorem State.modQuad_notices (s : State) (q : Nat) (f : Quad → Quad) : (s.modQuad q f).notices = s.notices := rfl
@[simp] theorem State.modQuad_jobs (s : State) (q : Nat) (f : Quad → Quad) : (s.modQuad q f).jobs = s.jobs := rfl
@[simp] theorem State.modQuad_grids (s : State) (q : Nat) (f : Quad → Quad) : (s.modQuad q f).grids = s.grids := rfl
@[simp] theorem State.modQuad_teams (s : State) (q : Nat) (f : Quad → Quad) : (s.modQuad q f).teams = s.teams := rfl
@[simp] theorem State.modQuad_swaps (s : State) (q : Nat) (f : Quad → Quad) : (s.modQuad q f).swaps = s.swaps := rfl
@[simp] theorem State.modQuad_pkgBars (s : State) (q : Nat) (f : Quad → Quad) : (s.modQuad q f).pkgBars = s.pkgBars := rfl
@[simp] theorem State.modQuad_podBars (s : State) (q : Nat) (f : Quad → Quad) : (s.modQuad q f).podBars = s.podBars := rfl
@[simp] theorem State.modQuad_colls (s : State) (q : Nat) (f : Quad → Quad) : (s.modQuad q f).colls = s.colls := rfl
@[simp] theorem State.modQuad_collSeq (s : State) (q : Nat) (f : Quad → Quad) : (s.modQuad q f).collSeq = s.collSeq := rfl
@[simp] theorem State.modQuad_raises (s : State) (q : Nat) (f : Quad → Quad) : (s.modQuad q f).raises = s.raises := rfl
@[simp] theorem State.modQuad_boot (s : State) (q : Nat) (f : Quad → Quad) : (s.modQuad q f).boot = s.boot := rfl
@[simp] theorem State.modQuad_image (s : State) (q : Nat) (f : Quad → Quad) : (s.modQuad q f).image = s.image := rfl
@[simp] theorem State.modQuad_conf (s : State) (q : Nat) (f : Quad → Quad) : (s.modQuad q f).conf = s.conf := rfl
@[simp] theorem State.modQuad_rollback (s : State) (q : Nat) (f : Quad → Quad) : (s.modQuad q f).rollback = s.rollback := rfl
@[simp] theorem State.modQuad_tardar (s : State) (q : Nat) (f : Quad → Quad) : (s.modQuad q f).tardar = s.tardar := rfl
@[simp] theorem State.modQuad_wbase (s : State) (q : Nat) (f : Quad → Quad) : (s.modQuad q f).wbase = s.wbase := rfl
@[simp] theorem State.modQuad_svcTrace (s : State) (q : Nat) (f : Quad → Quad) : (s.modQuad q f).svcTrace = s.svcTrace := rfl
@[simp] theorem State.modQuad_hostReplies (s : State) (q : Nat) (f : Quad → Quad) : (s.modQuad q f).hostReplies = s.hostReplies := rfl
@[simp] theorem State.modQuad_halfClock (s : State) (q : Nat) (f : Quad → Quad) : (s.modQuad q f).halfClock = s.halfClock := rfl
@[simp] theorem State.modQuad_links (s : State) (q : Nat) (f : Quad → Quad) : (s.modQuad q f).links = s.links := rfl
@[simp] theorem State.modQuad_unreachable (s : State) (q : Nat) (f : Quad → Quad) : (s.modQuad q f).unreachable = s.unreachable := rfl
@[simp] theorem State.modQuad_peerMem (s : State) (q : Nat) (f : Quad → Quad) : (s.modQuad q f).peerMem = s.peerMem := rfl
@[simp] theorem State.modQuad_moves (s : State) (q : Nat) (f : Quad → Quad) : (s.modQuad q f).moves = s.moves := rfl
@[simp] theorem State.modQuad_pkg (s : State) (q : Nat) (f : Quad → Quad) : (s.modQuad q f).pkg = s.pkg := rfl
@[simp] theorem State.modQuad_cycle (s : State) (q : Nat) (f : Quad → Quad) : (s.modQuad q f).cycle = s.cycle := rfl
@[simp] theorem State.modQuad_focus (s : State) (q : Nat) (f : Quad → Quad) : (s.modQuad q f).focus = s.focus := rfl
@[simp] theorem State.modQuad_schedule (s : State) (q : Nat) (f : Quad → Quad) : (s.modQuad q f).schedule = s.schedule := rfl
@[simp] theorem State.modQuad_choices (s : State) (q : Nat) (f : Quad → Quad) : (s.modQuad q f).choices = s.choices := rfl
@[simp] theorem State.modQuad_tick (s : State) (q : Nat) (f : Quad → Quad) : (s.modQuad q f).tick = s.tick := rfl

/-! ### Fields after `modDie` -/

@[simp] theorem State.modDie_tasks (s : State) (d : Nat) (f : Die → Die) : (s.modDie d f).tasks = s.tasks := rfl
@[simp] theorem State.modDie_cores (s : State) (d : Nat) (f : Die → Die) : (s.modDie d f).cores = s.cores := rfl
@[simp] theorem State.modDie_quads (s : State) (d : Nat) (f : Die → Die) : (s.modDie d f).quads = s.quads := rfl
@[simp] theorem State.modDie_dies (s : State) (d : Nat) (f : Die → Die) : (s.modDie d f).dies = tput s.dies d (f (s.die d)) := rfl
@[simp] theorem State.modDie_l2 (s : State) (d : Nat) (f : Die → Die) : (s.modDie d f).l2 = s.l2 := rfl
@[simp] theorem State.modDie_l2Partitioned (s : State) (d : Nat) (f : Die → Die) : (s.modDie d f).l2Partitioned = s.l2Partitioned := rfl
@[simp] theorem State.modDie_hot (s : State) (d : Nat) (f : Die → Die) : (s.modDie d f).hot = s.hot := rfl
@[simp] theorem State.modDie_invalidated (s : State) (d : Nat) (f : Die → Die) : (s.modDie d f).invalidated = s.invalidated := rfl
@[simp] theorem State.modDie_merges (s : State) (d : Nat) (f : Die → Die) : (s.modDie d f).merges = s.merges := rfl
@[simp] theorem State.modDie_windows (s : State) (d : Nat) (f : Die → Die) : (s.modDie d f).windows = s.windows := rfl
@[simp] theorem State.modDie_hbm (s : State) (d : Nat) (f : Die → Die) : (s.modDie d f).hbm = s.hbm := rfl
@[simp] theorem State.modDie_queues (s : State) (d : Nat) (f : Die → Die) : (s.modDie d f).queues = s.queues := rfl
@[simp] theorem State.modDie_parkedRecs (s : State) (d : Nat) (f : Die → Die) : (s.modDie d f).parkedRecs = s.parkedRecs := rfl
@[simp] theorem State.modDie_path (s : State) (d : Nat) (f : Die → Die) : (s.modDie d f).path = s.path := rfl
@[simp] theorem State.modDie_hist (s : State) (d : Nat) (f : Die → Die) : (s.modDie d f).hist = s.hist := rfl
@[simp] theorem State.modDie_views (s : State) (d : Nat) (f : Die → Die) : (s.modDie d f).views = s.views := rfl
@[simp] theorem State.modDie_atSwitch (s : State) (d : Nat) (f : Die → Die) : (s.modDie d f).atSwitch = s.atSwitch := rfl
@[simp] theorem State.modDie_msgs (s : State) (d : Nat) (f : Die → Die) : (s.modDie d f).msgs = s.msgs := rfl
@[simp] theorem State.modDie_nextId (s : State) (d : Nat) (f : Die → Die) : (s.modDie d f).nextId = s.nextId := rfl
@[simp] theorem State.modDie_tlbs (s : State) (d : Nat) (f : Die → Die) : (s.modDie d f).tlbs = s.tlbs := rfl
@[simp] theorem State.modDie_attrs (s : State) (d : Nat) (f : Die → Die) : (s.modDie d f).attrs = s.attrs := rfl
@[simp] theorem State.modDie_peers (s : State) (d : Nat) (f : Die → Die) : (s.modDie d f).peers = s.peers := rfl
@[simp] theorem State.modDie_mqHead (s : State) (d : Nat) (f : Die → Die) : (s.modDie d f).mqHead = s.mqHead := rfl
@[simp] theorem State.modDie_mqTail (s : State) (d : Nat) (f : Die → Die) : (s.modDie d f).mqTail = s.mqTail := rfl
@[simp] theorem State.modDie_mqOvf (s : State) (d : Nat) (f : Die → Die) : (s.modDie d f).mqOvf = s.mqOvf := rfl
@[simp] theorem State.modDie_owed (s : State) (d : Nat) (f : Die → Die) : (s.modDie d f).owed = s.owed := rfl
@[simp] theorem State.modDie_faultQ (s : State) (d : Nat) (f : Die → Die) : (s.modDie d f).faultQ = s.faultQ := rfl
@[simp] theorem State.modDie_notices (s : State) (d : Nat) (f : Die → Die) : (s.modDie d f).notices = s.notices := rfl
@[simp] theorem State.modDie_jobs (s : State) (d : Nat) (f : Die → Die) : (s.modDie d f).jobs = s.jobs := rfl
@[simp] theorem State.modDie_grids (s : State) (d : Nat) (f : Die → Die) : (s.modDie d f).grids = s.grids := rfl
@[simp] theorem State.modDie_teams (s : State) (d : Nat) (f : Die → Die) : (s.modDie d f).teams = s.teams := rfl
@[simp] theorem State.modDie_swaps (s : State) (d : Nat) (f : Die → Die) : (s.modDie d f).swaps = s.swaps := rfl
@[simp] theorem State.modDie_pkgBars (s : State) (d : Nat) (f : Die → Die) : (s.modDie d f).pkgBars = s.pkgBars := rfl
@[simp] theorem State.modDie_podBars (s : State) (d : Nat) (f : Die → Die) : (s.modDie d f).podBars = s.podBars := rfl
@[simp] theorem State.modDie_colls (s : State) (d : Nat) (f : Die → Die) : (s.modDie d f).colls = s.colls := rfl
@[simp] theorem State.modDie_collSeq (s : State) (d : Nat) (f : Die → Die) : (s.modDie d f).collSeq = s.collSeq := rfl
@[simp] theorem State.modDie_raises (s : State) (d : Nat) (f : Die → Die) : (s.modDie d f).raises = s.raises := rfl
@[simp] theorem State.modDie_boot (s : State) (d : Nat) (f : Die → Die) : (s.modDie d f).boot = s.boot := rfl
@[simp] theorem State.modDie_image (s : State) (d : Nat) (f : Die → Die) : (s.modDie d f).image = s.image := rfl
@[simp] theorem State.modDie_conf (s : State) (d : Nat) (f : Die → Die) : (s.modDie d f).conf = s.conf := rfl
@[simp] theorem State.modDie_rollback (s : State) (d : Nat) (f : Die → Die) : (s.modDie d f).rollback = s.rollback := rfl
@[simp] theorem State.modDie_tardar (s : State) (d : Nat) (f : Die → Die) : (s.modDie d f).tardar = s.tardar := rfl
@[simp] theorem State.modDie_wbase (s : State) (d : Nat) (f : Die → Die) : (s.modDie d f).wbase = s.wbase := rfl
@[simp] theorem State.modDie_svcTrace (s : State) (d : Nat) (f : Die → Die) : (s.modDie d f).svcTrace = s.svcTrace := rfl
@[simp] theorem State.modDie_hostReplies (s : State) (d : Nat) (f : Die → Die) : (s.modDie d f).hostReplies = s.hostReplies := rfl
@[simp] theorem State.modDie_halfClock (s : State) (d : Nat) (f : Die → Die) : (s.modDie d f).halfClock = s.halfClock := rfl
@[simp] theorem State.modDie_links (s : State) (d : Nat) (f : Die → Die) : (s.modDie d f).links = s.links := rfl
@[simp] theorem State.modDie_unreachable (s : State) (d : Nat) (f : Die → Die) : (s.modDie d f).unreachable = s.unreachable := rfl
@[simp] theorem State.modDie_peerMem (s : State) (d : Nat) (f : Die → Die) : (s.modDie d f).peerMem = s.peerMem := rfl
@[simp] theorem State.modDie_moves (s : State) (d : Nat) (f : Die → Die) : (s.modDie d f).moves = s.moves := rfl
@[simp] theorem State.modDie_pkg (s : State) (d : Nat) (f : Die → Die) : (s.modDie d f).pkg = s.pkg := rfl
@[simp] theorem State.modDie_cycle (s : State) (d : Nat) (f : Die → Die) : (s.modDie d f).cycle = s.cycle := rfl
@[simp] theorem State.modDie_focus (s : State) (d : Nat) (f : Die → Die) : (s.modDie d f).focus = s.focus := rfl
@[simp] theorem State.modDie_schedule (s : State) (d : Nat) (f : Die → Die) : (s.modDie d f).schedule = s.schedule := rfl
@[simp] theorem State.modDie_choices (s : State) (d : Nat) (f : Die → Die) : (s.modDie d f).choices = s.choices := rfl
@[simp] theorem State.modDie_tick (s : State) (d : Nat) (f : Die → Die) : (s.modDie d f).tick = s.tick := rfl

/-! ### Fields after `notify` -/

@[simp] theorem State.notify_tasks (s : State) (n : Notice) : (s.notify n).tasks = s.tasks := rfl
@[simp] theorem State.notify_cores (s : State) (n : Notice) : (s.notify n).cores = s.cores := rfl
@[simp] theorem State.notify_quads (s : State) (n : Notice) : (s.notify n).quads = s.quads := rfl
@[simp] theorem State.notify_dies (s : State) (n : Notice) : (s.notify n).dies = s.dies := rfl
@[simp] theorem State.notify_l2 (s : State) (n : Notice) : (s.notify n).l2 = s.l2 := rfl
@[simp] theorem State.notify_l2Partitioned (s : State) (n : Notice) : (s.notify n).l2Partitioned = s.l2Partitioned := rfl
@[simp] theorem State.notify_hot (s : State) (n : Notice) : (s.notify n).hot = s.hot := rfl
@[simp] theorem State.notify_invalidated (s : State) (n : Notice) : (s.notify n).invalidated = s.invalidated := rfl
@[simp] theorem State.notify_merges (s : State) (n : Notice) : (s.notify n).merges = s.merges := rfl
@[simp] theorem State.notify_windows (s : State) (n : Notice) : (s.notify n).windows = s.windows := rfl
@[simp] theorem State.notify_hbm (s : State) (n : Notice) : (s.notify n).hbm = s.hbm := rfl
@[simp] theorem State.notify_queues (s : State) (n : Notice) : (s.notify n).queues = s.queues := rfl
@[simp] theorem State.notify_parkedRecs (s : State) (n : Notice) : (s.notify n).parkedRecs = s.parkedRecs := rfl
@[simp] theorem State.notify_path (s : State) (n : Notice) : (s.notify n).path = s.path := rfl
@[simp] theorem State.notify_hist (s : State) (n : Notice) : (s.notify n).hist = s.hist := rfl
@[simp] theorem State.notify_views (s : State) (n : Notice) : (s.notify n).views = s.views := rfl
@[simp] theorem State.notify_atSwitch (s : State) (n : Notice) : (s.notify n).atSwitch = s.atSwitch := rfl
@[simp] theorem State.notify_msgs (s : State) (n : Notice) : (s.notify n).msgs = s.msgs := rfl
@[simp] theorem State.notify_nextId (s : State) (n : Notice) : (s.notify n).nextId = s.nextId := rfl
@[simp] theorem State.notify_tlbs (s : State) (n : Notice) : (s.notify n).tlbs = s.tlbs := rfl
@[simp] theorem State.notify_attrs (s : State) (n : Notice) : (s.notify n).attrs = s.attrs := rfl
@[simp] theorem State.notify_peers (s : State) (n : Notice) : (s.notify n).peers = s.peers := rfl
@[simp] theorem State.notify_mqHead (s : State) (n : Notice) : (s.notify n).mqHead = s.mqHead := rfl
@[simp] theorem State.notify_mqTail (s : State) (n : Notice) : (s.notify n).mqTail = s.mqTail := rfl
@[simp] theorem State.notify_mqOvf (s : State) (n : Notice) : (s.notify n).mqOvf = s.mqOvf := rfl
@[simp] theorem State.notify_owed (s : State) (n : Notice) : (s.notify n).owed = s.owed := rfl
@[simp] theorem State.notify_faultQ (s : State) (n : Notice) : (s.notify n).faultQ = s.faultQ := rfl
@[simp] theorem State.notify_notices (s : State) (n : Notice) : (s.notify n).notices = s.notices ++ [n] := rfl
@[simp] theorem State.notify_jobs (s : State) (n : Notice) : (s.notify n).jobs = s.jobs := rfl
@[simp] theorem State.notify_grids (s : State) (n : Notice) : (s.notify n).grids = s.grids := rfl
@[simp] theorem State.notify_teams (s : State) (n : Notice) : (s.notify n).teams = s.teams := rfl
@[simp] theorem State.notify_swaps (s : State) (n : Notice) : (s.notify n).swaps = s.swaps := rfl
@[simp] theorem State.notify_pkgBars (s : State) (n : Notice) : (s.notify n).pkgBars = s.pkgBars := rfl
@[simp] theorem State.notify_podBars (s : State) (n : Notice) : (s.notify n).podBars = s.podBars := rfl
@[simp] theorem State.notify_colls (s : State) (n : Notice) : (s.notify n).colls = s.colls := rfl
@[simp] theorem State.notify_collSeq (s : State) (n : Notice) : (s.notify n).collSeq = s.collSeq := rfl
@[simp] theorem State.notify_raises (s : State) (n : Notice) : (s.notify n).raises = s.raises := rfl
@[simp] theorem State.notify_boot (s : State) (n : Notice) : (s.notify n).boot = s.boot := rfl
@[simp] theorem State.notify_image (s : State) (n : Notice) : (s.notify n).image = s.image := rfl
@[simp] theorem State.notify_conf (s : State) (n : Notice) : (s.notify n).conf = s.conf := rfl
@[simp] theorem State.notify_rollback (s : State) (n : Notice) : (s.notify n).rollback = s.rollback := rfl
@[simp] theorem State.notify_tardar (s : State) (n : Notice) : (s.notify n).tardar = s.tardar := rfl
@[simp] theorem State.notify_wbase (s : State) (n : Notice) : (s.notify n).wbase = s.wbase := rfl
@[simp] theorem State.notify_svcTrace (s : State) (n : Notice) : (s.notify n).svcTrace = s.svcTrace := rfl
@[simp] theorem State.notify_hostReplies (s : State) (n : Notice) : (s.notify n).hostReplies = s.hostReplies := rfl
@[simp] theorem State.notify_halfClock (s : State) (n : Notice) : (s.notify n).halfClock = s.halfClock := rfl
@[simp] theorem State.notify_links (s : State) (n : Notice) : (s.notify n).links = s.links := rfl
@[simp] theorem State.notify_unreachable (s : State) (n : Notice) : (s.notify n).unreachable = s.unreachable := rfl
@[simp] theorem State.notify_peerMem (s : State) (n : Notice) : (s.notify n).peerMem = s.peerMem := rfl
@[simp] theorem State.notify_moves (s : State) (n : Notice) : (s.notify n).moves = s.moves := rfl
@[simp] theorem State.notify_pkg (s : State) (n : Notice) : (s.notify n).pkg = s.pkg := rfl
@[simp] theorem State.notify_cycle (s : State) (n : Notice) : (s.notify n).cycle = s.cycle := rfl
@[simp] theorem State.notify_focus (s : State) (n : Notice) : (s.notify n).focus = s.focus := rfl
@[simp] theorem State.notify_schedule (s : State) (n : Notice) : (s.notify n).schedule = s.schedule := rfl
@[simp] theorem State.notify_choices (s : State) (n : Notice) : (s.notify n).choices = s.choices := rfl
@[simp] theorem State.notify_tick (s : State) (n : Notice) : (s.notify n).tick = s.tick := rfl

/-! ### Task registers: a read after a write, and the fields a write leaves -/

@[simp] theorem Task.getG_zero (x : Task) : x.getG 0 = 0 := rfl
@[simp] theorem Task.setG_zero (x : Task) (v : Word) : x.setG 0 v = x := rfl
theorem Task.getG_setG_same (x : Task) {d : Gpr} (v : Word) (h : d ≠ 0) : (x.setG d v).getG d = v := by
  unfold Task.getG Task.setG
  rw [if_neg h, if_neg h]
  simp
theorem Task.getG_setG_ne (x : Task) {d r : Gpr} (v : Word) (h : r ≠ d) : (x.setG d v).getG r = x.getG r := by
  have : d.toNat ≠ r.toNat := fun e => h (BitVec.eq_of_toNat_eq e.symm)
  unfold Task.getG Task.setG
  by_cases h0 : d = 0
  · rw [if_pos h0]
  · rw [if_neg h0]
    simp [Vector.getElem_set_ne _ _ this]
@[simp] theorem Task.getK_zero (x : Task) : x.getK 0 = BitVec.allOnes 256 := rfl
@[simp] theorem Task.setK_zero (x : Task) (v : BitVec 256) : x.setK 0 v = x := rfl
theorem Task.getK_setK_same (x : Task) {d : Kr} (v : BitVec 256) (h : d ≠ 0) : (x.setK d v).getK d = v := by
  unfold Task.getK Task.setK
  rw [if_neg h, if_neg h]
  simp
theorem Task.getK_setK_ne (x : Task) {d r : Kr} (v : BitVec 256) (h : r ≠ d) : (x.setK d v).getK r = x.getK r := by
  have : d.toNat ≠ r.toNat := fun e => h (BitVec.eq_of_toNat_eq e.symm)
  unfold Task.getK Task.setK
  by_cases h0 : d = 0
  · rw [if_pos h0]
  · rw [if_neg h0]
    simp [Vector.getElem_set_ne _ _ this]
@[simp] theorem Task.getV_setV_same (x : Task) (d : Vr) (v : BitVec 8192) : (x.setV d v).getV d = v := by simp [Task.getV, Task.setV]
theorem Task.getV_setV_ne (x : Task) {d r : Vr} (v : BitVec 8192) (h : r ≠ d) : (x.setV d v).getV r = x.getV r := by
  have : d.toNat ≠ r.toNat := fun e => h (BitVec.eq_of_toNat_eq e.symm)
  simp [Task.getV, Task.setV, Vector.getElem_set_ne _ _ this]

@[simp] theorem Task.setG_pc (x : Task) (d : Gpr) (v : Word) : (x.setG d v).pc = x.pc := by unfold Task.setG; split <;> rfl
@[simp] theorem Task.setG_k (x : Task) (d : Gpr) (v : Word) : (x.setG d v).k = x.k := by unfold Task.setG; split <;> rfl
@[simp] theorem Task.setG_v (x : Task) (d : Gpr) (v : Word) : (x.setG d v).v = x.v := by unfold Task.setG; split <;> rfl
@[simp] theorem Task.setG_q (x : Task) (d : Gpr) (v : Word) : (x.setG d v).q = x.q := by unfold Task.setG; split <;> rfl
@[simp] theorem Task.setG_p (x : Task) (d : Gpr) (v : Word) : (x.setG d v).p = x.p := by unfold Task.setG; split <;> rfl
@[simp] theorem Task.setG_leaseBase (x : Task) (d : Gpr) (v : Word) : (x.setG d v).leaseBase = x.leaseBase := by unfold Task.setG; split <;> rfl
@[simp] theorem Task.setG_leaseCls (x : Task) (d : Gpr) (v : Word) : (x.setG d v).leaseCls = x.leaseCls := by unfold Task.setG; split <;> rfl
@[simp] theorem Task.setG_tid (x : Task) (d : Gpr) (v : Word) : (x.setG d v).tid = x.tid := by unfold Task.setG; split <;> rfl
@[simp] theorem Task.setG_lcn (x : Task) (d : Gpr) (v : Word) : (x.setG d v).lcn = x.lcn := by unfold Task.setG; split <;> rfl
@[simp] theorem Task.setG_seed (x : Task) (d : Gpr) (v : Word) : (x.setG d v).seed = x.seed := by unfold Task.setG; split <;> rfl
@[simp] theorem Task.setG_round (x : Task) (d : Gpr) (v : Word) : (x.setG d v).round = x.round := by unfold Task.setG; split <;> rfl
@[simp] theorem Task.setG_fflags (x : Task) (d : Gpr) (v : Word) : (x.setG d v).fflags = x.fflags := by unfold Task.setG; split <;> rfl
@[simp] theorem Task.setG_ftrapen (x : Task) (d : Gpr) (v : Word) : (x.setG d v).ftrapen = x.ftrapen := by unfold Task.setG; split <;> rfl
@[simp] theorem Task.setG_gtol (x : Task) (d : Gpr) (v : Word) : (x.setG d v).gtol = x.gtol := by unfold Task.setG; split <;> rfl
@[simp] theorem Task.setG_cls (x : Task) (d : Gpr) (v : Word) : (x.setG d v).cls = x.cls := by unfold Task.setG; split <;> rfl
@[simp] theorem Task.setG_phase (x : Task) (d : Gpr) (v : Word) : (x.setG d v).phase = x.phase := by unfold Task.setG; split <;> rfl
@[simp] theorem Task.setG_trapPc (x : Task) (d : Gpr) (v : Word) : (x.setG d v).trapPc = x.trapPc := by unfold Task.setG; split <;> rfl
@[simp] theorem Task.setG_trapCause (x : Task) (d : Gpr) (v : Word) : (x.setG d v).trapCause = x.trapCause := by unfold Task.setG; split <;> rfl
@[simp] theorem Task.setG_trapVal (x : Task) (d : Gpr) (v : Word) : (x.setG d v).trapVal = x.trapVal := by unfold Task.setG; split <;> rfl
@[simp] theorem Task.setG_trapInfo (x : Task) (d : Gpr) (v : Word) : (x.setG d v).trapInfo = x.trapInfo := by unfold Task.setG; split <;> rfl
@[simp] theorem Task.setG_pos (x : Task) (d : Gpr) (v : Word) : (x.setG d v).pos = x.pos := by unfold Task.setG; split <;> rfl
@[simp] theorem Task.setG_ord (x : Task) (d : Gpr) (v : Word) : (x.setG d v).ord = x.ord := by unfold Task.setG; split <;> rfl
@[simp] theorem Task.setG_job (x : Task) (d : Gpr) (v : Word) : (x.setG d v).job = x.job := by unfold Task.setG; split <;> rfl
@[simp] theorem Task.setG_life (x : Task) (d : Gpr) (v : Word) : (x.setG d v).life = x.life := by unfold Task.setG; split <;> rfl
@[simp] theorem Task.setG_holdReq (x : Task) (d : Gpr) (v : Word) : (x.setG d v).holdReq = x.holdReq := by unfold Task.setG; split <;> rfl
@[simp] theorem Task.setG_holdDbg (x : Task) (d : Gpr) (v : Word) : (x.setG d v).holdDbg = x.holdDbg := by unfold Task.setG; split <;> rfl
@[simp] theorem Task.setG_holdSys (x : Task) (d : Gpr) (v : Word) : (x.setG d v).holdSys = x.holdSys := by unfold Task.setG; split <;> rfl
@[simp] theorem Task.setG_frame (x : Task) (d : Gpr) (v : Word) : (x.setG d v).frame = x.frame := by unfold Task.setG; split <;> rfl
@[simp] theorem Task.setG_frameAside (x : Task) (d : Gpr) (v : Word) : (x.setG d v).frameAside = x.frameAside := by unfold Task.setG; split <;> rfl
@[simp] theorem Task.setG_restartable (x : Task) (d : Gpr) (v : Word) : (x.setG d v).restartable = x.restartable := by unfold Task.setG; split <;> rfl
@[simp] theorem Task.setG_committed (x : Task) (d : Gpr) (v : Word) : (x.setG d v).committed = x.committed := by unfold Task.setG; split <;> rfl
@[simp] theorem Task.setG_shadowKiB (x : Task) (d : Gpr) (v : Word) : (x.setG d v).shadowKiB = x.shadowKiB := by unfold Task.setG; split <;> rfl
@[simp] theorem Task.setG_shadow (x : Task) (d : Gpr) (v : Word) : (x.setG d v).shadow = x.shadow := by unfold Task.setG; split <;> rfl
@[simp] theorem Task.setG_shadowUsed (x : Task) (d : Gpr) (v : Word) : (x.setG d v).shadowUsed = x.shadowUsed := by unfold Task.setG; split <;> rfl
@[simp] theorem Task.setG_snapshot (x : Task) (d : Gpr) (v : Word) : (x.setG d v).snapshot = x.snapshot := by unfold Task.setG; split <;> rfl
@[simp] theorem Task.setG_snapDue (x : Task) (d : Gpr) (v : Word) : (x.setG d v).snapDue = x.snapDue := by unfold Task.setG; split <;> rfl
@[simp] theorem Task.setG_joinAddr (x : Task) (d : Gpr) (v : Word) : (x.setG d v).joinAddr = x.joinAddr := by unfold Task.setG; split <;> rfl
@[simp] theorem Task.setG_how (x : Task) (d : Gpr) (v : Word) : (x.setG d v).how = x.how := by unfold Task.setG; split <;> rfl
@[simp] theorem Task.setG_brk (x : Task) (d : Gpr) (v : Word) : (x.setG d v).brk = x.brk := by unfold Task.setG; split <;> rfl
@[simp] theorem Task.setG_watch (x : Task) (d : Gpr) (v : Word) : (x.setG d v).watch = x.watch := by unfold Task.setG; split <;> rfl
@[simp] theorem Task.setG_skipStop (x : Task) (d : Gpr) (v : Word) : (x.setG d v).skipStop = x.skipStop := by unfold Task.setG; split <;> rfl
@[simp] theorem Task.setG_pendingTrap (x : Task) (d : Gpr) (v : Word) : (x.setG d v).pendingTrap = x.pendingTrap := by unfold Task.setG; split <;> rfl
@[simp] theorem Task.setG_irqs (x : Task) (d : Gpr) (v : Word) : (x.setG d v).irqs = x.irqs := by unfold Task.setG; split <;> rfl
@[simp] theorem Task.setG_batchOpen (x : Task) (d : Gpr) (v : Word) : (x.setG d v).batchOpen = x.batchOpen := by unfold Task.setG; split <;> rfl
@[simp] theorem Task.setG_batchSeq (x : Task) (d : Gpr) (v : Word) : (x.setG d v).batchSeq = x.batchSeq := by unfold Task.setG; split <;> rfl
@[simp] theorem Task.setG_batches (x : Task) (d : Gpr) (v : Word) : (x.setG d v).batches = x.batches := by unfold Task.setG; split <;> rfl
@[simp] theorem Task.setG_aborted (x : Task) (d : Gpr) (v : Word) : (x.setG d v).aborted = x.aborted := by unfold Task.setG; split <;> rfl
@[simp] theorem Task.setG_mail (x : Task) (d : Gpr) (v : Word) : (x.setG d v).mail = x.mail := by unfold Task.setG; split <;> rfl
@[simp] theorem Task.setG_stream (x : Task) (d : Gpr) (v : Word) : (x.setG d v).stream = x.stream := by unfold Task.setG; split <;> rfl
@[simp] theorem Task.setG_sb (x : Task) (d : Gpr) (v : Word) : (x.setG d v).sb = x.sb := by unfold Task.setG; split <;> rfl
@[simp] theorem Task.setG_view (x : Task) (d : Gpr) (v : Word) : (x.setG d v).view = x.view := by unfold Task.setG; split <;> rfl
@[simp] theorem Task.setG_bars (x : Task) (d : Gpr) (v : Word) : (x.setG d v).bars = x.bars := by unfold Task.setG; split <;> rfl
@[simp] theorem Task.setG_yielded (x : Task) (d : Gpr) (v : Word) : (x.setG d v).yielded = x.yielded := by unfold Task.setG; split <;> rfl
@[simp] theorem Task.setG_stalled (x : Task) (d : Gpr) (v : Word) : (x.setG d v).stalled = x.stalled := by unfold Task.setG; split <;> rfl
@[simp] theorem Task.setG_theft (x : Task) (d : Gpr) (v : Word) : (x.setG d v).theft = x.theft := by unfold Task.setG; split <;> rfl
@[simp] theorem Task.setG_nacks (x : Task) (d : Gpr) (v : Word) : (x.setG d v).nacks = x.nacks := by unfold Task.setG; split <;> rfl
@[simp] theorem Task.setG_team (x : Task) (d : Gpr) (v : Word) : (x.setG d v).team = x.team := by unfold Task.setG; split <;> rfl
@[simp] theorem Task.setG_enq (x : Task) (d : Gpr) (v : Word) : (x.setG d v).enq = x.enq := by unfold Task.setG; split <;> rfl
@[simp] theorem Task.setG_disp (x : Task) (d : Gpr) (v : Word) : (x.setG d v).disp = x.disp := by unfold Task.setG; split <;> rfl
@[simp] theorem Task.setG_guard (x : Task) (d : Gpr) (v : Word) : (x.setG d v).guard = x.guard := by unfold Task.setG; split <;> rfl
@[simp] theorem Task.setG_residual (x : Task) (d : Gpr) (v : Word) : (x.setG d v).residual = x.residual := by unfold Task.setG; split <;> rfl
@[simp] theorem Task.setG_engaged (x : Task) (d : Gpr) (v : Word) : (x.setG d v).engaged = x.engaged := by unfold Task.setG; split <;> rfl
@[simp] theorem Task.setG_portWait (x : Task) (d : Gpr) (v : Word) : (x.setG d v).portWait = x.portWait := by unfold Task.setG; split <;> rfl
@[simp] theorem Task.setG_moving (x : Task) (d : Gpr) (v : Word) : (x.setG d v).moving = x.moving := by unfold Task.setG; split <;> rfl
@[simp] theorem Task.setG_halt (x : Task) (d : Gpr) (v : Word) : (x.setG d v).halt = x.halt := by unfold Task.setG; split <;> rfl
@[simp] theorem Task.setG_reply (x : Task) (d : Gpr) (v : Word) : (x.setG d v).reply = x.reply := by unfold Task.setG; split <;> rfl
@[simp] theorem Task.setK_pc (x : Task) (d : Kr) (v : BitVec 256) : (x.setK d v).pc = x.pc := by unfold Task.setK; split <;> rfl
@[simp] theorem Task.setK_g (x : Task) (d : Kr) (v : BitVec 256) : (x.setK d v).g = x.g := by unfold Task.setK; split <;> rfl
@[simp] theorem Task.setK_v (x : Task) (d : Kr) (v : BitVec 256) : (x.setK d v).v = x.v := by unfold Task.setK; split <;> rfl
@[simp] theorem Task.setK_q (x : Task) (d : Kr) (v : BitVec 256) : (x.setK d v).q = x.q := by unfold Task.setK; split <;> rfl
@[simp] theorem Task.setK_p (x : Task) (d : Kr) (v : BitVec 256) : (x.setK d v).p = x.p := by unfold Task.setK; split <;> rfl
@[simp] theorem Task.setK_leaseBase (x : Task) (d : Kr) (v : BitVec 256) : (x.setK d v).leaseBase = x.leaseBase := by unfold Task.setK; split <;> rfl
@[simp] theorem Task.setK_leaseCls (x : Task) (d : Kr) (v : BitVec 256) : (x.setK d v).leaseCls = x.leaseCls := by unfold Task.setK; split <;> rfl
@[simp] theorem Task.setK_tid (x : Task) (d : Kr) (v : BitVec 256) : (x.setK d v).tid = x.tid := by unfold Task.setK; split <;> rfl
@[simp] theorem Task.setK_lcn (x : Task) (d : Kr) (v : BitVec 256) : (x.setK d v).lcn = x.lcn := by unfold Task.setK; split <;> rfl
@[simp] theorem Task.setK_seed (x : Task) (d : Kr) (v : BitVec 256) : (x.setK d v).seed = x.seed := by unfold Task.setK; split <;> rfl
@[simp] theorem Task.setK_round (x : Task) (d : Kr) (v : BitVec 256) : (x.setK d v).round = x.round := by unfold Task.setK; split <;> rfl
@[simp] theorem Task.setK_fflags (x : Task) (d : Kr) (v : BitVec 256) : (x.setK d v).fflags = x.fflags := by unfold Task.setK; split <;> rfl
@[simp] theorem Task.setK_ftrapen (x : Task) (d : Kr) (v : BitVec 256) : (x.setK d v).ftrapen = x.ftrapen := by unfold Task.setK; split <;> rfl
@[simp] theorem Task.setK_gtol (x : Task) (d : Kr) (v : BitVec 256) : (x.setK d v).gtol = x.gtol := by unfold Task.setK; split <;> rfl
@[simp] theorem Task.setK_cls (x : Task) (d : Kr) (v : BitVec 256) : (x.setK d v).cls = x.cls := by unfold Task.setK; split <;> rfl
@[simp] theorem Task.setK_phase (x : Task) (d : Kr) (v : BitVec 256) : (x.setK d v).phase = x.phase := by unfold Task.setK; split <;> rfl
@[simp] theorem Task.setK_trapPc (x : Task) (d : Kr) (v : BitVec 256) : (x.setK d v).trapPc = x.trapPc := by unfold Task.setK; split <;> rfl
@[simp] theorem Task.setK_trapCause (x : Task) (d : Kr) (v : BitVec 256) : (x.setK d v).trapCause = x.trapCause := by unfold Task.setK; split <;> rfl
@[simp] theorem Task.setK_trapVal (x : Task) (d : Kr) (v : BitVec 256) : (x.setK d v).trapVal = x.trapVal := by unfold Task.setK; split <;> rfl
@[simp] theorem Task.setK_trapInfo (x : Task) (d : Kr) (v : BitVec 256) : (x.setK d v).trapInfo = x.trapInfo := by unfold Task.setK; split <;> rfl
@[simp] theorem Task.setK_pos (x : Task) (d : Kr) (v : BitVec 256) : (x.setK d v).pos = x.pos := by unfold Task.setK; split <;> rfl
@[simp] theorem Task.setK_ord (x : Task) (d : Kr) (v : BitVec 256) : (x.setK d v).ord = x.ord := by unfold Task.setK; split <;> rfl
@[simp] theorem Task.setK_job (x : Task) (d : Kr) (v : BitVec 256) : (x.setK d v).job = x.job := by unfold Task.setK; split <;> rfl
@[simp] theorem Task.setK_life (x : Task) (d : Kr) (v : BitVec 256) : (x.setK d v).life = x.life := by unfold Task.setK; split <;> rfl
@[simp] theorem Task.setK_holdReq (x : Task) (d : Kr) (v : BitVec 256) : (x.setK d v).holdReq = x.holdReq := by unfold Task.setK; split <;> rfl
@[simp] theorem Task.setK_holdDbg (x : Task) (d : Kr) (v : BitVec 256) : (x.setK d v).holdDbg = x.holdDbg := by unfold Task.setK; split <;> rfl
@[simp] theorem Task.setK_holdSys (x : Task) (d : Kr) (v : BitVec 256) : (x.setK d v).holdSys = x.holdSys := by unfold Task.setK; split <;> rfl
@[simp] theorem Task.setK_frame (x : Task) (d : Kr) (v : BitVec 256) : (x.setK d v).frame = x.frame := by unfold Task.setK; split <;> rfl
@[simp] theorem Task.setK_frameAside (x : Task) (d : Kr) (v : BitVec 256) : (x.setK d v).frameAside = x.frameAside := by unfold Task.setK; split <;> rfl
@[simp] theorem Task.setK_restartable (x : Task) (d : Kr) (v : BitVec 256) : (x.setK d v).restartable = x.restartable := by unfold Task.setK; split <;> rfl
@[simp] theorem Task.setK_committed (x : Task) (d : Kr) (v : BitVec 256) : (x.setK d v).committed = x.committed := by unfold Task.setK; split <;> rfl
@[simp] theorem Task.setK_shadowKiB (x : Task) (d : Kr) (v : BitVec 256) : (x.setK d v).shadowKiB = x.shadowKiB := by unfold Task.setK; split <;> rfl
@[simp] theorem Task.setK_shadow (x : Task) (d : Kr) (v : BitVec 256) : (x.setK d v).shadow = x.shadow := by unfold Task.setK; split <;> rfl
@[simp] theorem Task.setK_shadowUsed (x : Task) (d : Kr) (v : BitVec 256) : (x.setK d v).shadowUsed = x.shadowUsed := by unfold Task.setK; split <;> rfl
@[simp] theorem Task.setK_snapshot (x : Task) (d : Kr) (v : BitVec 256) : (x.setK d v).snapshot = x.snapshot := by unfold Task.setK; split <;> rfl
@[simp] theorem Task.setK_snapDue (x : Task) (d : Kr) (v : BitVec 256) : (x.setK d v).snapDue = x.snapDue := by unfold Task.setK; split <;> rfl
@[simp] theorem Task.setK_joinAddr (x : Task) (d : Kr) (v : BitVec 256) : (x.setK d v).joinAddr = x.joinAddr := by unfold Task.setK; split <;> rfl
@[simp] theorem Task.setK_how (x : Task) (d : Kr) (v : BitVec 256) : (x.setK d v).how = x.how := by unfold Task.setK; split <;> rfl
@[simp] theorem Task.setK_brk (x : Task) (d : Kr) (v : BitVec 256) : (x.setK d v).brk = x.brk := by unfold Task.setK; split <;> rfl
@[simp] theorem Task.setK_watch (x : Task) (d : Kr) (v : BitVec 256) : (x.setK d v).watch = x.watch := by unfold Task.setK; split <;> rfl
@[simp] theorem Task.setK_skipStop (x : Task) (d : Kr) (v : BitVec 256) : (x.setK d v).skipStop = x.skipStop := by unfold Task.setK; split <;> rfl
@[simp] theorem Task.setK_pendingTrap (x : Task) (d : Kr) (v : BitVec 256) : (x.setK d v).pendingTrap = x.pendingTrap := by unfold Task.setK; split <;> rfl
@[simp] theorem Task.setK_irqs (x : Task) (d : Kr) (v : BitVec 256) : (x.setK d v).irqs = x.irqs := by unfold Task.setK; split <;> rfl
@[simp] theorem Task.setK_batchOpen (x : Task) (d : Kr) (v : BitVec 256) : (x.setK d v).batchOpen = x.batchOpen := by unfold Task.setK; split <;> rfl
@[simp] theorem Task.setK_batchSeq (x : Task) (d : Kr) (v : BitVec 256) : (x.setK d v).batchSeq = x.batchSeq := by unfold Task.setK; split <;> rfl
@[simp] theorem Task.setK_batches (x : Task) (d : Kr) (v : BitVec 256) : (x.setK d v).batches = x.batches := by unfold Task.setK; split <;> rfl
@[simp] theorem Task.setK_aborted (x : Task) (d : Kr) (v : BitVec 256) : (x.setK d v).aborted = x.aborted := by unfold Task.setK; split <;> rfl
@[simp] theorem Task.setK_mail (x : Task) (d : Kr) (v : BitVec 256) : (x.setK d v).mail = x.mail := by unfold Task.setK; split <;> rfl
@[simp] theorem Task.setK_stream (x : Task) (d : Kr) (v : BitVec 256) : (x.setK d v).stream = x.stream := by unfold Task.setK; split <;> rfl
@[simp] theorem Task.setK_sb (x : Task) (d : Kr) (v : BitVec 256) : (x.setK d v).sb = x.sb := by unfold Task.setK; split <;> rfl
@[simp] theorem Task.setK_view (x : Task) (d : Kr) (v : BitVec 256) : (x.setK d v).view = x.view := by unfold Task.setK; split <;> rfl
@[simp] theorem Task.setK_bars (x : Task) (d : Kr) (v : BitVec 256) : (x.setK d v).bars = x.bars := by unfold Task.setK; split <;> rfl
@[simp] theorem Task.setK_yielded (x : Task) (d : Kr) (v : BitVec 256) : (x.setK d v).yielded = x.yielded := by unfold Task.setK; split <;> rfl
@[simp] theorem Task.setK_stalled (x : Task) (d : Kr) (v : BitVec 256) : (x.setK d v).stalled = x.stalled := by unfold Task.setK; split <;> rfl
@[simp] theorem Task.setK_theft (x : Task) (d : Kr) (v : BitVec 256) : (x.setK d v).theft = x.theft := by unfold Task.setK; split <;> rfl
@[simp] theorem Task.setK_nacks (x : Task) (d : Kr) (v : BitVec 256) : (x.setK d v).nacks = x.nacks := by unfold Task.setK; split <;> rfl
@[simp] theorem Task.setK_team (x : Task) (d : Kr) (v : BitVec 256) : (x.setK d v).team = x.team := by unfold Task.setK; split <;> rfl
@[simp] theorem Task.setK_enq (x : Task) (d : Kr) (v : BitVec 256) : (x.setK d v).enq = x.enq := by unfold Task.setK; split <;> rfl
@[simp] theorem Task.setK_disp (x : Task) (d : Kr) (v : BitVec 256) : (x.setK d v).disp = x.disp := by unfold Task.setK; split <;> rfl
@[simp] theorem Task.setK_guard (x : Task) (d : Kr) (v : BitVec 256) : (x.setK d v).guard = x.guard := by unfold Task.setK; split <;> rfl
@[simp] theorem Task.setK_residual (x : Task) (d : Kr) (v : BitVec 256) : (x.setK d v).residual = x.residual := by unfold Task.setK; split <;> rfl
@[simp] theorem Task.setK_engaged (x : Task) (d : Kr) (v : BitVec 256) : (x.setK d v).engaged = x.engaged := by unfold Task.setK; split <;> rfl
@[simp] theorem Task.setK_portWait (x : Task) (d : Kr) (v : BitVec 256) : (x.setK d v).portWait = x.portWait := by unfold Task.setK; split <;> rfl
@[simp] theorem Task.setK_moving (x : Task) (d : Kr) (v : BitVec 256) : (x.setK d v).moving = x.moving := by unfold Task.setK; split <;> rfl
@[simp] theorem Task.setK_halt (x : Task) (d : Kr) (v : BitVec 256) : (x.setK d v).halt = x.halt := by unfold Task.setK; split <;> rfl
@[simp] theorem Task.setK_reply (x : Task) (d : Kr) (v : BitVec 256) : (x.setK d v).reply = x.reply := by unfold Task.setK; split <;> rfl
@[simp] theorem Task.setV_pc (x : Task) (d : Vr) (v : BitVec 8192) : (x.setV d v).pc = x.pc := rfl
@[simp] theorem Task.setV_g (x : Task) (d : Vr) (v : BitVec 8192) : (x.setV d v).g = x.g := rfl
@[simp] theorem Task.setV_k (x : Task) (d : Vr) (v : BitVec 8192) : (x.setV d v).k = x.k := rfl
@[simp] theorem Task.setV_q (x : Task) (d : Vr) (v : BitVec 8192) : (x.setV d v).q = x.q := rfl
@[simp] theorem Task.setV_p (x : Task) (d : Vr) (v : BitVec 8192) : (x.setV d v).p = x.p := rfl
@[simp] theorem Task.setV_leaseBase (x : Task) (d : Vr) (v : BitVec 8192) : (x.setV d v).leaseBase = x.leaseBase := rfl
@[simp] theorem Task.setV_leaseCls (x : Task) (d : Vr) (v : BitVec 8192) : (x.setV d v).leaseCls = x.leaseCls := rfl
@[simp] theorem Task.setV_tid (x : Task) (d : Vr) (v : BitVec 8192) : (x.setV d v).tid = x.tid := rfl
@[simp] theorem Task.setV_lcn (x : Task) (d : Vr) (v : BitVec 8192) : (x.setV d v).lcn = x.lcn := rfl
@[simp] theorem Task.setV_seed (x : Task) (d : Vr) (v : BitVec 8192) : (x.setV d v).seed = x.seed := rfl
@[simp] theorem Task.setV_round (x : Task) (d : Vr) (v : BitVec 8192) : (x.setV d v).round = x.round := rfl
@[simp] theorem Task.setV_fflags (x : Task) (d : Vr) (v : BitVec 8192) : (x.setV d v).fflags = x.fflags := rfl
@[simp] theorem Task.setV_ftrapen (x : Task) (d : Vr) (v : BitVec 8192) : (x.setV d v).ftrapen = x.ftrapen := rfl
@[simp] theorem Task.setV_gtol (x : Task) (d : Vr) (v : BitVec 8192) : (x.setV d v).gtol = x.gtol := rfl
@[simp] theorem Task.setV_cls (x : Task) (d : Vr) (v : BitVec 8192) : (x.setV d v).cls = x.cls := rfl
@[simp] theorem Task.setV_phase (x : Task) (d : Vr) (v : BitVec 8192) : (x.setV d v).phase = x.phase := rfl
@[simp] theorem Task.setV_trapPc (x : Task) (d : Vr) (v : BitVec 8192) : (x.setV d v).trapPc = x.trapPc := rfl
@[simp] theorem Task.setV_trapCause (x : Task) (d : Vr) (v : BitVec 8192) : (x.setV d v).trapCause = x.trapCause := rfl
@[simp] theorem Task.setV_trapVal (x : Task) (d : Vr) (v : BitVec 8192) : (x.setV d v).trapVal = x.trapVal := rfl
@[simp] theorem Task.setV_trapInfo (x : Task) (d : Vr) (v : BitVec 8192) : (x.setV d v).trapInfo = x.trapInfo := rfl
@[simp] theorem Task.setV_pos (x : Task) (d : Vr) (v : BitVec 8192) : (x.setV d v).pos = x.pos := rfl
@[simp] theorem Task.setV_ord (x : Task) (d : Vr) (v : BitVec 8192) : (x.setV d v).ord = x.ord := rfl
@[simp] theorem Task.setV_job (x : Task) (d : Vr) (v : BitVec 8192) : (x.setV d v).job = x.job := rfl
@[simp] theorem Task.setV_life (x : Task) (d : Vr) (v : BitVec 8192) : (x.setV d v).life = x.life := rfl
@[simp] theorem Task.setV_holdReq (x : Task) (d : Vr) (v : BitVec 8192) : (x.setV d v).holdReq = x.holdReq := rfl
@[simp] theorem Task.setV_holdDbg (x : Task) (d : Vr) (v : BitVec 8192) : (x.setV d v).holdDbg = x.holdDbg := rfl
@[simp] theorem Task.setV_holdSys (x : Task) (d : Vr) (v : BitVec 8192) : (x.setV d v).holdSys = x.holdSys := rfl
@[simp] theorem Task.setV_frame (x : Task) (d : Vr) (v : BitVec 8192) : (x.setV d v).frame = x.frame := rfl
@[simp] theorem Task.setV_frameAside (x : Task) (d : Vr) (v : BitVec 8192) : (x.setV d v).frameAside = x.frameAside := rfl
@[simp] theorem Task.setV_restartable (x : Task) (d : Vr) (v : BitVec 8192) : (x.setV d v).restartable = x.restartable := rfl
@[simp] theorem Task.setV_committed (x : Task) (d : Vr) (v : BitVec 8192) : (x.setV d v).committed = x.committed := rfl
@[simp] theorem Task.setV_shadowKiB (x : Task) (d : Vr) (v : BitVec 8192) : (x.setV d v).shadowKiB = x.shadowKiB := rfl
@[simp] theorem Task.setV_shadow (x : Task) (d : Vr) (v : BitVec 8192) : (x.setV d v).shadow = x.shadow := rfl
@[simp] theorem Task.setV_shadowUsed (x : Task) (d : Vr) (v : BitVec 8192) : (x.setV d v).shadowUsed = x.shadowUsed := rfl
@[simp] theorem Task.setV_snapshot (x : Task) (d : Vr) (v : BitVec 8192) : (x.setV d v).snapshot = x.snapshot := rfl
@[simp] theorem Task.setV_snapDue (x : Task) (d : Vr) (v : BitVec 8192) : (x.setV d v).snapDue = x.snapDue := rfl
@[simp] theorem Task.setV_joinAddr (x : Task) (d : Vr) (v : BitVec 8192) : (x.setV d v).joinAddr = x.joinAddr := rfl
@[simp] theorem Task.setV_how (x : Task) (d : Vr) (v : BitVec 8192) : (x.setV d v).how = x.how := rfl
@[simp] theorem Task.setV_brk (x : Task) (d : Vr) (v : BitVec 8192) : (x.setV d v).brk = x.brk := rfl
@[simp] theorem Task.setV_watch (x : Task) (d : Vr) (v : BitVec 8192) : (x.setV d v).watch = x.watch := rfl
@[simp] theorem Task.setV_skipStop (x : Task) (d : Vr) (v : BitVec 8192) : (x.setV d v).skipStop = x.skipStop := rfl
@[simp] theorem Task.setV_pendingTrap (x : Task) (d : Vr) (v : BitVec 8192) : (x.setV d v).pendingTrap = x.pendingTrap := rfl
@[simp] theorem Task.setV_irqs (x : Task) (d : Vr) (v : BitVec 8192) : (x.setV d v).irqs = x.irqs := rfl
@[simp] theorem Task.setV_batchOpen (x : Task) (d : Vr) (v : BitVec 8192) : (x.setV d v).batchOpen = x.batchOpen := rfl
@[simp] theorem Task.setV_batchSeq (x : Task) (d : Vr) (v : BitVec 8192) : (x.setV d v).batchSeq = x.batchSeq := rfl
@[simp] theorem Task.setV_batches (x : Task) (d : Vr) (v : BitVec 8192) : (x.setV d v).batches = x.batches := rfl
@[simp] theorem Task.setV_aborted (x : Task) (d : Vr) (v : BitVec 8192) : (x.setV d v).aborted = x.aborted := rfl
@[simp] theorem Task.setV_mail (x : Task) (d : Vr) (v : BitVec 8192) : (x.setV d v).mail = x.mail := rfl
@[simp] theorem Task.setV_stream (x : Task) (d : Vr) (v : BitVec 8192) : (x.setV d v).stream = x.stream := rfl
@[simp] theorem Task.setV_sb (x : Task) (d : Vr) (v : BitVec 8192) : (x.setV d v).sb = x.sb := rfl
@[simp] theorem Task.setV_view (x : Task) (d : Vr) (v : BitVec 8192) : (x.setV d v).view = x.view := rfl
@[simp] theorem Task.setV_bars (x : Task) (d : Vr) (v : BitVec 8192) : (x.setV d v).bars = x.bars := rfl
@[simp] theorem Task.setV_yielded (x : Task) (d : Vr) (v : BitVec 8192) : (x.setV d v).yielded = x.yielded := rfl
@[simp] theorem Task.setV_stalled (x : Task) (d : Vr) (v : BitVec 8192) : (x.setV d v).stalled = x.stalled := rfl
@[simp] theorem Task.setV_theft (x : Task) (d : Vr) (v : BitVec 8192) : (x.setV d v).theft = x.theft := rfl
@[simp] theorem Task.setV_nacks (x : Task) (d : Vr) (v : BitVec 8192) : (x.setV d v).nacks = x.nacks := rfl
@[simp] theorem Task.setV_team (x : Task) (d : Vr) (v : BitVec 8192) : (x.setV d v).team = x.team := rfl
@[simp] theorem Task.setV_enq (x : Task) (d : Vr) (v : BitVec 8192) : (x.setV d v).enq = x.enq := rfl
@[simp] theorem Task.setV_disp (x : Task) (d : Vr) (v : BitVec 8192) : (x.setV d v).disp = x.disp := rfl
@[simp] theorem Task.setV_guard (x : Task) (d : Vr) (v : BitVec 8192) : (x.setV d v).guard = x.guard := rfl
@[simp] theorem Task.setV_residual (x : Task) (d : Vr) (v : BitVec 8192) : (x.setV d v).residual = x.residual := rfl
@[simp] theorem Task.setV_engaged (x : Task) (d : Vr) (v : BitVec 8192) : (x.setV d v).engaged = x.engaged := rfl
@[simp] theorem Task.setV_portWait (x : Task) (d : Vr) (v : BitVec 8192) : (x.setV d v).portWait = x.portWait := rfl
@[simp] theorem Task.setV_moving (x : Task) (d : Vr) (v : BitVec 8192) : (x.setV d v).moving = x.moving := rfl
@[simp] theorem Task.setV_halt (x : Task) (d : Vr) (v : BitVec 8192) : (x.setV d v).halt = x.halt := rfl
@[simp] theorem Task.setV_reply (x : Task) (d : Vr) (v : BitVec 8192) : (x.setV d v).reply = x.reply := rfl

/-! ### Retirement -/

/-- Outside a frame an instruction of n bytes moves the PC on. -/
theorem Task.next_plain (n : Nat) (x : Task) (h : x.frame = none) : Task.next n x =
    { x with pc := pcPlus x.pc n, bars := x.leaveBars.bars, skipStop := 0, stalled := none, theft := none } := by
  simp [Task.next, Task.leaveBars, h]

/-- Retirement changes the PC, the frame's position, the barriers of its level, the pass of a stop, the stall's age and a steal's read, nothing else. -/
theorem Task.next_cases (n : Nat) (x : Task) : ∃ p f, Task.next n x =
    { x with pc := p, frame := f, bars := x.leaveBars.bars, skipStop := 0, stalled := none, theft := none } := by
  rcases hf : x.frame with _ | f
  · exact ⟨pcPlus x.pc n, none, by simp [Task.next, Task.leaveBars, hf]⟩
  · by_cases h1 : f.j + 1 < f.window.length
    · exact ⟨_, _, by simp only [Task.next, Task.leaveBars, hf, h1, if_true]; rfl⟩
    · by_cases h2 : f.i + 1 < f.n
      · exact ⟨_, _, by simp only [Task.next, Task.leaveBars, hf, h1, h2, if_true, if_false]; rfl⟩
      · exact ⟨_, _, by simp only [Task.next, Task.leaveBars, hf, h1, h2, if_false]; rfl⟩

@[simp] theorem Task.next_g (n : Nat) (x : Task) : (Task.next n x).g = x.g := by obtain ⟨p, f, h⟩ := Task.next_cases n x; rw [h]
@[simp] theorem Task.next_k (n : Nat) (x : Task) : (Task.next n x).k = x.k := by obtain ⟨p, f, h⟩ := Task.next_cases n x; rw [h]
@[simp] theorem Task.next_v (n : Nat) (x : Task) : (Task.next n x).v = x.v := by obtain ⟨p, f, h⟩ := Task.next_cases n x; rw [h]
@[simp] theorem Task.next_q (n : Nat) (x : Task) : (Task.next n x).q = x.q := by obtain ⟨p, f, h⟩ := Task.next_cases n x; rw [h]
@[simp] theorem Task.next_p (n : Nat) (x : Task) : (Task.next n x).p = x.p := by obtain ⟨p, f, h⟩ := Task.next_cases n x; rw [h]
@[simp] theorem Task.next_leaseBase (n : Nat) (x : Task) : (Task.next n x).leaseBase = x.leaseBase := by obtain ⟨p, f, h⟩ := Task.next_cases n x; rw [h]
@[simp] theorem Task.next_leaseCls (n : Nat) (x : Task) : (Task.next n x).leaseCls = x.leaseCls := by obtain ⟨p, f, h⟩ := Task.next_cases n x; rw [h]
@[simp] theorem Task.next_tid (n : Nat) (x : Task) : (Task.next n x).tid = x.tid := by obtain ⟨p, f, h⟩ := Task.next_cases n x; rw [h]
@[simp] theorem Task.next_lcn (n : Nat) (x : Task) : (Task.next n x).lcn = x.lcn := by obtain ⟨p, f, h⟩ := Task.next_cases n x; rw [h]
@[simp] theorem Task.next_seed (n : Nat) (x : Task) : (Task.next n x).seed = x.seed := by obtain ⟨p, f, h⟩ := Task.next_cases n x; rw [h]
@[simp] theorem Task.next_round (n : Nat) (x : Task) : (Task.next n x).round = x.round := by obtain ⟨p, f, h⟩ := Task.next_cases n x; rw [h]
@[simp] theorem Task.next_fflags (n : Nat) (x : Task) : (Task.next n x).fflags = x.fflags := by obtain ⟨p, f, h⟩ := Task.next_cases n x; rw [h]
@[simp] theorem Task.next_ftrapen (n : Nat) (x : Task) : (Task.next n x).ftrapen = x.ftrapen := by obtain ⟨p, f, h⟩ := Task.next_cases n x; rw [h]
@[simp] theorem Task.next_gtol (n : Nat) (x : Task) : (Task.next n x).gtol = x.gtol := by obtain ⟨p, f, h⟩ := Task.next_cases n x; rw [h]
@[simp] theorem Task.next_cls (n : Nat) (x : Task) : (Task.next n x).cls = x.cls := by obtain ⟨p, f, h⟩ := Task.next_cases n x; rw [h]
@[simp] theorem Task.next_phase (n : Nat) (x : Task) : (Task.next n x).phase = x.phase := by obtain ⟨p, f, h⟩ := Task.next_cases n x; rw [h]
@[simp] theorem Task.next_trapPc (n : Nat) (x : Task) : (Task.next n x).trapPc = x.trapPc := by obtain ⟨p, f, h⟩ := Task.next_cases n x; rw [h]
@[simp] theorem Task.next_trapCause (n : Nat) (x : Task) : (Task.next n x).trapCause = x.trapCause := by obtain ⟨p, f, h⟩ := Task.next_cases n x; rw [h]
@[simp] theorem Task.next_trapVal (n : Nat) (x : Task) : (Task.next n x).trapVal = x.trapVal := by obtain ⟨p, f, h⟩ := Task.next_cases n x; rw [h]
@[simp] theorem Task.next_trapInfo (n : Nat) (x : Task) : (Task.next n x).trapInfo = x.trapInfo := by obtain ⟨p, f, h⟩ := Task.next_cases n x; rw [h]
@[simp] theorem Task.next_pos (n : Nat) (x : Task) : (Task.next n x).pos = x.pos := by obtain ⟨p, f, h⟩ := Task.next_cases n x; rw [h]
@[simp] theorem Task.next_ord (n : Nat) (x : Task) : (Task.next n x).ord = x.ord := by obtain ⟨p, f, h⟩ := Task.next_cases n x; rw [h]
@[simp] theorem Task.next_job (n : Nat) (x : Task) : (Task.next n x).job = x.job := by obtain ⟨p, f, h⟩ := Task.next_cases n x; rw [h]
@[simp] theorem Task.next_life (n : Nat) (x : Task) : (Task.next n x).life = x.life := by obtain ⟨p, f, h⟩ := Task.next_cases n x; rw [h]
@[simp] theorem Task.next_holdReq (n : Nat) (x : Task) : (Task.next n x).holdReq = x.holdReq := by obtain ⟨p, f, h⟩ := Task.next_cases n x; rw [h]
@[simp] theorem Task.next_holdDbg (n : Nat) (x : Task) : (Task.next n x).holdDbg = x.holdDbg := by obtain ⟨p, f, h⟩ := Task.next_cases n x; rw [h]
@[simp] theorem Task.next_holdSys (n : Nat) (x : Task) : (Task.next n x).holdSys = x.holdSys := by obtain ⟨p, f, h⟩ := Task.next_cases n x; rw [h]
@[simp] theorem Task.next_frameAside (n : Nat) (x : Task) : (Task.next n x).frameAside = x.frameAside := by obtain ⟨p, f, h⟩ := Task.next_cases n x; rw [h]
@[simp] theorem Task.next_restartable (n : Nat) (x : Task) : (Task.next n x).restartable = x.restartable := by obtain ⟨p, f, h⟩ := Task.next_cases n x; rw [h]
@[simp] theorem Task.next_committed (n : Nat) (x : Task) : (Task.next n x).committed = x.committed := by obtain ⟨p, f, h⟩ := Task.next_cases n x; rw [h]
@[simp] theorem Task.next_shadowKiB (n : Nat) (x : Task) : (Task.next n x).shadowKiB = x.shadowKiB := by obtain ⟨p, f, h⟩ := Task.next_cases n x; rw [h]
@[simp] theorem Task.next_shadow (n : Nat) (x : Task) : (Task.next n x).shadow = x.shadow := by obtain ⟨p, f, h⟩ := Task.next_cases n x; rw [h]
@[simp] theorem Task.next_shadowUsed (n : Nat) (x : Task) : (Task.next n x).shadowUsed = x.shadowUsed := by obtain ⟨p, f, h⟩ := Task.next_cases n x; rw [h]
@[simp] theorem Task.next_snapshot (n : Nat) (x : Task) : (Task.next n x).snapshot = x.snapshot := by obtain ⟨p, f, h⟩ := Task.next_cases n x; rw [h]
@[simp] theorem Task.next_snapDue (n : Nat) (x : Task) : (Task.next n x).snapDue = x.snapDue := by obtain ⟨p, f, h⟩ := Task.next_cases n x; rw [h]
@[simp] theorem Task.next_joinAddr (n : Nat) (x : Task) : (Task.next n x).joinAddr = x.joinAddr := by obtain ⟨p, f, h⟩ := Task.next_cases n x; rw [h]
@[simp] theorem Task.next_how (n : Nat) (x : Task) : (Task.next n x).how = x.how := by obtain ⟨p, f, h⟩ := Task.next_cases n x; rw [h]
@[simp] theorem Task.next_brk (n : Nat) (x : Task) : (Task.next n x).brk = x.brk := by obtain ⟨p, f, h⟩ := Task.next_cases n x; rw [h]
@[simp] theorem Task.next_watch (n : Nat) (x : Task) : (Task.next n x).watch = x.watch := by obtain ⟨p, f, h⟩ := Task.next_cases n x; rw [h]
@[simp] theorem Task.next_pendingTrap (n : Nat) (x : Task) : (Task.next n x).pendingTrap = x.pendingTrap := by obtain ⟨p, f, h⟩ := Task.next_cases n x; rw [h]
@[simp] theorem Task.next_irqs (n : Nat) (x : Task) : (Task.next n x).irqs = x.irqs := by obtain ⟨p, f, h⟩ := Task.next_cases n x; rw [h]
@[simp] theorem Task.next_batchOpen (n : Nat) (x : Task) : (Task.next n x).batchOpen = x.batchOpen := by obtain ⟨p, f, h⟩ := Task.next_cases n x; rw [h]
@[simp] theorem Task.next_batchSeq (n : Nat) (x : Task) : (Task.next n x).batchSeq = x.batchSeq := by obtain ⟨p, f, h⟩ := Task.next_cases n x; rw [h]
@[simp] theorem Task.next_batches (n : Nat) (x : Task) : (Task.next n x).batches = x.batches := by obtain ⟨p, f, h⟩ := Task.next_cases n x; rw [h]
@[simp] theorem Task.next_aborted (n : Nat) (x : Task) : (Task.next n x).aborted = x.aborted := by obtain ⟨p, f, h⟩ := Task.next_cases n x; rw [h]
@[simp] theorem Task.next_mail (n : Nat) (x : Task) : (Task.next n x).mail = x.mail := by obtain ⟨p, f, h⟩ := Task.next_cases n x; rw [h]
@[simp] theorem Task.next_stream (n : Nat) (x : Task) : (Task.next n x).stream = x.stream := by obtain ⟨p, f, h⟩ := Task.next_cases n x; rw [h]
@[simp] theorem Task.next_sb (n : Nat) (x : Task) : (Task.next n x).sb = x.sb := by obtain ⟨p, f, h⟩ := Task.next_cases n x; rw [h]
@[simp] theorem Task.next_view (n : Nat) (x : Task) : (Task.next n x).view = x.view := by obtain ⟨p, f, h⟩ := Task.next_cases n x; rw [h]
@[simp] theorem Task.next_yielded (n : Nat) (x : Task) : (Task.next n x).yielded = x.yielded := by obtain ⟨p, f, h⟩ := Task.next_cases n x; rw [h]
@[simp] theorem Task.next_nacks (n : Nat) (x : Task) : (Task.next n x).nacks = x.nacks := by obtain ⟨p, f, h⟩ := Task.next_cases n x; rw [h]
@[simp] theorem Task.next_team (n : Nat) (x : Task) : (Task.next n x).team = x.team := by obtain ⟨p, f, h⟩ := Task.next_cases n x; rw [h]
@[simp] theorem Task.next_enq (n : Nat) (x : Task) : (Task.next n x).enq = x.enq := by obtain ⟨p, f, h⟩ := Task.next_cases n x; rw [h]
@[simp] theorem Task.next_disp (n : Nat) (x : Task) : (Task.next n x).disp = x.disp := by obtain ⟨p, f, h⟩ := Task.next_cases n x; rw [h]
@[simp] theorem Task.next_guard (n : Nat) (x : Task) : (Task.next n x).guard = x.guard := by obtain ⟨p, f, h⟩ := Task.next_cases n x; rw [h]
@[simp] theorem Task.next_residual (n : Nat) (x : Task) : (Task.next n x).residual = x.residual := by obtain ⟨p, f, h⟩ := Task.next_cases n x; rw [h]
@[simp] theorem Task.next_engaged (n : Nat) (x : Task) : (Task.next n x).engaged = x.engaged := by obtain ⟨p, f, h⟩ := Task.next_cases n x; rw [h]
@[simp] theorem Task.next_portWait (n : Nat) (x : Task) : (Task.next n x).portWait = x.portWait := by obtain ⟨p, f, h⟩ := Task.next_cases n x; rw [h]
@[simp] theorem Task.next_moving (n : Nat) (x : Task) : (Task.next n x).moving = x.moving := by obtain ⟨p, f, h⟩ := Task.next_cases n x; rw [h]
@[simp] theorem Task.next_halt (n : Nat) (x : Task) : (Task.next n x).halt = x.halt := by obtain ⟨p, f, h⟩ := Task.next_cases n x; rw [h]
@[simp] theorem Task.next_reply (n : Nat) (x : Task) : (Task.next n x).reply = x.reply := by obtain ⟨p, f, h⟩ := Task.next_cases n x; rw [h]
@[simp] theorem Task.next_getG (n : Nat) (x : Task) (r : Gpr) : (Task.next n x).getG r = x.getG r := by simp [Task.getG]
@[simp] theorem Task.next_getK (n : Nat) (x : Task) (r : Kr) : (Task.next n x).getK r = x.getK r := by simp [Task.getK]
@[simp] theorem Task.next_getV (n : Nat) (x : Task) (r : Vr) : (Task.next n x).getV r = x.getV r := by simp [Task.getV]

/-! ### How a body ends -/

@[simp] theorem run_ok (s t : State) : run s (.ok t) = .next t := rfl
@[simp] theorem run_error (s : State) (e : Exit) : run s (.error e) = .next (s.takeExit e) := rfl
@[simp] theorem need_true (e : Exit) : need true e = .ok () := rfl
@[simp] theorem need_false (e : Exit) : need false e = .error e := rfl

end Sys2Proof.Machine
end

