-- ==== Sys2Proof/Laws/Exits.lean ====
section
/-! SUPPORT. What the shared ends of a meaning can do: it completes or takes its exit, a check passes or exits, a trap is delivered or recorded. -/

namespace Sys2Proof.Machine

/-- A check passes exactly where its condition holds. -/
@[simp] theorem need_eq_ok {c : Bool} {e : Exit} : need c e = .ok () ↔ c = true := by
  cases c <;> simp [need]



/-- A meaning over `run` always answers a next state: its body's, or what its exit makes of the state it began in. -/
theorem run_cases (s : State) (b : Except Exit State) :
    (∃ t, b = .ok t ∧ run s b = .next t) ∨ (∃ e, b = .error e ∧ run s b = .next (s.takeExit e)) := by
  cases b with
  | ok t => exact .inl ⟨t, rfl, rfl⟩
  | error e => exact .inr ⟨e, rfl, rfl⟩

/-- It never faults and never refuses. -/
theorem run_next (s : State) (b : Except Exit State) : ∃ t, run s b = .next t := by
  obtain ⟨t, -, h⟩ | ⟨e, -, h⟩ := run_cases s b
  · exact ⟨t, h⟩
  · exact ⟨_, h⟩

/-- Where no halt takes the boundary a trap is delivered (R113). -/
theorem State.trapAt_deliver (s : State) (pc : Word) (c sub : Nat) (v : Word) (i : Option Word) (h : (s.task s.focus).halt = none) :
    s.trapAt pc c sub v i = s.deliver s.focus pc c sub v i := by
  simp [State.trapAt, h]

/-- A stop that a debugger takes is delivered in any case (R113, R114). -/
theorem State.trapAt_stops (s : State) (pc : Word) (c sub : Nat) (v : Word) (i : Option Word) (h : s.myJob.stopsFor c = true) :
    s.trapAt pc c sub v i = s.deliver s.focus pc c sub v i := by
  simp [State.trapAt, h]

/-- Any other trap at a halt's boundary is recorded with the task (R113). -/
theorem State.trapAt_record (s : State) (pc : Word) (c sub : Nat) (v i : Word) (h : (s.task s.focus).halt ≠ none)
    (d : s.myJob.stopsFor c = false) :
    s.trapAt pc c sub v (some i) = s.setTask s.focus { s.task s.focus with pendingTrap := some (pc, c, sub, v, i) } := by
  simp [State.trapAt, Option.isNone_iff_eq_none, h, d]

/-- A stalled instruction changes nothing but the cycle count. -/
theorem State.takeExit_stall (s : State) : s.takeExit .stall = { s with cycle := s.cycle + 1 } := rfl

/-- A task that waits keeps everything but its life. -/
theorem State.takeExit_wait (s : State) (w : WaitReason) :
    s.takeExit (.wait w) = s.setTask s.focus { s.task s.focus with life := .waiting w } := rfl

/-- With nothing scheduled and the device not stopped, the context in focus issues. -/
theorem step_issues (s : State) (h : s.schedule = []) (f : s.boot.fail = false) : step s = timed s (issueStep s) := by
  simp [step, h, f]

/-- In a device that has stopped nothing issues. -/
theorem step_stopped (s : State) (h : s.schedule = []) (f : s.boot.fail = true) : step s = .next s := by
  simp [step, h, f]

/-- A move that a stopped device does not take has no effect. -/
theorem step_stopped_move (s : State) {m : Move} {r : List Move} (h : s.schedule = m :: r) (f : s.boot.fail = true) (a : m.afterStop = false) :
    step s = .next { s with schedule := r } := by
  simp [step, h, f, a]

end Sys2Proof.Machine
end

