-- ==== Sys2Proof/Laws/Memories.lean ====
section
/-! SUPPORT. The memory operations beyond single bytes keep the canonical form: a part chosen by banks, a grafted range, a load of bytes. -/

namespace Sys2Proof.Machine

/-- Part of a list of cells is in canonical form. -/
theorem cellsFrom_filter (p : Host.Cell → Bool) {l : List Host.Cell} {lo : Nat} (h : cellsFrom lo l = true) : cellsFrom lo (l.filter p) = true := by
  induction l generalizing lo with
  | nil => rfl
  | cons e r ih =>
    obtain ⟨k, b⟩ := e
    simp only [cellsFrom, Bool.and_eq_true, decide_eq_true_eq, bne_iff_ne] at h
    obtain ⟨⟨h1, h2⟩, h3⟩ := h
    rw [List.filter_cons]
    split
    · simp only [cellsFrom, Bool.and_eq_true, decide_eq_true_eq, bne_iff_ne]
      exact ⟨⟨h1, h2⟩, ih h3⟩
    · exact cellsFrom_lower (ih h3) (by omega)

/-- What is kept of a canonical list lies from a bound on, where every kept cell does. -/
theorem cellsFrom_filter_ge {l : List Host.Cell} {lo : Nat} (p : Host.Cell → Bool) (k : Nat) (hp : ∀ e, p e = true → k ≤ e.1)
    (h : cellsFrom lo l = true) : cellsFrom k (l.filter p) = true := by
  have := cellsFrom_filter p h
  cases hl : l.filter p with
  | nil => rfl
  | cons e r =>
    have he : p e = true := (List.mem_filter.mp (hl ▸ List.mem_cons_self)).2
    rw [hl] at this
    obtain ⟨a, b⟩ := e
    simp only [cellsFrom, Bool.and_eq_true, decide_eq_true_eq, bne_iff_ne] at this ⊢
    exact ⟨⟨hp _ he, this.1.2⟩, this.2⟩

/-- Two canonical lists, the second from where the first ends, make one. -/
theorem cellsFrom_append {a b : List Host.Cell} {lo mid : Nat} (ha : cellsFrom lo a = true) (hm : ∀ e ∈ a, e.1 < mid) (hl : lo ≤ mid)
    (hb : cellsFrom mid b = true) : cellsFrom lo (a ++ b) = true := by
  induction a generalizing lo with
  | nil => exact cellsFrom_lower hb hl
  | cons e r ih =>
    obtain ⟨k, c⟩ := e
    simp only [cellsFrom, Bool.and_eq_true, decide_eq_true_eq, bne_iff_ne, List.cons_append] at ha ⊢
    have hk : k < mid := hm (k, c) List.mem_cons_self
    exact ⟨ha.1, ih ha.2 (fun e he => hm e (List.mem_cons_of_mem _ he)) (by omega)⟩

/-- A canonical list moved to another place is canonical. -/
theorem cellsFrom_shift {l : List Host.Cell} {at_ lo from_ : Nat} (h : cellsFrom from_ l = true) (ha : at_ ≤ from_) :
    cellsFrom (lo + (from_ - at_)) (l.map fun e => (lo + (e.1 - at_), e.2)) = true := by
  induction l generalizing from_ with
  | nil => rfl
  | cons e r ih =>
    obtain ⟨k, b⟩ := e
    simp only [cellsFrom, List.map_cons, Bool.and_eq_true, decide_eq_true_eq, bne_iff_ne] at h ⊢
    refine ⟨⟨by omega, h.1.2⟩, cellsFrom_lower (ih h.2 (by omega)) (by omega)⟩

theorem Memory.banks_wf {m : Memory} (keep : Nat → Bool) (h : m.wf = true) : (m.banks keep).wf = true := cellsFrom_filter _ h

theorem Memory.run_wf {m : Memory} (bank n : Nat) (h : m.wf = true) : (m.run bank n).wf = true := Memory.banks_wf _ h

theorem Memory.keepBanks_wf {m : Memory} (h : m.wf = true) : m.keepBanks.wf = true := Memory.banks_wf _ h

theorem Memory.load_wf {m : Memory} (off : Nat) (bs : List Byte) (h : m.wf = true) : (m.load off bs).wf = true := Memory.putBytes_wf off bs h

/-- A grafted range keeps the canonical form of the memory that takes it. -/
theorem Memory.graft_wf {m src : Memory} (lo n at_ : Nat) (h : m.wf = true) (hs : src.wf = true) : (m.graft lo n src at_).wf = true := by
  simp only [Memory.wf, Memory.graft]
  rw [List.append_assoc]
  refine cellsFrom_append (mid := lo) (cellsFrom_filter _ h) (fun e he => by simpa using (List.mem_filter.mp he).2) (Nat.zero_le _) ?_
  refine cellsFrom_append (mid := lo + n) ?_ ?_ (by omega) (cellsFrom_filter_ge _ _ (fun e he => by simpa using he) h)
  · have := cellsFrom_shift (lo := lo) (cellsFrom_filter_ge (fun e : Host.Cell => decide (at_ ≤ e.1) && decide (e.1 < at_ + n)) at_
      (fun e he => by simp at he; omega) hs) (Nat.le_refl at_)
    simpa using this
  · intro e he
    obtain ⟨y, hy, rfl⟩ := List.mem_map.mp he
    have := (List.mem_filter.mp hy).2
    simp at this
    show lo + (y.1 - at_) < lo + n
    omega

end Sys2Proof.Machine
end

