-- ==== Sys2Proof/Laws/PerInstr.lean ====
section
/-! SUPPORT. One lemma per constructor of `Instr` on its encoding: an instruction is one word, or two with a prefix (R59, R60), an event none. -/

namespace Sys2Proof.Laws

open Sys2Proof.Machine

/-- An encoded instruction has one or two words, an event has none, and a second word stands only behind a prefix word (R60). -/
def EncodedLength.Statement (i : Instr) : Prop :=
  (encode i).length ≤ 2 ∧ (isEvent i = true ↔ encode i = []) ∧
  ((encode i).length = 2 → ∀ w, (encode i).head? = some w → 0xFC000000 ≤ w.toNat)

theorem encodedLength_of_word {i : Instr} {w : Half32} (h : encode i = [w]) : EncodedLength.Statement i := by
  refine ⟨by simp [h], by simp [isEvent, h], fun hl => ?_⟩
  simp [h] at hl

theorem encodedLength_of_event {i : Instr} (h : encode i = []) : EncodedLength.Statement i := by
  refine ⟨by simp [h], by simp [isEvent, h], fun hl => ?_⟩
  simp [h] at hl

theorem encodedLength_of_pair {i : Instr} {c e : Nat} {w : Half32} (h : encode i = [pfx c e, w]) (hc : c < 64) (he : e < 1048576) :
    EncodedLength.Statement i := by
  refine ⟨by simp [h], by simp [isEvent, h], fun _ v hv => ?_⟩
  have : v = pfx c e := by simpa [h] using hv.symm
  subst this
  simp only [pfx, word, BitVec.toNat_ofNat]
  omega

theorem EncodedLength.add (a0 a1 a2 : Gpr) : EncodedLength.Statement (.add a0 a1 a2) :=
  encodedLength_of_word rfl

theorem EncodedLength.sub (a0 a1 a2 : Gpr) : EncodedLength.Statement (.sub a0 a1 a2) :=
  encodedLength_of_word rfl

theorem EncodedLength.min (a0 a1 a2 : Gpr) : EncodedLength.Statement (.min a0 a1 a2) :=
  encodedLength_of_word rfl

theorem EncodedLength.minn (a0 a1 a2 : Gpr) : EncodedLength.Statement (.minn a0 a1 a2) :=
  encodedLength_of_word rfl

theorem EncodedLength.max (a0 a1 a2 : Gpr) : EncodedLength.Statement (.max a0 a1 a2) :=
  encodedLength_of_word rfl

theorem EncodedLength.maxn (a0 a1 a2 : Gpr) : EncodedLength.Statement (.maxn a0 a1 a2) :=
  encodedLength_of_word rfl

theorem EncodedLength.mul (a0 a1 a2 : Gpr) : EncodedLength.Statement (.mul a0 a1 a2) :=
  encodedLength_of_word rfl

theorem EncodedLength.mulh (a0 a1 a2 : Gpr) : EncodedLength.Statement (.mulh a0 a1 a2) :=
  encodedLength_of_word rfl

theorem EncodedLength.mulhn (a0 a1 a2 : Gpr) : EncodedLength.Statement (.mulhn a0 a1 a2) :=
  encodedLength_of_word rfl

theorem EncodedLength.div (a0 a1 a2 : Gpr) : EncodedLength.Statement (.div a0 a1 a2) :=
  encodedLength_of_word rfl

theorem EncodedLength.divn (a0 a1 a2 : Gpr) : EncodedLength.Statement (.divn a0 a1 a2) :=
  encodedLength_of_word rfl

theorem EncodedLength.rem (a0 a1 a2 : Gpr) : EncodedLength.Statement (.rem a0 a1 a2) :=
  encodedLength_of_word rfl

theorem EncodedLength.remn (a0 a1 a2 : Gpr) : EncodedLength.Statement (.remn a0 a1 a2) :=
  encodedLength_of_word rfl

theorem EncodedLength.and (a0 a1 a2 : Gpr) : EncodedLength.Statement (.and a0 a1 a2) :=
  encodedLength_of_word rfl

theorem EncodedLength.or (a0 a1 a2 : Gpr) : EncodedLength.Statement (.or a0 a1 a2) :=
  encodedLength_of_word rfl

theorem EncodedLength.xor (a0 a1 a2 : Gpr) : EncodedLength.Statement (.xor a0 a1 a2) :=
  encodedLength_of_word rfl

theorem EncodedLength.andn (a0 a1 a2 : Gpr) : EncodedLength.Statement (.andn a0 a1 a2) :=
  encodedLength_of_word rfl

theorem EncodedLength.shl (a0 a1 a2 : Gpr) : EncodedLength.Statement (.shl a0 a1 a2) :=
  encodedLength_of_word rfl

theorem EncodedLength.shr (a0 a1 a2 : Gpr) : EncodedLength.Statement (.shr a0 a1 a2) :=
  encodedLength_of_word rfl

theorem EncodedLength.sar (a0 a1 a2 : Gpr) : EncodedLength.Statement (.sar a0 a1 a2) :=
  encodedLength_of_word rfl

theorem EncodedLength.rol (a0 a1 a2 : Gpr) : EncodedLength.Statement (.rol a0 a1 a2) :=
  encodedLength_of_word rfl

theorem EncodedLength.clz (a0 a1 : Gpr) : EncodedLength.Statement (.clz a0 a1) :=
  encodedLength_of_word rfl

theorem EncodedLength.ctz (a0 a1 : Gpr) : EncodedLength.Statement (.ctz a0 a1) :=
  encodedLength_of_word rfl

theorem EncodedLength.popc (a0 a1 : Gpr) : EncodedLength.Statement (.popc a0 a1) :=
  encodedLength_of_word rfl

theorem EncodedLength.zext (a0 a1 : Gpr) (a2 a3 : BitVec 6) : EncodedLength.Statement (.zext a0 a1 a2 a3) :=
  encodedLength_of_word rfl

theorem EncodedLength.sext (a0 a1 : Gpr) (a2 a3 : BitVec 6) : EncodedLength.Statement (.sext a0 a1 a2 a3) :=
  encodedLength_of_word rfl

theorem EncodedLength.ins (a0 a1 : Gpr) (a2 a3 : BitVec 6) : EncodedLength.Statement (.ins a0 a1 a2 a3) :=
  encodedLength_of_word rfl

theorem EncodedLength.ext (a0 a1 a2 : Gpr) : EncodedLength.Statement (.ext a0 a1 a2) :=
  encodedLength_of_word rfl

theorem EncodedLength.cmp (a0 a1 a2 : Gpr) (a3 : BitVec 4) : EncodedLength.Statement (.cmp a0 a1 a2 a3) :=
  encodedLength_of_word rfl

theorem EncodedLength.sel (a0 a1 a2 : Gpr) : EncodedLength.Statement (.sel a0 a1 a2) :=
  encodedLength_of_word rfl

theorem EncodedLength.ptag (a0 a1 a2 : Gpr) : EncodedLength.Statement (.ptag a0 a1 a2) :=
  encodedLength_of_word rfl

theorem EncodedLength.pfmt (a0 a1 : Gpr) : EncodedLength.Statement (.pfmt a0 a1) :=
  encodedLength_of_word rfl

theorem EncodedLength.padd (a0 a1 a2 : Gpr) : EncodedLength.Statement (.padd a0 a1 a2) :=
  encodedLength_of_word rfl

theorem EncodedLength.pstrip (a0 a1 : Gpr) : EncodedLength.Statement (.pstrip a0 a1) :=
  encodedLength_of_word rfl

theorem EncodedLength.addi (a0 a1 : Gpr) (a2 : BitVec 14) : EncodedLength.Statement (.addi a0 a1 a2) :=
  encodedLength_of_word rfl

theorem EncodedLength.addiPrefixed (a0 a1 : Gpr) (a2 : BitVec 34) : EncodedLength.Statement (.addiPrefixed a0 a1 a2) := by
  refine encodedLength_of_pair rfl ?_ ?_ <;> omega

theorem EncodedLength.shli (a0 a1 : Gpr) (a2 : BitVec 6) : EncodedLength.Statement (.shli a0 a1 a2) :=
  encodedLength_of_word rfl

theorem EncodedLength.shri (a0 a1 : Gpr) (a2 : BitVec 6) : EncodedLength.Statement (.shri a0 a1 a2) :=
  encodedLength_of_word rfl

theorem EncodedLength.sari (a0 a1 : Gpr) (a2 : BitVec 6) : EncodedLength.Statement (.sari a0 a1 a2) :=
  encodedLength_of_word rfl

theorem EncodedLength.ldi (a0 : Gpr) (a1 : BitVec 20) : EncodedLength.Statement (.ldi a0 a1) :=
  encodedLength_of_word rfl

theorem EncodedLength.ldiPrefixed (a0 : Gpr) (a1 : BitVec 40) : EncodedLength.Statement (.ldiPrefixed a0 a1) := by
  refine encodedLength_of_pair rfl ?_ ?_ <;> omega

theorem EncodedLength.ldih (a0 : Gpr) (a1 : BitVec 20) : EncodedLength.Statement (.ldih a0 a1) :=
  encodedLength_of_word rfl

theorem EncodedLength.br (a0 : BitVec 26) : EncodedLength.Statement (.br a0) :=
  encodedLength_of_word rfl

theorem EncodedLength.jal (a0 : Gpr) (a1 : BitVec 20) : EncodedLength.Statement (.jal a0 a1) :=
  encodedLength_of_word rfl

theorem EncodedLength.bc (a0 a1 : Gpr) (a2 : BitVec 4) (a3 : BitVec 10) : EncodedLength.Statement (.bc a0 a1 a2 a3) :=
  encodedLength_of_word rfl

theorem EncodedLength.bz (a0 : Gpr) (a1 : BitVec 17) : EncodedLength.Statement (.bz a0 a1) :=
  encodedLength_of_word rfl

theorem EncodedLength.bnz (a0 : Gpr) (a1 : BitVec 17) : EncodedLength.Statement (.bnz a0 a1) :=
  encodedLength_of_word rfl

theorem EncodedLength.loop (a0 : Gpr) (a1 : BitVec 17) : EncodedLength.Statement (.loop a0 a1) :=
  encodedLength_of_word rfl

theorem EncodedLength.jr (a0 : Gpr) (a1 : BitVec 17) : EncodedLength.Statement (.jr a0 a1) :=
  encodedLength_of_word rfl

theorem EncodedLength.ret (a0 : Gpr) : EncodedLength.Statement (.ret a0) :=
  encodedLength_of_word rfl

theorem EncodedLength.rep (a0 : Gpr) (a1 : BitVec 4) (a2 a3 a4 : BitVec 2) : EncodedLength.Statement (.rep a0 a1 a2 a3 a4) :=
  encodedLength_of_word rfl

theorem EncodedLength.fork (a0 a1 a2 : Gpr) : EncodedLength.Statement (.fork a0 a1 a2) :=
  encodedLength_of_word rfl

theorem EncodedLength.join (a0 a1 : Gpr) : EncodedLength.Statement (.join a0 a1) :=
  encodedLength_of_word rfl

theorem EncodedLength.joinT (a0 a1 : Gpr) : EncodedLength.Statement (.joinT a0 a1) :=
  encodedLength_of_word rfl

theorem EncodedLength.spawn (a0 a1 a2 : Gpr) : EncodedLength.Statement (.spawn a0 a1 a2) :=
  encodedLength_of_word rfl

theorem EncodedLength.yield : EncodedLength.Statement (.yield) :=
  encodedLength_of_word rfl

theorem EncodedLength.endTask : EncodedLength.Statement (.endTask) :=
  encodedLength_of_word rfl

theorem EncodedLength.nop : EncodedLength.Statement (.nop) :=
  encodedLength_of_word rfl

theorem EncodedLength.wait (a0 a1 : Gpr) : EncodedLength.Statement (.wait a0 a1) :=
  encodedLength_of_word rfl

theorem EncodedLength.waitv (a0 a1 a2 : Gpr) : EncodedLength.Statement (.waitv a0 a1 a2) :=
  encodedLength_of_word rfl

theorem EncodedLength.commit : EncodedLength.Statement (.commit) :=
  encodedLength_of_word rfl

theorem EncodedLength.mfc (a0 a1 : Gpr) : EncodedLength.Statement (.mfc a0 a1) :=
  encodedLength_of_word rfl

theorem EncodedLength.mtc (a0 a1 : Gpr) : EncodedLength.Statement (.mtc a0 a1) :=
  encodedLength_of_word rfl

theorem EncodedLength.trap (a0 : Gpr) : EncodedLength.Statement (.trap a0) :=
  encodedLength_of_word rfl

theorem EncodedLength.sys (a0 : Gpr) : EncodedLength.Statement (.sys a0) :=
  encodedLength_of_word rfl

theorem EncodedLength.eret : EncodedLength.Statement (.eret) :=
  encodedLength_of_word rfl

theorem EncodedLength.bkpt : EncodedLength.Statement (.bkpt) :=
  encodedLength_of_word rfl

theorem EncodedLength.tlbi (a0 a1 : Gpr) : EncodedLength.Statement (.tlbi a0 a1) :=
  encodedLength_of_word rfl

theorem EncodedLength.bmap (a0 a1 a2 : Gpr) : EncodedLength.Statement (.bmap a0 a1 a2) :=
  encodedLength_of_word rfl

theorem EncodedLength.qpool (a0 a1 : Gpr) : EncodedLength.Statement (.qpool a0 a1) :=
  encodedLength_of_word rfl

theorem EncodedLength.trace (a0 a1 : Gpr) : EncodedLength.Statement (.trace a0 a1) :=
  encodedLength_of_word rfl

theorem EncodedLength.idle (a0 a1 : Gpr) : EncodedLength.Statement (.idle a0 a1) :=
  encodedLength_of_word rfl

theorem EncodedLength.flush (a0 a1 : Gpr) : EncodedLength.Statement (.flush a0 a1) :=
  encodedLength_of_word rfl

theorem EncodedLength.ld (a0 a1 : Gpr) (a2 a3 : BitVec 2) (a4 : BitVec 1) (a5 : BitVec 9) : EncodedLength.Statement (.ld a0 a1 a2 a3 a4 a5) :=
  encodedLength_of_word rfl

theorem EncodedLength.ldPrefixed (a0 a1 : Gpr) (a2 a3 : BitVec 2) (a4 : BitVec 1) (a5 : BitVec 9) (a6 : BitVec 20) : EncodedLength.Statement (.ldPrefixed a0 a1 a2 a3 a4 a5 a6) := by
  refine encodedLength_of_pair rfl ?_ ?_ <;> omega

theorem EncodedLength.st (a0 a1 : Gpr) (a2 a3 : BitVec 2) (a4 : BitVec 9) : EncodedLength.Statement (.st a0 a1 a2 a3 a4) :=
  encodedLength_of_word rfl

theorem EncodedLength.stPrefixed (a0 a1 : Gpr) (a2 a3 : BitVec 2) (a4 : BitVec 9) (a5 : BitVec 20) : EncodedLength.Statement (.stPrefixed a0 a1 a2 a3 a4 a5) := by
  refine encodedLength_of_pair rfl ?_ ?_ <;> omega

theorem EncodedLength.amoAdd (a0 a1 a2 : Gpr) (a3 : BitVec 1) (a4 : BitVec 2) : EncodedLength.Statement (.amoAdd a0 a1 a2 a3 a4) :=
  encodedLength_of_word rfl

theorem EncodedLength.amoMin (a0 a1 a2 : Gpr) (a3 : BitVec 1) (a4 : BitVec 2) : EncodedLength.Statement (.amoMin a0 a1 a2 a3 a4) :=
  encodedLength_of_word rfl

theorem EncodedLength.amoMinn (a0 a1 a2 : Gpr) (a3 : BitVec 1) (a4 : BitVec 2) : EncodedLength.Statement (.amoMinn a0 a1 a2 a3 a4) :=
  encodedLength_of_word rfl

theorem EncodedLength.amoMax (a0 a1 a2 : Gpr) (a3 : BitVec 1) (a4 : BitVec 2) : EncodedLength.Statement (.amoMax a0 a1 a2 a3 a4) :=
  encodedLength_of_word rfl

theorem EncodedLength.amoMaxn (a0 a1 a2 : Gpr) (a3 : BitVec 1) (a4 : BitVec 2) : EncodedLength.Statement (.amoMaxn a0 a1 a2 a3 a4) :=
  encodedLength_of_word rfl

theorem EncodedLength.amoAnd (a0 a1 a2 : Gpr) (a3 : BitVec 1) (a4 : BitVec 2) : EncodedLength.Statement (.amoAnd a0 a1 a2 a3 a4) :=
  encodedLength_of_word rfl

theorem EncodedLength.amoOr (a0 a1 a2 : Gpr) (a3 : BitVec 1) (a4 : BitVec 2) : EncodedLength.Statement (.amoOr a0 a1 a2 a3 a4) :=
  encodedLength_of_word rfl

theorem EncodedLength.amoXor (a0 a1 a2 : Gpr) (a3 : BitVec 1) (a4 : BitVec 2) : EncodedLength.Statement (.amoXor a0 a1 a2 a3 a4) :=
  encodedLength_of_word rfl

theorem EncodedLength.amoSwap (a0 a1 a2 : Gpr) (a3 : BitVec 1) (a4 : BitVec 2) : EncodedLength.Statement (.amoSwap a0 a1 a2 a3 a4) :=
  encodedLength_of_word rfl

theorem EncodedLength.amoCas (a0 a1 a2 : Gpr) (a3 : BitVec 1) (a4 : BitVec 2) : EncodedLength.Statement (.amoCas a0 a1 a2 a3 a4) :=
  encodedLength_of_word rfl

theorem EncodedLength.amoFmin (a0 a1 a2 : Gpr) (a3 : BitVec 2) : EncodedLength.Statement (.amoFmin a0 a1 a2 a3) :=
  encodedLength_of_word rfl

theorem EncodedLength.amoFmax (a0 a1 a2 : Gpr) (a3 : BitVec 2) : EncodedLength.Statement (.amoFmax a0 a1 a2 a3) :=
  encodedLength_of_word rfl

theorem EncodedLength.amoPrefixed (a0 : BitVec 4) (a1 a2 a3 : Gpr) (a4 : BitVec 1) (a5 : BitVec 2) (a6 : Gpr) (a7 : BitVec 3) (a8 a9 : BitVec 1) : EncodedLength.Statement (.amoPrefixed a0 a1 a2 a3 a4 a5 a6 a7 a8 a9) := by
  refine encodedLength_of_pair rfl ?_ ?_ <;> omega

theorem EncodedLength.redAdd (a0 a1 : Gpr) (a2 : BitVec 1) (a3 : BitVec 2) : EncodedLength.Statement (.redAdd a0 a1 a2 a3) :=
  encodedLength_of_word rfl

theorem EncodedLength.redMin (a0 a1 : Gpr) (a2 : BitVec 1) (a3 : BitVec 2) : EncodedLength.Statement (.redMin a0 a1 a2 a3) :=
  encodedLength_of_word rfl

theorem EncodedLength.redMinn (a0 a1 : Gpr) (a2 : BitVec 1) (a3 : BitVec 2) : EncodedLength.Statement (.redMinn a0 a1 a2 a3) :=
  encodedLength_of_word rfl

theorem EncodedLength.redMax (a0 a1 : Gpr) (a2 : BitVec 1) (a3 : BitVec 2) : EncodedLength.Statement (.redMax a0 a1 a2 a3) :=
  encodedLength_of_word rfl

theorem EncodedLength.redMaxn (a0 a1 : Gpr) (a2 : BitVec 1) (a3 : BitVec 2) : EncodedLength.Statement (.redMaxn a0 a1 a2 a3) :=
  encodedLength_of_word rfl

theorem EncodedLength.redAnd (a0 a1 : Gpr) (a2 : BitVec 1) (a3 : BitVec 2) : EncodedLength.Statement (.redAnd a0 a1 a2 a3) :=
  encodedLength_of_word rfl

theorem EncodedLength.redOr (a0 a1 : Gpr) (a2 : BitVec 1) (a3 : BitVec 2) : EncodedLength.Statement (.redOr a0 a1 a2 a3) :=
  encodedLength_of_word rfl

theorem EncodedLength.redXor (a0 a1 : Gpr) (a2 : BitVec 1) (a3 : BitVec 2) : EncodedLength.Statement (.redXor a0 a1 a2 a3) :=
  encodedLength_of_word rfl

theorem EncodedLength.redFmin (a0 a1 : Gpr) (a2 : BitVec 2) : EncodedLength.Statement (.redFmin a0 a1 a2) :=
  encodedLength_of_word rfl

theorem EncodedLength.redFmax (a0 a1 : Gpr) (a2 : BitVec 2) : EncodedLength.Statement (.redFmax a0 a1 a2) :=
  encodedLength_of_word rfl

theorem EncodedLength.cinv (a0 : BitVec 3) (a1 a2 : Gpr) : EncodedLength.Statement (.cinv a0 a1 a2) :=
  encodedLength_of_word rfl

theorem EncodedLength.cwb (a0 : BitVec 3) (a1 a2 : Gpr) : EncodedLength.Statement (.cwb a0 a1 a2) :=
  encodedLength_of_word rfl

theorem EncodedLength.cpref (a0 : BitVec 3) (a1 a2 : Gpr) : EncodedLength.Statement (.cpref a0 a1 a2) :=
  encodedLength_of_word rfl

theorem EncodedLength.qsetCreate (a0 : BitVec 4) (a1 a2 : Gpr) : EncodedLength.Statement (.qsetCreate a0 a1 a2) :=
  encodedLength_of_word rfl

theorem EncodedLength.qsetAttach (a0 : BitVec 4) (a1 a2 : Gpr) : EncodedLength.Statement (.qsetAttach a0 a1 a2) :=
  encodedLength_of_word rfl

theorem EncodedLength.qsetRelease (a0 : BitVec 4) (a1 a2 : Gpr) : EncodedLength.Statement (.qsetRelease a0 a1 a2) :=
  encodedLength_of_word rfl

theorem EncodedLength.qadvC (a0 : BitVec 4) (a1 : Gpr) : EncodedLength.Statement (.qadvC a0 a1) :=
  encodedLength_of_word rfl

theorem EncodedLength.qadvP (a0 : BitVec 4) (a1 : Gpr) : EncodedLength.Statement (.qadvP a0 a1) :=
  encodedLength_of_word rfl

theorem EncodedLength.qstat (a0 : Gpr) (a1 : BitVec 4) : EncodedLength.Statement (.qstat a0 a1) :=
  encodedLength_of_word rfl

theorem EncodedLength.fence (a0 : BitVec 3) : EncodedLength.Statement (.fence a0) :=
  encodedLength_of_word rfl

theorem EncodedLength.acq (a0 : BitVec 3) : EncodedLength.Statement (.acq a0) :=
  encodedLength_of_word rfl

theorem EncodedLength.rel (a0 : BitVec 3) : EncodedLength.Statement (.rel a0) :=
  encodedLength_of_word rfl

theorem EncodedLength.bar (a0 : Gpr) (a1 : BitVec 3) : EncodedLength.Statement (.bar a0 a1) :=
  encodedLength_of_word rfl

theorem EncodedLength.phase (a0 : Gpr) : EncodedLength.Statement (.phase a0) :=
  encodedLength_of_word rfl

theorem EncodedLength.send (a0 a1 : Gpr) : EncodedLength.Statement (.send a0 a1) :=
  encodedLength_of_word rfl

theorem EncodedLength.post (a0 a1 : Gpr) : EncodedLength.Statement (.post a0 a1) :=
  encodedLength_of_word rfl

theorem EncodedLength.dpush (a0 a1 : Gpr) : EncodedLength.Statement (.dpush a0 a1) :=
  encodedLength_of_word rfl

theorem EncodedLength.dpop (a0 a1 : Gpr) : EncodedLength.Statement (.dpop a0 a1) :=
  encodedLength_of_word rfl

theorem EncodedLength.dsteal (a0 a1 a2 : Gpr) : EncodedLength.Statement (.dsteal a0 a1 a2) :=
  encodedLength_of_word rfl

theorem EncodedLength.hbind (a0 a1 a2 : Gpr) : EncodedLength.Statement (.hbind a0 a1 a2) :=
  encodedLength_of_word rfl

theorem EncodedLength.hhold (a0 a1 : Gpr) : EncodedLength.Statement (.hhold a0 a1) :=
  encodedLength_of_word rfl

theorem EncodedLength.hrel (a0 a1 : Gpr) : EncodedLength.Statement (.hrel a0 a1) :=
  encodedLength_of_word rfl

theorem EncodedLength.launch (a0 a1 a2 : Gpr) : EncodedLength.Statement (.launch a0 a1 a2) :=
  encodedLength_of_word rfl

theorem EncodedLength.tid (a0 a1 : Gpr) : EncodedLength.Statement (.tid a0 a1) :=
  encodedLength_of_word rfl

theorem EncodedLength.migrate (a0 : Gpr) : EncodedLength.Statement (.migrate a0) :=
  encodedLength_of_word rfl

theorem EncodedLength.rcmask (a0 a1 : Gpr) : EncodedLength.Statement (.rcmask a0 a1) :=
  encodedLength_of_word rfl

theorem EncodedLength.put (a0 : BitVec 4) (a1 : Gpr) : EncodedLength.Statement (.put a0 a1) :=
  encodedLength_of_word rfl

theorem EncodedLength.get (a0 : Gpr) (a1 : BitVec 4) (a2 : Gpr) : EncodedLength.Statement (.get a0 a1 a2) :=
  encodedLength_of_word rfl

theorem EncodedLength.offer (a0 : BitVec 4) (a1 : Gpr) : EncodedLength.Statement (.offer a0 a1) :=
  encodedLength_of_word rfl

theorem EncodedLength.alt (a0 a1 a2 : Gpr) : EncodedLength.Statement (.alt a0 a1 a2) :=
  encodedLength_of_word rfl

theorem EncodedLength.poll (a0 : Gpr) (a1 : BitVec 4) : EncodedLength.Statement (.poll a0 a1) :=
  encodedLength_of_word rfl

theorem EncodedLength.pwd (a0 : Gpr) (a1 : BitVec 4) : EncodedLength.Statement (.pwd a0 a1) :=
  encodedLength_of_word rfl

theorem EncodedLength.cload (a0 a1 : Gpr) : EncodedLength.Statement (.cload a0 a1) :=
  encodedLength_of_word rfl

theorem EncodedLength.cunload (a0 a1 : Gpr) : EncodedLength.Statement (.cunload a0 a1) :=
  encodedLength_of_word rfl

theorem EncodedLength.cbind (a0 : Gpr) (a1 : BitVec 4) (a2 : Gpr) : EncodedLength.Statement (.cbind a0 a1 a2) :=
  encodedLength_of_word rfl

theorem EncodedLength.pstat (a0 : Gpr) (a1 : BitVec 4) : EncodedLength.Statement (.pstat a0 a1) :=
  encodedLength_of_word rfl

theorem EncodedLength.cpy (a0 a1 a2 : Gpr) : EncodedLength.Statement (.cpy a0 a1 a2) :=
  encodedLength_of_word rfl

theorem EncodedLength.cpyM (a0 a1 a2 : Gpr) : EncodedLength.Statement (.cpyM a0 a1 a2) :=
  encodedLength_of_word rfl

theorem EncodedLength.cmcast (a0 a1 a2 : Gpr) : EncodedLength.Statement (.cmcast a0 a1 a2) :=
  encodedLength_of_word rfl

theorem EncodedLength.cseal (a0 : Gpr) : EncodedLength.Statement (.cseal a0) :=
  encodedLength_of_word rfl

theorem EncodedLength.cwait (a0 a1 : Gpr) : EncodedLength.Statement (.cwait a0 a1) :=
  encodedLength_of_word rfl

theorem EncodedLength.wmk (a0 a1 : Gpr) : EncodedLength.Statement (.wmk a0 a1) :=
  encodedLength_of_word rfl

theorem EncodedLength.cresume (a0 : Gpr) : EncodedLength.Statement (.cresume a0) :=
  encodedLength_of_word rfl

theorem EncodedLength.cabort (a0 : Gpr) : EncodedLength.Statement (.cabort a0) :=
  encodedLength_of_word rfl

theorem EncodedLength.streamOn (a0 a1 : Gpr) : EncodedLength.Statement (.streamOn a0 a1) :=
  encodedLength_of_word rfl

theorem EncodedLength.streamOff (a0 : Gpr) : EncodedLength.Statement (.streamOff a0) :=
  encodedLength_of_word rfl

theorem EncodedLength.rbind (a0 a1 : Gpr) : EncodedLength.Statement (.rbind a0 a1) :=
  encodedLength_of_word rfl

theorem EncodedLength.fold (a0 : Gpr) (a1 : BitVec 1) (a2 : BitVec 2) (a3 : Gpr) : EncodedLength.Statement (.fold a0 a1 a2 a3) :=
  encodedLength_of_word rfl

theorem EncodedLength.scan (a0 : Gpr) (a1 : BitVec 1) (a2 a3 : BitVec 2) (a4 : Gpr) : EncodedLength.Statement (.scan a0 a1 a2 a3 a4) :=
  encodedLength_of_word rfl

theorem EncodedLength.zip (a0 a1 : BitVec 2) (a2 : Gpr) : EncodedLength.Statement (.zip a0 a1 a2) :=
  encodedLength_of_word rfl

theorem EncodedLength.outer (a0 : BitVec 2) (a1 a2 : Gpr) : EncodedLength.Statement (.outer a0 a1 a2) :=
  encodedLength_of_word rfl

theorem EncodedLength.hstat (a0 a1 : Gpr) : EncodedLength.Statement (.hstat a0 a1) :=
  encodedLength_of_word rfl

theorem EncodedLength.vadd (a0 a1 a2 : Vr) (a3 : Kr) (a4 : Fmt) : EncodedLength.Statement (.vadd a0 a1 a2 a3 a4) :=
  encodedLength_of_word rfl

theorem EncodedLength.vsub (a0 a1 a2 : Vr) (a3 : Kr) (a4 : Fmt) : EncodedLength.Statement (.vsub a0 a1 a2 a3 a4) :=
  encodedLength_of_word rfl

theorem EncodedLength.vmul (a0 a1 a2 : Vr) (a3 : Kr) (a4 : Fmt) : EncodedLength.Statement (.vmul a0 a1 a2 a3 a4) :=
  encodedLength_of_word rfl

theorem EncodedLength.vfma (a0 a1 a2 : Vr) (a3 : Kr) (a4 : Fmt) : EncodedLength.Statement (.vfma a0 a1 a2 a3 a4) :=
  encodedLength_of_word rfl

theorem EncodedLength.vfms (a0 a1 a2 : Vr) (a3 : Kr) (a4 : Fmt) : EncodedLength.Statement (.vfms a0 a1 a2 a3 a4) :=
  encodedLength_of_word rfl

theorem EncodedLength.vfnma (a0 a1 a2 : Vr) (a3 : Kr) (a4 : Fmt) : EncodedLength.Statement (.vfnma a0 a1 a2 a3 a4) :=
  encodedLength_of_word rfl

theorem EncodedLength.vmin (a0 a1 a2 : Vr) (a3 : Kr) (a4 : Fmt) : EncodedLength.Statement (.vmin a0 a1 a2 a3 a4) :=
  encodedLength_of_word rfl

theorem EncodedLength.vmax (a0 a1 a2 : Vr) (a3 : Kr) (a4 : Fmt) : EncodedLength.Statement (.vmax a0 a1 a2 a3 a4) :=
  encodedLength_of_word rfl

theorem EncodedLength.vabs (a0 a1 : Vr) (a2 : Kr) (a3 : Fmt) : EncodedLength.Statement (.vabs a0 a1 a2 a3) :=
  encodedLength_of_word rfl

theorem EncodedLength.vneg (a0 a1 : Vr) (a2 : Kr) (a3 : Fmt) : EncodedLength.Statement (.vneg a0 a1 a2 a3) :=
  encodedLength_of_word rfl

theorem EncodedLength.vrcp (a0 a1 : Vr) (a2 : Kr) (a3 : Fmt) : EncodedLength.Statement (.vrcp a0 a1 a2 a3) :=
  encodedLength_of_word rfl

theorem EncodedLength.vrsqrt (a0 a1 : Vr) (a2 : Kr) (a3 : Fmt) : EncodedLength.Statement (.vrsqrt a0 a1 a2 a3) :=
  encodedLength_of_word rfl

theorem EncodedLength.vexp2 (a0 a1 : Vr) (a2 : Kr) (a3 : Fmt) : EncodedLength.Statement (.vexp2 a0 a1 a2 a3) :=
  encodedLength_of_word rfl

theorem EncodedLength.vlog2 (a0 a1 : Vr) (a2 : Kr) (a3 : Fmt) : EncodedLength.Statement (.vlog2 a0 a1 a2 a3) :=
  encodedLength_of_word rfl

theorem EncodedLength.vmov (a0 a1 : Vr) (a2 : Kr) (a3 : BitVec 1) : EncodedLength.Statement (.vmov a0 a1 a2 a3) :=
  encodedLength_of_word rfl

theorem EncodedLength.vnot (a0 a1 : Vr) (a2 : Kr) (a3 : BitVec 1) : EncodedLength.Statement (.vnot a0 a1 a2 a3) :=
  encodedLength_of_word rfl

theorem EncodedLength.vand (a0 a1 a2 : Vr) (a3 : Kr) : EncodedLength.Statement (.vand a0 a1 a2 a3) :=
  encodedLength_of_word rfl

theorem EncodedLength.vor (a0 a1 a2 : Vr) (a3 : Kr) : EncodedLength.Statement (.vor a0 a1 a2 a3) :=
  encodedLength_of_word rfl

theorem EncodedLength.vxor (a0 a1 a2 : Vr) (a3 : Kr) : EncodedLength.Statement (.vxor a0 a1 a2 a3) :=
  encodedLength_of_word rfl

theorem EncodedLength.vshl (a0 a1 a2 : Vr) (a3 : Kr) (a4 : Fmt) : EncodedLength.Statement (.vshl a0 a1 a2 a3 a4) :=
  encodedLength_of_word rfl

theorem EncodedLength.vshr (a0 a1 a2 : Vr) (a3 : Kr) (a4 : Fmt) : EncodedLength.Statement (.vshr a0 a1 a2 a3 a4) :=
  encodedLength_of_word rfl

theorem EncodedLength.vsar (a0 a1 a2 : Vr) (a3 : Kr) (a4 : Fmt) : EncodedLength.Statement (.vsar a0 a1 a2 a3 a4) :=
  encodedLength_of_word rfl

theorem EncodedLength.vsel (a0 a1 a2 : Vr) (a3 : Kr) : EncodedLength.Statement (.vsel a0 a1 a2 a3) :=
  encodedLength_of_word rfl

theorem EncodedLength.vbscale (a0 a1 a2 : Vr) (a3 : Kr) (a4 : Fmt) : EncodedLength.Statement (.vbscale a0 a1 a2 a3 a4) :=
  encodedLength_of_word rfl

theorem EncodedLength.vcmp (a0 : Kr) (a1 a2 : Vr) (a3 : Kr) (a4 : Fmt) (a5 : BitVec 3) : EncodedLength.Statement (.vcmp a0 a1 a2 a3 a4 a5) :=
  encodedLength_of_word rfl

theorem EncodedLength.vcvt (a0 a1 : Vr) (a2 : Fmt) (a3 : Kr) (a4 : Fmt) : EncodedLength.Statement (.vcvt a0 a1 a2 a3 a4) :=
  encodedLength_of_word rfl

theorem EncodedLength.vcvtSat (a0 a1 : Vr) (a2 : Fmt) (a3 : Kr) (a4 : Fmt) : EncodedLength.Statement (.vcvtSat a0 a1 a2 a3 a4) :=
  encodedLength_of_word rfl

theorem EncodedLength.vcvtSr (a0 a1 : Vr) (a2 : Fmt) (a3 : Kr) (a4 : Fmt) : EncodedLength.Statement (.vcvtSr a0 a1 a2 a3 a4) :=
  encodedLength_of_word rfl

theorem EncodedLength.vpack (a0 a1 : Vr) (a2 : BitVec 5) (a3 : Kr) (a4 : Fmt) : EncodedLength.Statement (.vpack a0 a1 a2 a3 a4) :=
  encodedLength_of_word rfl

theorem EncodedLength.vunpack (a0 a1 : Vr) (a2 : BitVec 5) (a3 : Kr) (a4 : Fmt) : EncodedLength.Statement (.vunpack a0 a1 a2 a3 a4) :=
  encodedLength_of_word rfl

theorem EncodedLength.vdecode (a0 a1 : Vr) (a2 : BitVec 3) (a3 : Kr) (a4 : Fmt) : EncodedLength.Statement (.vdecode a0 a1 a2 a3 a4) :=
  encodedLength_of_word rfl

theorem EncodedLength.vins (a0 a1 a2 : Vr) (a3 : Fmt) : EncodedLength.Statement (.vins a0 a1 a2 a3) :=
  encodedLength_of_word rfl

theorem EncodedLength.vext (a0 a1 a2 : Vr) (a3 : Fmt) : EncodedLength.Statement (.vext a0 a1 a2 a3) :=
  encodedLength_of_word rfl

theorem EncodedLength.vredAdd (a0 a1 : Vr) (a2 : Kr) (a3 : Fmt) : EncodedLength.Statement (.vredAdd a0 a1 a2 a3) :=
  encodedLength_of_word rfl

theorem EncodedLength.vredMax (a0 a1 : Vr) (a2 : Kr) (a3 : Fmt) : EncodedLength.Statement (.vredMax a0 a1 a2 a3) :=
  encodedLength_of_word rfl

theorem EncodedLength.vredMin (a0 a1 : Vr) (a2 : Kr) (a3 : Fmt) : EncodedLength.Statement (.vredMin a0 a1 a2 a3) :=
  encodedLength_of_word rfl

theorem EncodedLength.vperm (a0 a1 a2 : Vr) (a3 : Kr) : EncodedLength.Statement (.vperm a0 a1 a2 a3) :=
  encodedLength_of_word rfl

theorem EncodedLength.vbcast (a0 a1 : Vr) (a2 : Kr) (a3 : Fmt) : EncodedLength.Statement (.vbcast a0 a1 a2 a3) :=
  encodedLength_of_word rfl

theorem EncodedLength.vslide (a0 a1 a2 : Vr) (a3 : Kr) : EncodedLength.Statement (.vslide a0 a1 a2 a3) :=
  encodedLength_of_word rfl

theorem EncodedLength.vcompact (a0 a1 : Vr) (a2 : Kr) : EncodedLength.Statement (.vcompact a0 a1 a2) :=
  encodedLength_of_word rfl

theorem EncodedLength.vexpand (a0 a1 : Vr) (a2 : Kr) : EncodedLength.Statement (.vexpand a0 a1 a2) :=
  encodedLength_of_word rfl

theorem EncodedLength.vpopk (a0 : Vr) (a1 : Kr) : EncodedLength.Statement (.vpopk a0 a1) :=
  encodedLength_of_word rfl

theorem EncodedLength.kand (a0 a1 a2 : Kr) : EncodedLength.Statement (.kand a0 a1 a2) :=
  encodedLength_of_word rfl

theorem EncodedLength.kor (a0 a1 a2 : Kr) : EncodedLength.Statement (.kor a0 a1 a2) :=
  encodedLength_of_word rfl

theorem EncodedLength.kxor (a0 a1 a2 : Kr) : EncodedLength.Statement (.kxor a0 a1 a2) :=
  encodedLength_of_word rfl

theorem EncodedLength.knot (a0 a1 : Kr) : EncodedLength.Statement (.knot a0 a1) :=
  encodedLength_of_word rfl

theorem EncodedLength.kmov (a0 a1 : Kr) : EncodedLength.Statement (.kmov a0 a1) :=
  encodedLength_of_word rfl

theorem EncodedLength.vldl (a0 : Vr) (a1 : Gpr) (a2 : BitVec 2) (a3 : Kr) (a4 : BitVec 4) : EncodedLength.Statement (.vldl a0 a1 a2 a3 a4) :=
  encodedLength_of_word rfl

theorem EncodedLength.vldlPrefixed (a0 : Vr) (a1 : Gpr) (a2 : BitVec 2) (a3 : Kr) (a4 : BitVec 4) (a5 : Gpr) (a6 : BitVec 20) : EncodedLength.Statement (.vldlPrefixed a0 a1 a2 a3 a4 a5 a6) := by
  refine encodedLength_of_pair rfl ?_ ?_ <;> omega

theorem EncodedLength.vstl (a0 : Vr) (a1 : Gpr) (a2 : BitVec 2) (a3 : Kr) (a4 : BitVec 4) : EncodedLength.Statement (.vstl a0 a1 a2 a3 a4) :=
  encodedLength_of_word rfl

theorem EncodedLength.vstlPrefixed (a0 : Vr) (a1 : Gpr) (a2 : BitVec 2) (a3 : Kr) (a4 : BitVec 4) (a5 : Gpr) (a6 : BitVec 20) : EncodedLength.Statement (.vstlPrefixed a0 a1 a2 a3 a4 a5 a6) := by
  refine encodedLength_of_pair rfl ?_ ?_ <;> omega

theorem EncodedLength.vld (a0 : Vr) (a1 : Gpr) (a2 : BitVec 2) (a3 : Kr) (a4 : Fmt) (a5 : BitVec 5) : EncodedLength.Statement (.vld a0 a1 a2 a3 a4 a5) :=
  encodedLength_of_word rfl

theorem EncodedLength.vldPrefixed (a0 : Vr) (a1 : Gpr) (a2 : BitVec 2) (a3 : Kr) (a4 : Fmt) (a5 : BitVec 5) (a6 : Gpr) (a7 : BitVec 20) : EncodedLength.Statement (.vldPrefixed a0 a1 a2 a3 a4 a5 a6 a7) := by
  refine encodedLength_of_pair rfl ?_ ?_ <;> omega

theorem EncodedLength.vst (a0 : Vr) (a1 : Gpr) (a2 : BitVec 2) (a3 : Kr) (a4 : Fmt) (a5 : BitVec 5) : EncodedLength.Statement (.vst a0 a1 a2 a3 a4 a5) :=
  encodedLength_of_word rfl

theorem EncodedLength.vstPrefixed (a0 : Vr) (a1 : Gpr) (a2 : BitVec 2) (a3 : Kr) (a4 : Fmt) (a5 : BitVec 5) (a6 : Gpr) (a7 : BitVec 20) : EncodedLength.Statement (.vstPrefixed a0 a1 a2 a3 a4 a5 a6 a7) := by
  refine encodedLength_of_pair rfl ?_ ?_ <;> omega

theorem EncodedLength.vgather (a0 : Vr) (a1 : Gpr) (a2 : BitVec 2) (a3 : Kr) (a4 : Fmt) (a5 : BitVec 5) : EncodedLength.Statement (.vgather a0 a1 a2 a3 a4 a5) :=
  encodedLength_of_word rfl

theorem EncodedLength.vgatherPrefixed (a0 : Vr) (a1 : Gpr) (a2 : BitVec 2) (a3 : Kr) (a4 : Fmt) (a5 : BitVec 5) (a6 : Gpr) : EncodedLength.Statement (.vgatherPrefixed a0 a1 a2 a3 a4 a5 a6) := by
  refine encodedLength_of_pair rfl ?_ ?_ <;> omega

theorem EncodedLength.vscatter (a0 : Vr) (a1 : Gpr) (a2 : BitVec 2) (a3 : Kr) (a4 : Fmt) (a5 : BitVec 5) : EncodedLength.Statement (.vscatter a0 a1 a2 a3 a4 a5) :=
  encodedLength_of_word rfl

theorem EncodedLength.vscatterPrefixed (a0 : Vr) (a1 : Gpr) (a2 : BitVec 2) (a3 : Kr) (a4 : Fmt) (a5 : BitVec 5) (a6 : Gpr) : EncodedLength.Statement (.vscatterPrefixed a0 a1 a2 a3 a4 a5 a6) := by
  refine encodedLength_of_pair rfl ?_ ?_ <;> omega

theorem EncodedLength.mma (a0 : BitVec 2) (a1 a2 : Fmt) (a3 : Gpr) : EncodedLength.Statement (.mma a0 a1 a2 a3) :=
  encodedLength_of_word rfl

theorem EncodedLength.mcfg (a0 a1 a2 : Gpr) : EncodedLength.Statement (.mcfg a0 a1 a2) :=
  encodedLength_of_word rfl

theorem EncodedLength.mzero (a0 a1 : BitVec 2) : EncodedLength.Statement (.mzero a0 a1) :=
  encodedLength_of_word rfl

theorem EncodedLength.mloadA (a0 a1 : BitVec 2) (a2 : Gpr) : EncodedLength.Statement (.mloadA a0 a1 a2) :=
  encodedLength_of_word rfl

theorem EncodedLength.mlatchB (a0 : Gpr) : EncodedLength.Statement (.mlatchB a0) :=
  encodedLength_of_word rfl

theorem EncodedLength.mrot : EncodedLength.Statement (.mrot) :=
  encodedLength_of_word rfl

theorem EncodedLength.mring (a0 a1 : Gpr) : EncodedLength.Statement (.mring a0 a1) :=
  encodedLength_of_word rfl

theorem EncodedLength.msum (a0 : BitVec 2) (a1 : Gpr) : EncodedLength.Statement (.msum a0 a1) :=
  encodedLength_of_word rfl

theorem EncodedLength.mscale (a0 : BitVec 2) (a1 a2 : Vr) : EncodedLength.Statement (.mscale a0 a1 a2) :=
  encodedLength_of_word rfl

theorem EncodedLength.mdrain (a0 : BitVec 2) (a1 a2 : Gpr) : EncodedLength.Statement (.mdrain a0 a1 a2) :=
  encodedLength_of_word rfl

theorem EncodedLength.mstat (a0 : Gpr) : EncodedLength.Statement (.mstat a0) :=
  encodedLength_of_word rfl

theorem EncodedLength.mmaF64 (a0 : BitVec 2) (a1 : Gpr) : EncodedLength.Statement (.mmaF64 a0 a1) :=
  encodedLength_of_word rfl

theorem EncodedLength.vdiv (a0 a1 a2 : Vr) (a3 : Kr) (a4 : Fmt) : EncodedLength.Statement (.vdiv a0 a1 a2 a3 a4) :=
  encodedLength_of_word rfl

theorem EncodedLength.vsqrt (a0 a1 : Vr) (a2 : Kr) (a3 : Fmt) : EncodedLength.Statement (.vsqrt a0 a1 a2 a3) :=
  encodedLength_of_word rfl

theorem EncodedLength.vexp (a0 a1 : Vr) (a2 : Kr) (a3 : Fmt) : EncodedLength.Statement (.vexp a0 a1 a2 a3) :=
  encodedLength_of_word rfl

theorem EncodedLength.vlog (a0 a1 : Vr) (a2 : Kr) (a3 : Fmt) : EncodedLength.Statement (.vlog a0 a1 a2 a3) :=
  encodedLength_of_word rfl

theorem EncodedLength.glaunch (a0 a1 : Gpr) : EncodedLength.Statement (.glaunch a0 a1) :=
  encodedLength_of_word rfl

theorem EncodedLength.gres (a0 : Gpr) : EncodedLength.Statement (.gres a0) :=
  encodedLength_of_word rfl

theorem EncodedLength.evcfg (a0 a1 a2 : Gpr) : EncodedLength.Statement (.evcfg a0 a1 a2) :=
  encodedLength_of_word rfl

theorem EncodedLength.evsig (a0 a1 : Gpr) : EncodedLength.Statement (.evsig a0 a1) :=
  encodedLength_of_word rfl

theorem EncodedLength.migration (a0 : Nat) : EncodedLength.Statement (.migration a0) :=
  encodedLength_of_event rfl

theorem EncodedLength.migrationAdmit (a0 a1 a2 : Nat) : EncodedLength.Statement (.migrationAdmit a0 a1 a2) :=
  encodedLength_of_event rfl

theorem EncodedLength.migrationContextLoaded (a0 : Nat) : EncodedLength.Statement (.migrationContextLoaded a0) :=
  encodedLength_of_event rfl

theorem EncodedLength.dispatch (a0 a1 a2 : Nat) : EncodedLength.Statement (.dispatch a0 a1 a2) :=
  encodedLength_of_event rfl

theorem EncodedLength.contextLoaded (a0 : Nat) : EncodedLength.Statement (.contextLoaded a0) :=
  encodedLength_of_event rfl

theorem EncodedLength.retiredToFree (a0 : Nat) : EncodedLength.Statement (.retiredToFree a0) :=
  encodedLength_of_event rfl

theorem EncodedLength.kill (a0 : Nat) : EncodedLength.Statement (.kill a0) :=
  encodedLength_of_event rfl

theorem EncodedLength.pageResident (a0 a1 : Nat) : EncodedLength.Statement (.pageResident a0 a1) :=
  encodedLength_of_event rfl

theorem EncodedLength.pageDeclaredInvalid (a0 a1 : Nat) : EncodedLength.Statement (.pageDeclaredInvalid a0 a1) :=
  encodedLength_of_event rfl

theorem EncodedLength.coreError (a0 : Nat) : EncodedLength.Statement (.coreError a0) :=
  encodedLength_of_event rfl

theorem EncodedLength.engineInterrupt (a0 : Nat) : EncodedLength.Statement (.engineInterrupt a0) :=
  encodedLength_of_event rfl

theorem EncodedLength.sysRelease (a0 : Nat) (a1 : Bool) (a2 : List (Nat × Word)) : EncodedLength.Statement (.sysRelease a0 a1 a2) :=
  encodedLength_of_event rfl

theorem EncodedLength.debuggerStop (a0 : Nat) : EncodedLength.Statement (.debuggerStop a0) :=
  encodedLength_of_event rfl

theorem EncodedLength.debuggerResume (a0 : Nat) : EncodedLength.Statement (.debuggerResume a0) :=
  encodedLength_of_event rfl

theorem EncodedLength.holdRequest (a0 : Nat) : EncodedLength.Statement (.holdRequest a0) :=
  encodedLength_of_event rfl

theorem EncodedLength.joinReread (a0 : Nat) : EncodedLength.Statement (.joinReread a0) :=
  encodedLength_of_event rfl

theorem EncodedLength.waitvReread (a0 : Nat) : EncodedLength.Statement (.waitvReread a0) :=
  encodedLength_of_event rfl

theorem EncodedLength.idleDeadline (a0 : Nat) : EncodedLength.Statement (.idleDeadline a0) :=
  encodedLength_of_event rfl

theorem EncodedLength.flagTreeUpdate (a0 : Nat) : EncodedLength.Statement (.flagTreeUpdate a0) :=
  encodedLength_of_event rfl

theorem EncodedLength.drain (a0 a1 : Nat) : EncodedLength.Statement (.drain a0 a1) :=
  encodedLength_of_event rfl

theorem EncodedLength.arrive (a0 : Nat) : EncodedLength.Statement (.arrive a0) :=
  encodedLength_of_event rfl

theorem EncodedLength.atomicAtHome (a0 : Nat) : EncodedLength.Statement (.atomicAtHome a0) :=
  encodedLength_of_event rfl

theorem EncodedLength.settle (a0 : Nat) : EncodedLength.Statement (.settle a0) :=
  encodedLength_of_event rfl

theorem EncodedLength.cacheCopyDrop (a0 a1 : Nat) : EncodedLength.Statement (.cacheCopyDrop a0 a1) :=
  encodedLength_of_event rfl

theorem EncodedLength.messageRingArrival (a0 : Nat) : EncodedLength.Statement (.messageRingArrival a0) :=
  encodedLength_of_event rfl

theorem EncodedLength.ringWaitExpiry (a0 : Nat) : EncodedLength.Statement (.ringWaitExpiry a0) :=
  encodedLength_of_event rfl

theorem EncodedLength.negativeAcknowledgement (a0 : Nat) : EncodedLength.Statement (.negativeAcknowledgement a0) :=
  encodedLength_of_event rfl

theorem EncodedLength.mailboxMessage (a0 : Nat) : EncodedLength.Statement (.mailboxMessage a0) :=
  encodedLength_of_event rfl

theorem EncodedLength.globalQueueRecord (a0 : Nat) : EncodedLength.Statement (.globalQueueRecord a0) :=
  encodedLength_of_event rfl

theorem EncodedLength.stealAttempt (a0 : Nat) : EncodedLength.Statement (.stealAttempt a0) :=
  encodedLength_of_event rfl

theorem EncodedLength.stealOperation (a0 : Nat) : EncodedLength.Statement (.stealOperation a0) :=
  encodedLength_of_event rfl

theorem EncodedLength.stealReply (a0 a1 a2 : Nat) : EncodedLength.Statement (.stealReply a0 a1 a2) :=
  encodedLength_of_event rfl

theorem EncodedLength.teamAdmission (a0 a1 : Nat) (a2 : List (Nat × Nat)) : EncodedLength.Statement (.teamAdmission a0 a1 a2) :=
  encodedLength_of_event rfl

theorem EncodedLength.timeSliceExpiry (a0 a1 : Nat) : EncodedLength.Statement (.timeSliceExpiry a0 a1) :=
  encodedLength_of_event rfl

theorem EncodedLength.preemptionRequest (a0 a1 : Nat) (a2 : List Nat) : EncodedLength.Statement (.preemptionRequest a0 a1 a2) :=
  encodedLength_of_event rfl

theorem EncodedLength.halt (a0 : Nat) : EncodedLength.Statement (.halt a0) :=
  encodedLength_of_event rfl

theorem EncodedLength.swapSave (a0 : Nat) : EncodedLength.Statement (.swapSave a0) :=
  encodedLength_of_event rfl

theorem EncodedLength.restore (a0 a1 a2 : Nat) : EncodedLength.Statement (.restore a0 a1 a2) :=
  encodedLength_of_event rfl

theorem EncodedLength.matrixCommandComplete (a0 : Nat) : EncodedLength.Statement (.matrixCommandComplete a0) :=
  encodedLength_of_event rfl

theorem EncodedLength.matrixGate (a0 : Nat) : EncodedLength.Statement (.matrixGate a0) :=
  encodedLength_of_event rfl

theorem EncodedLength.latchStream (a0 : Nat) : EncodedLength.Statement (.latchStream a0) :=
  encodedLength_of_event rfl

theorem EncodedLength.latchFlip (a0 : Nat) : EncodedLength.Statement (.latchFlip a0) :=
  encodedLength_of_event rfl

theorem EncodedLength.engineRelease (a0 : Nat) : EncodedLength.Statement (.engineRelease a0) :=
  encodedLength_of_event rfl

theorem EncodedLength.mdrainWakeup (a0 : Nat) : EncodedLength.Statement (.mdrainWakeup a0) :=
  encodedLength_of_event rfl

theorem EncodedLength.routineCommandComplete (a0 : Nat) : EncodedLength.Statement (.routineCommandComplete a0) :=
  encodedLength_of_event rfl

theorem EncodedLength.copyGate (a0 a1 : Nat) : EncodedLength.Statement (.copyGate a0 a1) :=
  encodedLength_of_event rfl

theorem EncodedLength.unitLand (a0 a1 : Nat) : EncodedLength.Statement (.unitLand a0 a1) :=
  encodedLength_of_event rfl

theorem EncodedLength.copyComplete (a0 a1 : Nat) : EncodedLength.Statement (.copyComplete a0 a1) :=
  encodedLength_of_event rfl

theorem EncodedLength.copyFreeze (a0 a1 : Nat) : EncodedLength.Statement (.copyFreeze a0 a1) :=
  encodedLength_of_event rfl

theorem EncodedLength.freezeServedByTardar (a0 a1 : Nat) : EncodedLength.Statement (.freezeServedByTardar a0 a1) :=
  encodedLength_of_event rfl

theorem EncodedLength.copyAbortComplete (a0 a1 : Nat) : EncodedLength.Statement (.copyAbortComplete a0 a1) :=
  encodedLength_of_event rfl

theorem EncodedLength.inboundEntryGrant (a0 : Nat) : EncodedLength.Statement (.inboundEntryGrant a0) :=
  encodedLength_of_event rfl

theorem EncodedLength.stripFill (a0 a1 : Nat) : EncodedLength.Statement (.stripFill a0 a1) :=
  encodedLength_of_event rfl

theorem EncodedLength.multicastAcknowledgement (a0 a1 a2 : Nat) : EncodedLength.Statement (.multicastAcknowledgement a0 a1 a2) :=
  encodedLength_of_event rfl

theorem EncodedLength.multicastRequest (a0 a1 : Nat) : EncodedLength.Statement (.multicastRequest a0 a1) :=
  encodedLength_of_event rfl

theorem EncodedLength.guardPairDispatch (a0 a1 a2 : Nat) (a3 a4 : List Nat) : EncodedLength.Statement (.guardPairDispatch a0 a1 a2 a3 a4) :=
  encodedLength_of_event rfl

theorem EncodedLength.termFire (a0 a1 : Nat) : EncodedLength.Statement (.termFire a0 a1) :=
  encodedLength_of_event rfl

theorem EncodedLength.softwareLinePulse (a0 : Nat) : EncodedLength.Statement (.softwareLinePulse a0) :=
  encodedLength_of_event rfl

theorem EncodedLength.offerArrival (a0 a1 : Nat) : EncodedLength.Statement (.offerArrival a0 a1) :=
  encodedLength_of_event rfl

theorem EncodedLength.fire (a0 a1 : Nat) : EncodedLength.Statement (.fire a0 a1) :=
  encodedLength_of_event rfl

theorem EncodedLength.fireArrival (a0 a1 : Nat) : EncodedLength.Statement (.fireArrival a0 a1) :=
  encodedLength_of_event rfl

theorem EncodedLength.withdraw (a0 a1 : Nat) : EncodedLength.Statement (.withdraw a0 a1) :=
  encodedLength_of_event rfl

theorem EncodedLength.withdrawReply (a0 a1 : Nat) : EncodedLength.Statement (.withdrawReply a0 a1) :=
  encodedLength_of_event rfl

theorem EncodedLength.bindingRequest (a0 a1 : Nat) : EncodedLength.Statement (.bindingRequest a0 a1) :=
  encodedLength_of_event rfl

theorem EncodedLength.bindingReply (a0 a1 : Nat) : EncodedLength.Statement (.bindingReply a0 a1) :=
  encodedLength_of_event rfl

theorem EncodedLength.barrierRelease (a0 a1 a2 : Nat) : EncodedLength.Statement (.barrierRelease a0 a1 a2) :=
  encodedLength_of_event rfl

theorem EncodedLength.sectorFill (a0 a1 a2 : Nat) : EncodedLength.Statement (.sectorFill a0 a1 a2) :=
  encodedLength_of_event rfl

theorem EncodedLength.eviction (a0 a1 : Nat) : EncodedLength.Statement (.eviction a0 a1) :=
  encodedLength_of_event rfl

theorem EncodedLength.sliceTranslation (a0 a1 : Nat) (a2 : Nat) : EncodedLength.Statement (.sliceTranslation a0 a1 a2) :=
  encodedLength_of_event rfl

theorem EncodedLength.attributeQuery (a0 a1 a2 : Nat) : EncodedLength.Statement (.attributeQuery a0 a1 a2) :=
  encodedLength_of_event rfl

theorem EncodedLength.pendScan (a0 : Nat) : EncodedLength.Statement (.pendScan a0) :=
  encodedLength_of_event rfl

theorem EncodedLength.replication (a0 a1 : Nat) : EncodedLength.Statement (.replication a0 a1) :=
  encodedLength_of_event rfl

theorem EncodedLength.withdrawAck (a0 a1 a2 : Nat) : EncodedLength.Statement (.withdrawAck a0 a1 a2) :=
  encodedLength_of_event rfl

theorem EncodedLength.hostWindowWrite (a0 a1 a2 : Nat) (a3 : List Byte) : EncodedLength.Statement (.hostWindowWrite a0 a1 a2 a3) :=
  encodedLength_of_event rfl

theorem EncodedLength.hostWindowRead (a0 a1 a2 a3 : Nat) : EncodedLength.Statement (.hostWindowRead a0 a1 a2 a3) :=
  encodedLength_of_event rfl

theorem EncodedLength.wbase (a0 a1 : Nat) (a2 : Word) : EncodedLength.Statement (.wbase a0 a1 a2) :=
  encodedLength_of_event rfl

theorem EncodedLength.coldStart : EncodedLength.Statement (.coldStart) :=
  encodedLength_of_event rfl

theorem EncodedLength.warmStart : EncodedLength.Statement (.warmStart) :=
  encodedLength_of_event rfl

theorem EncodedLength.stageComplete : EncodedLength.Statement (.stageComplete) :=
  encodedLength_of_event rfl

theorem EncodedLength.stageFailure (a0 : Nat) : EncodedLength.Statement (.stageFailure a0) :=
  encodedLength_of_event rfl

theorem EncodedLength.stageTimeout : EncodedLength.Statement (.stageTimeout) :=
  encodedLength_of_event rfl

theorem EncodedLength.getMeasurements : EncodedLength.Statement (.getMeasurements) :=
  encodedLength_of_event rfl

theorem EncodedLength.correctableError (a0 : Nat) (a1 : Option (Nat × Nat)) : EncodedLength.Statement (.correctableError a0 a1) :=
  encodedLength_of_event rfl

theorem EncodedLength.coolantOutOfLimits : EncodedLength.Statement (.coolantOutOfLimits) :=
  encodedLength_of_event rfl

theorem EncodedLength.coolantWithinLimits : EncodedLength.Statement (.coolantWithinLimits) :=
  encodedLength_of_event rfl

theorem EncodedLength.collectiveRequestTaken (a0 : Nat) : EncodedLength.Statement (.collectiveRequestTaken a0) :=
  encodedLength_of_event rfl

theorem EncodedLength.reservationGrant (a0 : Nat) : EncodedLength.Statement (.reservationGrant a0) :=
  encodedLength_of_event rfl

theorem EncodedLength.chunkWritten (a0 a1 a2 : Nat) : EncodedLength.Statement (.chunkWritten a0 a1 a2) :=
  encodedLength_of_event rfl

theorem EncodedLength.finalAck (a0 a1 : Nat) : EncodedLength.Statement (.finalAck a0 a1) :=
  encodedLength_of_event rfl

theorem EncodedLength.chunkFailure (a0 a1 : Nat) : EncodedLength.Statement (.chunkFailure a0 a1) :=
  encodedLength_of_event rfl

theorem EncodedLength.chunkNoProgress (a0 a1 : Nat) : EncodedLength.Statement (.chunkNoProgress a0 a1) :=
  encodedLength_of_event rfl

theorem EncodedLength.memberLost (a0 : Nat) : EncodedLength.Statement (.memberLost a0) :=
  encodedLength_of_event rfl

theorem EncodedLength.collectiveEnd (a0 a1 : Nat) : EncodedLength.Statement (.collectiveEnd a0 a1) :=
  encodedLength_of_event rfl

theorem EncodedLength.linkFailure (a0 : Nat) : EncodedLength.Statement (.linkFailure a0) :=
  encodedLength_of_event rfl

theorem EncodedLength.noPath (a0 : Nat) : EncodedLength.Statement (.noPath a0) :=
  encodedLength_of_event rfl

theorem EncodedLength.rootSwitchOrder (a0 : Nat) : EncodedLength.Statement (.rootSwitchOrder a0) :=
  encodedLength_of_event rfl

theorem EncodedLength.switchCombine (a0 a1 : Nat) : EncodedLength.Statement (.switchCombine a0 a1) :=
  encodedLength_of_event rfl

theorem EncodedLength.moveRequest (a0 a1 : Nat) (a2 : Nat) (a3 : Word) : EncodedLength.Statement (.moveRequest a0 a1 a2 a3) :=
  encodedLength_of_event rfl

theorem EncodedLength.skewMeasurement (a0 a1 : Nat) (a2 a3 a4 a5 : Word) : EncodedLength.Statement (.skewMeasurement a0 a1 a2 a3 a4 a5) :=
  encodedLength_of_event rfl

theorem EncodedLength.lamportDelivery (a0 : Nat) (a1 : BitVec 32) : EncodedLength.Statement (.lamportDelivery a0 a1) :=
  encodedLength_of_event rfl

theorem EncodedLength.traceRecord (a0 a1 : Nat) : EncodedLength.Statement (.traceRecord a0 a1) :=
  encodedLength_of_event rfl

theorem EncodedLength.jobStart (a0 : JobDesc) : EncodedLength.Statement (.jobStart a0) :=
  encodedLength_of_event rfl

theorem EncodedLength.jobEnd (a0 : Nat) : EncodedLength.Statement (.jobEnd a0) :=
  encodedLength_of_event rfl

theorem EncodedLength.tracectlWrite (a0 : Nat) (a1 : Bool) (a2 : Word) : EncodedLength.Statement (.tracectlWrite a0 a1 a2) :=
  encodedLength_of_event rfl

theorem EncodedLength.debuggerAttach (a0 : Nat) (a1 : Bool) (a2 : Nat) (a3 : List Word) (a4 : List (Nat × Nat × Nat)) : EncodedLength.Statement (.debuggerAttach a0 a1 a2 a3 a4) :=
  encodedLength_of_event rfl

end Sys2Proof.Laws
end

