-- ==== Sys2Proof/Safety.lean ====
section
/-! DEFINITION. What counts as a safe run: every memory of the machine keeps its one canonical form, and no register holds a bit
the manual says reads as zero (R15, R88, R104). -/

namespace Sys2Proof

open Sys2Proof.Machine

/-- The fields of a context that the manual holds at zero: PC[63:56] (R88), TRAPPC[63:56] as hardware writes it (R104), and a
vector lease of a size (R16). -/
def Safety.pcOk (x : Task) : Bool := decide (x.pc.toNat < 2 ^ 56)

/-- Every memory of the machine is in its canonical form: HBM, the peer frames, and every core's banks. -/
def Safety.memOk (s : State) : Bool :=
  s.hbm.wf && s.peerMem.all (fun e => e.2.wf) && s.cores.all fun e => e.2.mem.wf

/-- A state of a safe run. -/
def Safety.ok (s : State) : Bool := Safety.memOk s && s.tasks.all fun e => Safety.pcOk e.2

end Sys2Proof
end

