-- ==== Sys2Proof/Tests/Slice0.lean ====
section
/-! SUPPORT. Tests: an ill-formed term for each check of WellFormed, a word for every instruction written out from its encoding, and for every
statement with hypotheses a state and operands that meet them. -/

namespace Sys2Proof.Tests

open Sys2Proof Sys2Proof.Machine

/-! ### Ill-formed terms (R62-R72, R3, R121, R233) -/

theorem test_ill_formed_scalar : ([.cmp 1 2 3 10, .bc 1 2 10 0, .ld 1 16 3 0 0 0, .ld 1 2 3 0 0 1, .ld 1 2 0 3 1 0, .ldPrefixed 1 2 3 0 0 0 0, .ldPrefixed 1 2 0 3 1 0 0, .st 1 16 3 0 0, .st 1 2 3 0 1, .stPrefixed 1 2 3 0 0 0] : List Instr).all (fun i => !i.wf) = true := by decide

theorem test_ill_formed_atomics : ([.amoAdd 0 2 3 0 0, .amoMin 0 2 3 0 0, .amoMinn 0 2 3 0 0, .amoMax 0 2 3 0 0, .amoMaxn 0 2 3 0 0, .amoAnd 0 2 3 0 0, .amoOr 0 2 3 0 0, .amoXor 0 2 3 0 0, .amoFmin 0 2 3 0, .amoFmax 0 2 3 0, .amoAdd 1 2 4 0 2, .amoMin 1 2 4 0 2, .amoMinn 1 2 4 0 2, .amoMax 1 2 4 0 2, .amoMaxn 1 2 4 0 2, .amoAnd 1 2 4 0 2, .amoOr 1 2 4 0 2, .amoXor 1 2 4 0 2, .amoSwap 1 2 4 0 2, .amoCas 1 2 4 0 2, .amoCas 1 2 3 0 0, .amoFmin 1 2 3 2, .amoFmax 1 2 3 2, .redAdd 2 3 0 2, .redMin 2 3 0 2, .redMinn 2 3 0 2, .redMax 2 3 0 2, .redMaxn 2 3 0 2, .redAnd 2 3 0 2, .redOr 2 3 0 2, .redXor 2 3 0 2, .redFmin 2 3 2, .redFmax 2 3 2, .amoPrefixed 12 1 2 3 0 0 0 0 0 0, .amoPrefixed 0 1 2 3 0 3 0 0 0 0, .amoPrefixed 0 1 2 3 0 0 5 0 0 0, .amoPrefixed 0 1 2 3 0 0 0 6 0 0, .amoPrefixed 10 1 2 3 1 0 0 0 0 0, .amoPrefixed 9 1 2 3 0 0 0 0 0 0] : List Instr).all (fun i => !i.wf) = true := by decide

theorem test_ill_formed_scopes_and_rings : ([.cinv 0 1 2, .cinv 5 1 2, .cwb 0 1 2, .cwb 5 1 2, .cpref 0 1 2, .cpref 4 1 2, .qsetCreate 1 2 0, .qsetAttach 1 2 0, .qsetAttach 1 0 3, .qsetRelease 1 0 0, .qsetRelease 1 2 3, .fence 6, .acq 6, .rel 6, .bar 1 0, .bar 1 6, .fold 1 2 2 0, .scan 1 2 2 0 0, .scan 1 2 0 2 0, .zip 2 0 0, .zip 0 2 0, .mzero 3 0, .mloadA 3 0 0] : List Instr).all (fun i => !i.wf) = true := by decide

theorem test_ill_formed_vector_memory : ([.vldl 1 2 2 0 0, .vldl 1 16 3 0 0, .vldl 1 2 3 0 1, .vstl 1 2 2 0 0, .vstl 1 16 3 0 0, .vld 1 2 2 0 0 0, .vld 1 2 3 0 0 1, .vst 1 2 2 0 0 0, .vst 1 16 3 0 0 0, .vldlPrefixed 1 2 3 0 0 0 0, .vldlPrefixed 1 2 0 0 0 5 0, .vstlPrefixed 1 2 3 0 0 0 0, .vstlPrefixed 1 2 0 0 0 5 0, .vldPrefixed 1 2 3 0 0 0 0 0, .vldPrefixed 1 2 0 0 0 0 5 0, .vstPrefixed 1 2 3 0 0 0 0 0, .vstPrefixed 1 2 0 0 0 0 5 0, .vgather 1 2 2 0 0 0, .vscatter 1 2 3 0 0 0, .vgatherPrefixed 1 2 3 0 0 0 0, .vgatherPrefixed 1 2 0 0 0 0 5, .vscatterPrefixed 1 2 3 0 0 0 0, .vscatterPrefixed 1 2 0 0 0 0 5] : List Instr).all (fun i => !i.wf) = true := by decide

theorem test_ill_formed_events_1 : ([.migration 10256, .migrationAdmit 10256 0 0, .migrationAdmit 0 16 0, .migrationContextLoaded 10256, .dispatch 640 0 0, .dispatch 0 16 0, .contextLoaded 10256, .retiredToFree 10256, .kill 10256, .coreError 10256, .engineInterrupt 10256, .sysRelease 10256 false [], .debuggerStop 10256, .debuggerResume 10256, .holdRequest 4, .joinReread 10256, .waitvReread 10256, .idleDeadline 10256, .drain 10256 0, .cacheCopyDrop 640 0, .stealAttempt 640, .stealOperation 640, .stealReply 640 0 0, .stealReply 0 16 0, .teamAdmission 0 160 [], .timeSliceExpiry 160 0, .preemptionRequest 160 0 [], .halt 10256, .swapSave 10256, .restore 0 10256 0, .matrixCommandComplete 640, .matrixGate 640, .latchStream 640, .latchFlip 640, .engineRelease 640, .routineCommandComplete 640, .copyGate 640 0, .copyGate 0 8, .unitLand 640 0, .unitLand 0 8] : List Instr).all (fun i => !i.wf) = true := by decide

theorem test_ill_formed_events_2 : ([.copyComplete 640 0, .copyComplete 0 8, .copyFreeze 640 0, .copyFreeze 0 8, .freezeServedByTardar 640 0, .freezeServedByTardar 0 8, .copyAbortComplete 640 0, .copyAbortComplete 0 8, .inboundEntryGrant 640, .stripFill 640 0, .stripFill 0 8, .multicastAcknowledgement 640 0 0, .multicastAcknowledgement 0 8 0, .multicastRequest 640 0, .multicastRequest 0 8, .guardPairDispatch 160 0 0 [] [], .guardPairDispatch 0 0 640 [] [], .termFire 640 0, .termFire 0 32, .offerArrival 160 0, .offerArrival 0 640, .fire 160 0, .fire 0 16, .fireArrival 160 0, .fireArrival 0 640, .withdraw 160 0, .withdraw 0 640, .withdrawReply 160 0, .withdrawReply 0 640, .bindingRequest 160 0, .bindingRequest 0 640, .bindingReply 160 0, .bindingReply 0 640, .barrierRelease 0 16 0, .sectorFill 0 0 4, .pendScan 12, .hostWindowWrite 9 0 0 [], .hostWindowWrite 0 4 0 [], .hostWindowWrite 0 0 (2 ^ 26) [], .hostWindowRead 9 0 0 0] : List Instr).all (fun i => !i.wf) = true := by decide

theorem test_ill_formed_events_3 : ([.hostWindowRead 0 4 0 0, .hostWindowRead 0 0 (2 ^ 26) 0, .wbase 9 0 0, .wbase 0 4 0, .correctableError 4 none, .collectiveRequestTaken 4, .reservationGrant 4, .chunkWritten 4 0 0, .collectiveEnd 4 0, .linkFailure 16, .skewMeasurement 4 0 0 0 0 0, .lamportDelivery 4 0, .traceRecord 4 0, .tracectlWrite 4 false 0, .debuggerAttach 0 false 10256 [] []] : List Instr).all (fun i => !i.wf) = true := by decide

/-! ### Words written out from the encodings (R60-R70 and the tables of each chapter) -/

/-- The decoder reads each word as the instruction beside it. -/
def reads (l : List (Nat × Instr)) : Prop := l.map (fun e => decodeTableWord 32 e.1) = l.map (fun e => some e.2)

/-- The decoder reads each pair, the prefix in bits 31..0, as the instruction beside it. -/
def readsPair (l : List (Nat × Instr)) : Prop := l.map (fun e => decodeTableWord 64 e.1) = l.map (fun e => some e.2)

theorem test_decode_01 : reads [
    (0x04314900, .add 3 5 9),
    (0x04314901, .sub 3 5 9),
    (0x04314902, .min 3 5 9),
    (0x04314903, .minn 3 5 9),
    (0x04314904, .max 3 5 9),
    (0x04314905, .maxn 3 5 9)] := by rfl

theorem test_decode_02 : reads [
    (0x08314900, .mul 3 5 9),
    (0x08314901, .mulh 3 5 9),
    (0x08314902, .mulhn 3 5 9),
    (0x08314903, .div 3 5 9),
    (0x08314904, .divn 3 5 9),
    (0x08314905, .rem 3 5 9),
    (0x08314906, .remn 3 5 9)] := by rfl

theorem test_decode_03 : reads [
    (0x0C314900, .and 3 5 9),
    (0x0C314901, .or 3 5 9),
    (0x0C314902, .xor 3 5 9),
    (0x0C314903, .andn 3 5 9),
    (0x0C314904, .shl 3 5 9),
    (0x0C314905, .shr 3 5 9),
    (0x0C314906, .sar 3 5 9),
    (0x0C314907, .rol 3 5 9),
    (0x0C314008, .clz 3 5),
    (0x0C314009, .ctz 3 5),
    (0x0C31400A, .popc 3 5)] := by rfl

theorem test_decode_04 : reads [
    (0x10314414, .zext 3 5 4 5),
    (0x10314415, .sext 3 5 4 5),
    (0x10314416, .ins 3 5 4 5),
    (0x10314903, .ext 3 5 9)] := by rfl

theorem test_decode_05 : reads [
    (0x14314901, .cmp 3 5 9 1),
    (0x14314910, .sel 3 5 9)] := by rfl

theorem test_decode_06 : reads [
    (0x18314900, .ptag 3 5 9),
    (0x18314001, .pfmt 3 5),
    (0x18314902, .padd 3 5 9),
    (0x18314003, .pstrip 3 5)] := by rfl

theorem test_decode_08 : reads [
    (0x20314015, .addi 3 5 21)] := by rfl

theorem test_decode_09 : reads [
    (0x24314004, .shli 3 5 4),
    (0x24315004, .shri 3 5 4),
    (0x24316004, .sari 3 5 4)] := by rfl

theorem test_decode_0a : reads [
    (0x28300013, .ldi 3 19)] := by rfl

theorem test_decode_0b : reads [
    (0x2C300013, .ldih 3 19)] := by rfl

theorem test_decode_10 : reads [
    (0x40000011, .br 17)] := by rfl

theorem test_decode_11 : reads [
    (0x44300013, .jal 3 19)] := by rfl

theorem test_decode_12 : reads [
    (0x48524417, .bc 5 9 1 23)] := by rfl

theorem test_decode_13 : reads [
    (0x4C500013, .bz 5 19),
    (0x4C520013, .bnz 5 19),
    (0x4C540013, .loop 5 19),
    (0x4C560013, .jr 5 19),
    (0x4C580000, .ret 5),
    (0x4C5A2A80, .rep 5 1 1 1 1)] := by rfl

theorem test_decode_14 : reads [
    (0x50314900, .fork 3 5 9),
    (0x50314001, .join 3 5),
    (0x50314002, .joinT 3 5),
    (0x50314903, .spawn 3 5 9),
    (0x50000004, .yield),
    (0x50000005, .endTask),
    (0x50000006, .nop),
    (0x50314007, .wait 3 5),
    (0x50314908, .waitv 3 5 9),
    (0x50000009, .commit)] := by rfl

theorem test_decode_15 : reads [
    (0x54300900, .mfc 3 9),
    (0x54014901, .mtc 5 9),
    (0x54014002, .trap 5),
    (0x54014003, .sys 5),
    (0x54000004, .eret),
    (0x54000005, .bkpt),
    (0x54014906, .tlbi 5 9),
    (0x54314907, .bmap 3 5 9),
    (0x54314008, .qpool 3 5),
    (0x54014909, .trace 5 9),
    (0x5431400A, .idle 3 5),
    (0x5431400B, .flush 3 5)] := by rfl

theorem test_decode_16 : reads [
    (0x5831561B, .ld 3 5 1 1 1 27)] := by rfl

theorem test_decode_17 : reads [
    (0x5C315419, .st 3 5 1 1 25)] := by rfl

theorem test_decode_18_1 : reads [
    (0x6031490A, .amoAdd 3 5 9 1 1),
    (0x6031491A, .amoMin 3 5 9 1 1),
    (0x6031492A, .amoMinn 3 5 9 1 1),
    (0x6031493A, .amoMax 3 5 9 1 1),
    (0x6031494A, .amoMaxn 3 5 9 1 1),
    (0x6031495A, .amoAnd 3 5 9 1 1),
    (0x6031496A, .amoOr 3 5 9 1 1),
    (0x6031497A, .amoXor 3 5 9 1 1),
    (0x6031498A, .amoSwap 3 5 9 1 1),
    (0x6031489A, .amoCas 3 5 8 1 1),
    (0x603149A2, .amoFmin 3 5 9 1),
    (0x603149B2, .amoFmax 3 5 9 1)] := by rfl

theorem test_decode_18_2 : reads [
    (0x6001490A, .redAdd 5 9 1 1),
    (0x6001491A, .redMin 5 9 1 1),
    (0x6001492A, .redMinn 5 9 1 1),
    (0x6001493A, .redMax 5 9 1 1),
    (0x6001494A, .redMaxn 5 9 1 1),
    (0x6001495A, .redAnd 5 9 1 1),
    (0x6001496A, .redOr 5 9 1 1),
    (0x6001497A, .redXor 5 9 1 1),
    (0x600149A2, .redFmin 5 9 1),
    (0x600149B2, .redFmax 5 9 1)] := by rfl

theorem test_decode_19 : reads [
    (0x64114900, .cinv 1 5 9),
    (0x64114901, .cwb 1 5 9),
    (0x64114902, .cpref 1 5 9)] := by rfl

theorem test_decode_1a : reads [
    (0x68114900, .qsetCreate 1 5 9),
    (0x68100000, .qsetAttach 1 0 0),
    (0x68114000, .qsetRelease 1 5 0),
    (0x68100901, .qadvC 1 9),
    (0x68100902, .qadvP 1 9),
    (0x68304003, .qstat 3 1)] := by rfl

theorem test_decode_1b : reads [
    (0x6C000001, .fence 1),
    (0x6C000009, .acq 1),
    (0x6C000011, .rel 1),
    (0x6C014019, .bar 5 1),
    (0x6C300020, .phase 3)] := by rfl

theorem test_decode_1c : reads [
    (0x70014900, .send 5 9),
    (0x70014901, .post 5 9),
    (0x70314002, .dpush 3 5),
    (0x70314003, .dpop 3 5),
    (0x70314904, .dsteal 3 5 9),
    (0x70314905, .hbind 3 5 9),
    (0x70314006, .hhold 3 5),
    (0x70314007, .hrel 3 5),
    (0x70314908, .launch 3 5 9),
    (0x70314009, .tid 3 5),
    (0x7001400A, .migrate 5),
    (0x7031400B, .rcmask 3 5)] := by rfl

theorem test_decode_1d : reads [
    (0x74004900, .put 1 9),
    (0x74304901, .get 3 1 9),
    (0x74004902, .offer 1 9),
    (0x74314903, .alt 3 5 9),
    (0x74304004, .poll 3 1),
    (0x74304005, .pwd 3 1),
    (0x74314006, .cload 3 5),
    (0x74314007, .cunload 3 5),
    (0x74304908, .cbind 3 1 9),
    (0x74304009, .pstat 3 1)] := by rfl

theorem test_decode_1e : reads [
    (0x78314900, .cpy 3 5 9),
    (0x78314901, .cpyM 3 5 9),
    (0x78314902, .cmcast 3 5 9),
    (0x78300003, .cseal 3),
    (0x78314004, .cwait 3 5),
    (0x78314005, .wmk 3 5),
    (0x78014006, .cresume 5),
    (0x78014007, .cabort 5),
    (0x78014908, .streamOn 5 9),
    (0x78300009, .streamOff 3)] := by rfl

theorem test_decode_1f : reads [
    (0x7C314000, .rbind 3 5),
    (0x7C344901, .fold 3 1 1 9),
    (0x7C354902, .scan 3 1 1 1 9),
    (0x7C014903, .zip 1 1 9),
    (0x7C114904, .outer 1 5 9),
    (0x7C314005, .hstat 3 5)] := by rfl

theorem test_decode_20 : reads [
    (0x80654930, .vadd 3 5 9 1 6),
    (0x80654931, .vsub 3 5 9 1 6),
    (0x80654932, .vmul 3 5 9 1 6),
    (0x80654933, .vfma 3 5 9 1 6),
    (0x80654934, .vfms 3 5 9 1 6),
    (0x80654935, .vfnma 3 5 9 1 6),
    (0x80654936, .vmin 3 5 9 1 6),
    (0x80654937, .vmax 3 5 9 1 6)] := by rfl

theorem test_decode_21 : reads [
    (0x84650128, .vabs 3 5 1 5),
    (0x84650129, .vneg 3 5 1 5),
    (0x8465012A, .vrcp 3 5 1 5),
    (0x8465012B, .vrsqrt 3 5 1 5),
    (0x8465012C, .vexp2 3 5 1 5),
    (0x8465012D, .vlog2 3 5 1 5),
    (0x8465010E, .vmov 3 5 1 1),
    (0x8465010F, .vnot 3 5 1 1)] := by rfl

theorem test_decode_22 : reads [
    (0x88654900, .vand 3 5 9 1),
    (0x88654901, .vor 3 5 9 1),
    (0x88654902, .vxor 3 5 9 1),
    (0x88654933, .vshl 3 5 9 1 6),
    (0x88654934, .vshr 3 5 9 1 6),
    (0x88654935, .vsar 3 5 9 1 6),
    (0x88654906, .vsel 3 5 9 1),
    (0x88654937, .vbscale 3 5 9 1 6)] := by rfl

theorem test_decode_23 : reads [
    (0x8C654931, .vcmp 3 5 9 1 6 1)] := by rfl

theorem test_decode_24 : reads [
    (0x90652130, .vcvt 3 5 4 1 6),
    (0x90652131, .vcvtSat 3 5 4 1 6),
    (0x90652132, .vcvtSr 3 5 4 1 6),
    (0x90652133, .vpack 3 5 4 1 6),
    (0x90652134, .vunpack 3 5 4 1 6),
    (0x90650935, .vdecode 3 5 1 1 6),
    (0x9065482E, .vins 3 5 9 5),
    (0x9065482F, .vext 3 5 9 5)] := by rfl

theorem test_decode_25 : reads [
    (0x94650128, .vredAdd 3 5 1 5),
    (0x94650129, .vredMax 3 5 1 5),
    (0x9465012A, .vredMin 3 5 1 5),
    (0x94654903, .vperm 3 5 9 1),
    (0x9465012C, .vbcast 3 5 1 5),
    (0x94654905, .vslide 3 5 9 1),
    (0x94650106, .vcompact 3 5 1),
    (0x94650107, .vexpand 3 5 1)] := by rfl

theorem test_decode_26 : reads [
    (0x98650000, .vpopk 3 5),
    (0x98650801, .kand 3 5 1),
    (0x98650802, .kor 3 5 1),
    (0x98650803, .kxor 3 5 1),
    (0x98650004, .knot 3 5),
    (0x98650005, .kmov 3 5)] := by rfl

theorem test_decode_27 : reads [
    (0x9C62A401, .vldl 3 5 1 1 1),
    (0x9C62A411, .vstl 3 5 1 1 1)] := by rfl

theorem test_decode_28 : reads [
    (0xA062A4C7, .vld 3 5 1 1 6 7)] := by rfl

theorem test_decode_29 : reads [
    (0xA462A4C7, .vst 3 5 1 1 6 7)] := by rfl

theorem test_decode_2a : reads [
    (0xA862A4C7, .vgather 3 5 1 1 6 7)] := by rfl

theorem test_decode_2b : reads [
    (0xAC62A4C7, .vscatter 3 5 1 1 6 7)] := by rfl

theorem test_decode_2c : reads [
    (0xB12A4500, .mma 1 5 9 5)] := by rfl

theorem test_decode_2d : reads [
    (0xB4314900, .mcfg 3 5 9),
    (0xB5100001, .mzero 1 1),
    (0xB5114002, .mloadA 1 1 5),
    (0xB4014003, .mlatchB 5),
    (0xB4000004, .mrot),
    (0xB4014905, .mring 5 9),
    (0xB4114006, .msum 1 5),
    (0xB4114907, .mscale 1 5 9),
    (0xB4114908, .mdrain 1 5 9),
    (0xB4300009, .mstat 3)] := by rfl

theorem test_decode_30 : reads [
    (0xC1084300, .mmaF64 1 3)] := by rfl

theorem test_decode_31 : reads [
    (0xC4654930, .vdiv 3 5 9 1 6),
    (0xC4650129, .vsqrt 3 5 1 5),
    (0xC465012A, .vexp 3 5 1 5),
    (0xC465012B, .vlog 3 5 1 5)] := by rfl

theorem test_decode_3e : reads [
    (0xF8014900, .glaunch 5 9),
    (0xF8014001, .gres 5),
    (0xF8314902, .evcfg 3 5 9),
    (0xF8014903, .evsig 5 9)] := by rfl

theorem test_decode_prefixed : readsPair [
    (0x20316789FC048D15, .addiPrefixed 3 5 0x123456789),
    (0x28356789FC081234, .ldiPrefixed 3 0x8123456789),
    (0x58315A11FC012345, .ldPrefixed 3 5 1 2 1 17 0x12345),
    (0x5C316811FC012345, .stPrefixed 3 5 2 2 17 0x12345),
    (0x6031489CFC70000C, .amoPrefixed 9 3 5 8 1 2 7 4 1 0),
    (0x9C62C409FC754321, .vldlPrefixed 3 5 2 1 9 7 0x54321),
    (0x9C62C419FC754321, .vstlPrefixed 3 5 2 1 9 7 0x54321),
    (0xA062C449FC754321, .vldPrefixed 3 5 2 1 2 9 7 0x54321),
    (0xA462C449FC754321, .vstPrefixed 3 5 2 1 2 9 7 0x54321),
    (0xA862C449FC700000, .vgatherPrefixed 3 5 2 1 2 9 7),
    (0xAC62C449FC700000, .vscatterPrefixed 3 5 2 1 2 9 7)] := by rfl

/-! ### Witnesses: for every statement with hypotheses, a state and operands that meet them -/

/-- A job of four quadrants with a trap entry. -/
def job1 : JobDesc where
  job := 1
  asid := 1
  trapEntry := 0x2000000000
  seed := 5
  bankctl := true
  quads := [0, 1, 2, 3]
  lcn := [(0, 0)]
  bankmap := []
  dequeBase := 320
  dequeBanks := 16
  localImage := []
  handlers := []
  groups := []
  partition := 0
  package := 0
  routes := []
  ringwait := 4096

/-- One task of that job, changed by f, in slot 0 of core 0, with its code, and an accessible page, at 0x10_0000_0000. -/
def lab (f : Task → Task) (l : List Instr) : State :=
  let x := { Task.empty with life := .running, job := 1, tid := 7, pc := 0x1000000000, leaseCls := 3, g := (Task.empty.g.set 5 0x1000000040).set 6 3 }
  let s := ({ State.reset with tasks := [(0, x)], jobs := [(1, ⟨job1, false, 0, []⟩)] } : State).placeCode (l.flatMap encodeBytes)
  s.setTask 0 (f (s.task 0))

/-- A result that is no exit, and what holds of it. -/
theorem ok_of {ε α : Type} (r : Except ε α) (p : α → Bool) (h : (match r with | .ok v => p v | .error _ => false) = true) : ∃ v, r = .ok v ∧ p v = true := by
  cases r with
  | ok v => exact ⟨v, rfl, h⟩
  | error _ => cases h

/-- Whether a result is no exit. -/
def went {ε α : Type} : Except ε α → Bool
  | .ok _ => true
  | .error _ => false

/-- A check that passes. -/
theorem passes {ε : Type} (r : Except ε Unit) (h : went r = true) : r = .ok () := by
  cases r with
  | ok _ => rfl
  | error _ => cases h

/-- A result that is this one. -/
theorem ok_eq {ε α : Type} [DecidableEq α] (r : Except ε α) (v : α) (h : (match r with | .ok x => decide (x = v) | .error _ => false) = true) : r = .ok v := by
  cases r with
  | ok x => exact congrArg _ (of_decide_eq_true h)
  | error _ => cases h

/-- Scalar registers of a task set. -/
def regs (l : List (Gpr × Word)) (x : Task) : Task := l.foldl (fun x e => x.setG e.1 e.2) x

/-- The same under a debugger, without a trap entry. -/
def debugged : State := { lab id [] with jobs := [(1, ⟨{ job1 with trapEntry := 0 }, true, 0, []⟩)] }

/-- A present page, readable and writable, in the TLB of its stack. -/
def mapped (va : Nat) (pte : Word) (s : State) : State :=
  { s with tlbs := tput s.tlbs (homeStack va) (⟨spaceOf 1 va, pageClass va, va % 2 ^ 56 / 2 ^ pageShift va, pte⟩ :: tget s.tlbs (homeStack va) []) }

/-- The attributes of an accessible page, as a unit's cache holds them. -/
def openAttr (a va : Nat) : Attr := ⟨spaceOf a va, pageClass va, va % 2 ^ 56 / 2 ^ pageShift va, 2, true, true, true⟩

/-- The check of a range whose pages a unit's cache holds as accessible passes. -/
theorem checkPages_open (s : State) (unit a va n : Nat) (h : tget s.attrs unit [] = (pageStarts va n).map (openAttr a)) :
    s.checkPages unit a false true false 1 va n = .ok () := by
  have hx : ∀ v ∈ pageStarts va n, checkAttr (s.attr unit a v) false true false a v 1 = .ok () := fun v hv => by
    have : ∃ b ∈ tget s.attrs unit [], (s.attrOf a v).same b = true := ⟨openAttr a v, h ▸ List.mem_map_of_mem hv, by simp [Attr.same, State.attrOf, openAttr]⟩
    obtain ⟨b, hb⟩ := Option.isSome_iff_exists.mp (List.find?_isSome.mpr this)
    obtain ⟨w, -, rfl⟩ := List.mem_map.mp (h ▸ List.mem_of_find?_eq_some hb)
    simp [State.attr, hb, checkAttr, openAttr, need]
  unfold State.checkPages
  split
  · rfl
  · generalize pageStarts va n = l at hx
    induction l with
    | nil => rfl
    | cons v l ih => 
      rw [List.foldlM_cons, hx v (List.mem_cons_self ..)]
      exact ih fun w hw => hx w (List.mem_cons_of_mem _ hw)

/-- A write by the hardware to pages that its unit may access, with no replica and no peer page, is held up by nothing. -/
theorem leaves_now (s : State) (p : Party) (a va n : Nat) (ha : tget s.attrs p.unit [] = (pageStarts va n).map (openAttr a))
    (hd : s.dies = []) (hr : s.peers = []) : (s.askLeave p true (.glob a va) n).1 = .now := by
  have h1 : s.replicatedFrom (.glob a va) n = false := by simp [State.replicatedFrom, State.replicated, Loc.plus, hd]
  have h2 : s.behindSwitch (.glob a va) = false := by simp [State.behindSwitch, State.peerOf, hr, tget, tfind]
  simp [State.askLeave, checkPages_open s p.unit a va n ha, h1, h2]

/-- A slice's request for a translation changes no cache of attributes, no die and no peer table. -/
theorem sliceAsk_leaves (s : State) (a va : Nat) : (s.sliceAsk a va).attrs = s.attrs ∧ (s.sliceAsk a va).dies = s.dies ∧ (s.sliceAsk a va).peers = s.peers := by
  unfold State.sliceAsk State.fillTlb State.noteMalformed State.notify
  dsimp only
  split
  · split <;> exact ⟨rfl, rfl, rfl⟩
  · split <;> exact ⟨rfl, rfl, rfl⟩

/-- A unit's cache of the attributes holds the pages of a range as accessible. -/
def opened (unit n : Nat) (l : Loc) (s : State) : State :=
  match l with
  | .glob a va => { s with attrs := tput s.attrs unit ((pageStarts va n).map (openAttr a)) }
  | .bank _ _ => s

/-- An entry of a page table. -/
def entryOf (kind frame : Nat) : Word := BitVec.ofNat 64 (kind * 2 ^ 62 + frame / 4096 * 2 ^ 12)

/-- A page table of address space 1 whose walk for an address ends with a leaf. -/
def tabled (va : Nat) (leaf : Word) (s : State) : State :=
  let base := homeStack va * 2 ^ 36; let frame := fun (k : Nat) => base + 2 ^ 30 + 4096 * k
  let put := fun (m : Memory) (pa : Nat) (e : Word) => m.putBytes pa (natBytes e.toNat 8)
  let l := (pageGroups (pageClass va)).zipIdx
  let m := l.foldl (fun m e => put m (frame e.2 + 8 * (va / 2 ^ e.1.1 % 2 ^ e.1.2)) (if e.2 + 1 = l.length then leaf else entryOf 2 (frame (e.2 + 1)))) s.hbm
  { s with hbm := put m (base + 32 * spaceOf 1 va + 8 * pageClass va) (entryOf 2 (frame 0)) }

theorem test_witness_BranchResults : Claims.holds 9 (Claims.reg (lab id []) 5) (Claims.reg (lab id []) 6) ∧
    ¬Claims.holds 0 (Claims.reg (lab id []) 5) (Claims.reg (lab id []) 6) ∧ ((0x1000000040 : Nat) + 4 * 1) % 4 = 0 ∧ 3 % 2 ^ 56 % 4 ≠ 0 := by
  unfold Claims.holds
  decide +kernel

theorem test_witness_RepeatCaptureAndAdvance :
    ((lab id [.nop, .vadd 1 2 3 0 0]).task 0).nest = false ∧
    (lab id [.nop, .vadd 1 2 3 0 0]).scanWindow 1 0x1000000004 = ([(.vadd 1 2 3 0 0, 0x1000000004, 4)], none, false) ∧
    (lab id [.nop, .br 0]).scanWindow 1 0x1000000004 = ([], some (.trap 1 0 (wordOf (.br 0)) none), false) ∧
    (let f : Frame := ⟨[(.nop, 4, 4), (.vadd 1 2 3 0 0, 8, 4)], 2, 0, 1, 1, 1, 1⟩
     f.window.length ≤ f.j + 1 ∧ f.i + 1 < f.n ∧ f.window[0]? = some (.nop, 4, 4) ∧ f.window[f.j]? = some (.vadd 1 2 3 0 0, 8, 4)) ∧
    (let f : Frame := ⟨[(.nop, 4, 4), (.vcmp 1 2 3 0 2 4, 8, 4)], 2, 1, 1, 1, 1, 1⟩
     f.window[f.j]? = some (.vcmp 1 2 3 0 2 4, 8, 4) ∧ encode (.add 1 2 3) = [0x04108300] ∧ (fld (0x04108300 : Half32) 26 6).toNat ∉ Claims.vecMajors) :=
  ⟨by decide +kernel, by decide +kernel, by decide +kernel, by decide +kernel, by decide +kernel, by decide +kernel, by decide⟩

theorem test_witness_RegisterReads : (1 : Gpr) ≠ 0 ∧ (2 : Gpr) ≠ 1 ∧ (1 : Kr) ≠ 0 ∧ (2 : Kr) ≠ 1 ∧ (2 : Vr) ≠ 1 := by decide

theorem test_witness_TrapEntry :
    let x := (lab id []).task 0; let j := (lab id []).job x.job; let y := debugged.task 0; let k := debugged.job y.job
    (x.nest = false ∧ j.desc.trapEntry ≠ 0 ∧ j.debugger = false ∧ x.halt = none) ∧
    (k.desc.trapEntry = 0 ∧ k.debugger = true ∧ (3 : Nat) ≠ 10 ∧ (3 : Nat) ≠ 12) ∧
    (let z := { x with pendingTrap := some (0x1000000000, 4, 0, 0, 0) }
     z.issues = true ∧ z.owes = false ∧ (lab (fun _ => z) []).yieldOver 0 = true) ∧
    (let h := { x with halt := some ⟨false, 0, false⟩ }; h.halt = some ⟨false, 0, false⟩ ∧ (3 : Nat) ≠ 10 ∧ (3 : Nat) ≠ 12) := by
  decide +kernel

theorem test_witness_TrapInstructionsAndReturn :
    let x := (lab id []).task 0; let y := (lab (fun x => { x with trapCause := 0x8000000000000001, trapPc := 0x1000000004 }) []).task 0
    x.frame = none ∧ x.nest = false ∧ x.halt = none ∧ y.nest = true ∧ y.trapPc.toNat % 4 = 0 := by
  decide +kernel

theorem test_witness_ControlRegisters : (3 : Nat) % 8 ≤ 5 ∧ 5 < 7 % 8 ∧ (16 : Gpr).toNat ≤ 23 ∧ 31 ≤ (40 : Gpr).toNat := by decide

theorem test_witness_Loads :
    (let A := Claims.address (lab id []) 6 1 0 none 1
     A % 1 = 0 ∧ Claims.readableBank (lab id []) 0 (A % 2 ^ 56) 1 ∧ Claims.quiet (lab id []) (.bank 0 (A % 2 ^ 56)) 1) ∧
    (lab id []).loadPlace (.ld 3 5 0 3 0 2) 5 0 3 2 none = .ok (.glob 1 0x1000000050) ∧
    Claims.quiet (lab id []) (.glob 1 0x1000000050) 8 ∧ Claims.present (lab id []) (.glob 1 0x1000000050) 1 ∧
    (let s := mapped 0x3000000000 15 (lab id [])
     s.farMember 1 0x3000000000 = none ∧ s.peerOf 1 0x3000000000 = none ∧ (s.line 1 0x3000000000).mask = 0 ∧ (s.setMates 1 0x3000000000).length < 16 ∧
       (s.translate 1 0x3000000000).kind = 2 ∧ holdsLine (s.core 0).cacheLines (lineKey 1 0x3000000000) s.cycle = false ∧ (s.quad 0).pooled = false) := by
  unfold Claims.readableBank Claims.quiet Claims.present
  refine ⟨⟨by decide +kernel, ⟨by decide +kernel, by decide +kernel, rfl⟩, by decide +kernel⟩, rfl, by decide +kernel, fun j hj a va h => ?_, by decide +kernel⟩
  obtain rfl : j = 0 := by omega
  obtain ⟨rfl, rfl⟩ := Loc.glob.inj h
  decide +kernel

/-- The task of `lab` as a restartable one that buffers its stores. -/
def buffering (x : Task) : Task := { x with restartable := true, shadowKiB := 4 }

theorem test_witness_Stores : let b := lab buffering []
    (((lab id []).task 0).buffers = false ∧ (lab id []).storePlace (.st 6 5 0 3 2) 5 0 3 2 none = .ok (.glob 1 0x1000000050)) ∧
    Claims.hasRoom (b.task b.focus) ∧ Claims.elsewhere b (.glob 1 0x1000000050) ∧
    b.storePlace (.st 6 5 0 3 2) 5 0 3 2 none = .ok (.glob 1 0x1000000050) ∧
    b.storePlace (.stPrefixed 6 5 0 3 2 0) 5 0 3 2 (some 0) = .ok (.glob 1 0x1000000050) ∧
    b.amoPlace 0 5 1 0 (plainAmo 0) = .ok (.glob 1 0x1000000040) ∧ b.amoPlace 0 5 0 0 ⟨2, false, false, 0⟩ = .ok (.glob 1 0x1000000040) ∧
    Claims.nan32 0x7FC00000 ∧ ¬Claims.nan32 (3 % 2 ^ 32) := by
  intro b
  refine ⟨⟨?_, ok_eq _ _ ?_⟩, ?_, fun _ _ h => (Loc.noConfusion h), ok_eq _ _ ?_, ok_eq _ _ ?_, ok_eq _ _ ?_, ok_eq _ _ ?_, ?_⟩
  all_goals (try unfold b); (try unfold Claims.hasRoom); (try unfold Claims.nan32); decide +kernel

theorem test_witness_AlignmentTraps : let s := lab id []
    (Claims.address s 6 1 0 none 2 % 2 ≠ 0 ∧ s.place 1 (BitVec.ofNat 64 (Claims.address s 6 1 0 none 2)) 0 accLoad.kind = .ok (.bank 0 3) ∧
      s.checkRole (.bank 0 3) 2 accLoad = .ok ()) ∧
    (Claims.address s 6 1 1 (some 1) 8 % 8 ≠ 0 ∧ s.place 1 (BitVec.ofNat 64 (Claims.address s 6 1 1 (some 1) 8)) 0 accStore.kind = .ok (.bank 0 4107) ∧
      s.checkRole (.bank 0 4107) 8 accStore = .ok ()) ∧
    ((Claims.reg s 6).toNat % 8 ≠ 0 ∧ s.place 1 (Claims.reg s 6) 0 3 = .ok (.bank 0 3) ∧ s.checkRole (.bank 0 3) 8 accAtomic = .ok () ∧
      s.checkRole (.bank 0 3) 8 accRed = .ok ()) := by
  intro s
  refine ⟨⟨?_, ok_eq _ _ ?_, passes _ ?_⟩, ⟨?_, ok_eq _ _ ?_, passes _ ?_⟩, ?_, ok_eq _ _ ?_, passes _ ?_, passes _ ?_⟩
  all_goals (unfold s); decide +kernel

theorem test_witness_Atomics : let s := lab id []
    (Claims.direct (s.task 0) ∧ (s.task 0).guarded = false ∧ s.replicated (.glob 1 0x1000000040) = false ∧
      s.amoPlace 3 5 1 0 (plainAmo 0) = .ok (.glob 1 0x1000000040) ∧ ((s.ownPending 0).any (·.meets (.glob 1 0x1000000040) 8)) = false) ∧
    s.amoPlace 3 5 0 0 (plainAmo 0) = .ok (.glob 1 0x1000000040) ∧
    Claims.nan32 0x7F800001 ∧ ¬Claims.nan32 3 ∧
    s.amoPlace 3 5 1 0 ⟨4, true, true, 0⟩ = .ok (.glob 1 0x1000000040) ∧ (∃ u, s.releaseNow 0 4 = (true, u)) := by
  unfold Claims.direct Claims.nan32
  exact ⟨⟨by decide +kernel, by decide +kernel, by decide +kernel, rfl, by decide +kernel⟩, rfl, by decide, by decide, rfl, _, rfl⟩

theorem test_witness_Reductions : (lab id []).amoPlace 0 5 1 0 (plainAmo 0) = .ok (.glob 1 0x1000000040) ∧
    (lab id []).amoPlace 0 5 0 0 (plainAmo 0) = .ok (.glob 1 0x1000000040) ∧ ¬Claims.nan32 ((Claims.reg (lab id []) 6).toNat % 2 ^ 32) := by
  unfold Claims.nan32
  exact ⟨rfl, rfl, by decide +kernel⟩

theorem test_witness_MemoryCanonical : (Memory.empty.putBytes 5 [1, 0, 2]).wf = true := by decide +kernel

/-- A store of four bytes to bank 0 of core 0 by the task of `lab`. -/
def storeAt (id : Nat) (l : Loc) : Write := { Claims.issued (lab (fun x => x) []) l [1, 2, 3, 4] [] none 0 with id := id }

theorem test_witness_Arrivals : (storeAt 9 (.bank 0 64)).loc = .bank 0 64 ∧ (storeAt 9 (.bank 0 64)).op = none ∧ (storeAt 9 (.bank 0 64)).mask = [] ∧
    ((lab id []).core 0).mem.wf = true ∧ (lab id []).peerOf 1 0x1000000040 = none ∧
    ((lab id []).line 1 0x1000000040).has (0x1000000040 % 256) = true := by
  decide +kernel

theorem test_witness_OrderingAndBarriers : let s := lab id []; let x := s.task 0; let y := (lab buffering []).task 0
    (x.buffers = false ∧ x.view.relStarted = false ∧ (∀ q, q < 4 → (x.view.issued[q]?).getD 0 = (x.view.arrived[q]?).getD 0) ∧
      s.peerPending x.tid = false) ∧
    (y.buffers = true ∧ y.shadowUsed + 16 ≤ y.shadowKiB * 1024) ∧
    (∃ u, s.releaseNow 0 4 = (true, u) ∧ u.focus = 0 ∧ (u.task 0).job = x.job ∧ (u.barrierAt 4 0 0).arrivals = []) ∧
    (let w := s.setBarrier 4 0 0 ⟨1, [(7, [])], 3, 0⟩
     (w.barrierAt 4 0 0).arrivals ≠ [] ∧ (w.barrierAt 4 0 0).arrivals.length = (w.barrierAt 4 0 0).n) := by
  exact ⟨by decide +kernel, by decide +kernel, ⟨_, rfl, by decide +kernel, by decide +kernel, by decide +kernel⟩, by decide +kernel⟩

theorem test_witness_WriteMoves : let a := storeAt 9 (.glob 1 0x1000000040); let b := { storeAt 10 (.glob 1 0x1000000040) with op := some 0 }
    let s := { lab (fun x => { x with sb := [a] }) [] with path := [b], hist := [{ a with id := 11, arrivedAt := 0 }], cycle := 5000,
                                                           atSwitch := [{ b with id := 12 }, { b with id := 13, party := .remote 3 }] }
    (s.task 0).sb.find? (·.id == a.id) = some a ∧ (s.task 0).sb.find? (fun x => x.loc.line == a.loc.line) = some a ∧
    s.path.find? (·.id == b.id) = some b ∧ s.deliverable b = true ∧ b.op.isSome = true ∧ (∀ e ∈ s.path, e.id ≠ 3) ∧
    (∃ e ∈ s.hist, e.arrivedAt + 4096 ≤ s.cycle) ∧ s.atSwitch.find? (·.id == 12) = some { b with id := 12 } ∧
    s.switchFirst { b with id := 12 } = true ∧ s.replicated b.loc = false ∧ s.unserved b.loc = false ∧
    s.packageOf { b with id := 12 } ≠ s.packageOf { b with id := 13, party := .remote 3 } := by
  decide +kernel

theorem test_witness_WaitYieldCommitEnd :
    let s := lab id []; let x := s.task 0; let y := (lab buffering []).task 0
    let u := s.modCore 0 fun k => { k with xbar := { k.xbar with counters := vput k.xbar.counters 3 5 } }
    let q := s.modCore 0 fun k => { k with xbar := { k.xbar with waiters := [(4, 3)] } }
    (vget (u.core 0).xbar.counters ((Claims.reg u 6).toNat % 16) 0 = 5 ∧ (u.core 0).xbar.waiters = [] ∧ (u.core 0).gatesWant 3 = false ∧
      (u.task 0).life = .running) ∧
    (vget (s.core 0).xbar.counters 3 0 = 0 ∧ (s.core 0).xbar.waiters = []) ∧
    ((∃ w ∈ (q.core 0).xbar.waiters, w.2 = (Claims.reg q 6).toNat % 16) ∧ ∀ w ∈ (q.core 0).xbar.waiters, w.1 ≠ q.focus) ∧
    Claims.direct x ∧ x.guarded = false ∧ x.moving = none ∧
    (let z := { y with shadow := [.write (storeAt 9 (.glob 1 0x1000000040))] }
     z.buffers = true ∧ z.guarded = false ∧ z.shadow = [storeAt 9 (.glob 1 0x1000000040)].map .write) := by
  unfold Claims.direct
  decide +kernel

theorem test_witness_ForkSpawnAndJoins : let s := lab (fun x => { x with g := (x.g.set 7 0x1000000004).set 8 0x1000000048 }) []; let y := (lab buffering []).task 0
    (s.checkChild (.fork 0 7 10) 0 7 10 = .ok () ∧ (s.task 0).buffers = false ∧ ∃ u, s.releaseNow 0 4 = (true, u)) ∧
    (s.checkChild (.spawn 8 7 10) 8 7 10 = .ok () ∧ (Claims.reg s 8).toNat = 0x1000000048) ∧
    (let z := { s with attrs := [(0, [openAttr 1 0x1000000048])] }
     Claims.updatable z (.task 7 0) 1 0x1000000048) ∧
    (y.buffers = true ∧ y.shadowUsed + 72 ≤ y.shadowKiB * 1024) ∧ 57 < (58 : Gpr).toNat ∧ (Claims.reg s 6).toNat % 8 ≠ 0 ∧
    ((s.core 0).dequeTail.toNat - (s.core 0).dequeHead.toNat < 64 * ({ Core.reset with dequeBanks := 16 } : Core).dequeBanks - 1) ∧
    (∃ v, s.waitWord (Claims.reg s 5) = .ok v ∧ (v.1 == 0) = true) := by
  refine ⟨⟨rfl, by decide +kernel, _, rfl⟩, ⟨rfl, by decide +kernel⟩, ?_, by decide +kernel, by decide, by decide +kernel, by decide +kernel, ok_of _ _ (by decide +kernel)⟩
  unfold Claims.updatable
  exact ⟨by decide, by decide, passes _ (by decide +kernel), by decide +kernel, by decide +kernel, by decide +kernel, by decide +kernel, by decide +kernel⟩

/-- The task of `lab` on a service core. -/
def serving (f : Task → Task) : State := let s := lab f []; { s with focus := 10240, tasks := [(10240, s.task 0)] }

theorem test_witness_ServiceCoreTraceAndIdle : let s := serving (regs [(7, 0), (8, 2 ^ 16)]); let t := lab (regs [(7, 0)]) []
    let u := t.modDie 0 fun k => { k with tracectl := BitVec.allOnes _ }
    (10240 ≤ s.focus ∧ (Claims.reg s 8).toNat < 2 ^ 18 ∧ Claims.reg s 7 = 0 ∧ (s.releaseNow s.focus 4).1 = true) ∧
    (t.focus < 10240 ∧ (t.die 0).collects 1 = false ∧ (Claims.reg t 7).toNat ≤ (t.die 0).dieclk.toNat ∧ (t.die 0).dieclk.toNat < (Claims.reg t 6).toNat) ∧
    ((u.die 0).collects 1 = true ∧ (u.core 0).trace.length < 8) := by
  decide +kernel

theorem test_witness_BankRolesAndPooling : let s := lab (regs [(7, 2 ^ 31 + 300), (8, 1), (9, 2 ^ 32), (10, 2 ^ 31 + 330), (11, 2)]) []
    ((Claims.reg s 7).toNat = 300 + 2 ^ 31 ∧ (s.job (s.task 0).job).desc.bankctl = true ∧ (s.core 0).bankmap.toNat / 4 ^ 300 % 4 = 1 ∧ (Claims.reg s 8).toNat % 4 = 1 ∧ (Claims.reg s 11).toNat % 4 = 2 ∧
      s.bankRefused 0 300 = false ∧ s.bankRefused 0 320 = true) ∧
    (2 ^ 32 ≤ (Claims.reg s 9).toNat ∧ (Claims.reg s 9).toNat < 2 ^ 33 ∧ (Claims.reg s 9).toNat / 2 ^ 28 % 8 = 0) ∧
    (∃ u, s.releaseNow 0 1 = (true, u) ∧ u.focus = 0 ∧ u.cores = s.cores ∧ u.bankStores 0 [300] = false) :=
  ⟨by decide +kernel, by decide +kernel, _, rfl, by decide +kernel, by decide +kernel, by decide +kernel⟩

theorem test_witness_CacheMaintenance : let s := lab (regs [(7, 0x1000000000), (8, 256)]) []
    (∀ w ∈ (s.task 0).sb, keyIn 1 0x1000000000 256 (w.id * 2 ^ 48) = false) ∧ (s.task 0).sb = [] ∧ s.replicatedIn 1 0x1000000000 256 = false ∧
    ((0x1000000000 : Nat) + 256 - 1) / 256 = 0x1000000000 / 256 ∧ (s.attr 0 1 0x1000000000).kind = 2 ∧ (s.attr 0 1 0x1000000000).r = true ∧
    (s.setMates 1 0x1000000000).length < 16 := by
  decide +kernel

/-- A task ring of four slots of 64 bytes at entry 3 of core 0, with two slots filled, and the handle 2 of the task bound to it. -/
def ringed (r : Ring) : State :=
  (lab (fun x => { (regs [(7, 2), (8, 3), (9, 64 + 3)] x) with q := vput x.q 2 (some ⟨0, 3⟩) }) []).modCore 0 fun k => { k with rings := vput k.rings 3 (some r) }

/-- That ring. -/
def ring4 : Ring := ⟨0x140000, 4, 6, false, 0, 2, 0, 1, [], [], []⟩

theorem test_witness_Rings : let s := ringed ring4; let x := s.task 0
    (vget x.q 2 none = some ⟨0, 3⟩ ∧ s.ring ⟨0, 3⟩ = some ring4 ∧ x.life = .running ∧ (ring4.tail - ring4.head).toNat = 2 ∧
      (Claims.reg s 7).toNat ≤ 2 ∧ 2 < (Claims.reg s 8).toNat ∧ s.ringBusy ⟨0, 3⟩ = false) ∧
    (∃ u, s.releaseNow 0 2 = (true, u) ∧ u.focus = 0 ∧ u.ring ⟨0, 3⟩ = some ring4) ∧
    (vget x.q 5 none = none ∧ (Claims.reg s 9).toNat / 32 = 2) ∧
    (let v := lab (regs [(7, 32 + 3), (8, 0x6_0300_0000 + 0x140000 + 6 * 2 ^ 40)]) []
     (Claims.reg v 7).toNat / 32 = 1 ∧ vget (v.task 0).q 2 none = none ∧ v.ring (Claims.entry v 7) = none) ∧
    (let v := ringed { ring4 with msg := true }; vget (v.task 0).q 2 none = some ⟨0, 3⟩ ∧ v.ring ⟨0, 3⟩ = some { ring4 with msg := true }) := by
  exact ⟨by decide +kernel, ⟨_, rfl, by decide +kernel, by decide +kernel⟩, by decide +kernel, by decide +kernel, by decide +kernel⟩

theorem test_witness_MessagesAndDeques :
    let s := lab (regs [(7, 0x14), (8, 64), (9, 2)]) []
    let g : Trigger := Trigger.of [0x1000000000, 0, 0, 0, 0, 0, 0, 0] .record 1
    let n := { s with cores := [(0, { Core.reset with job := some 1, dequeBase := 320, dequeBanks := 1 }), (1, { Core.reset with job := some 1, dequeBase := 320, dequeBanks := 1 })] }
    ((Claims.reg s 7).toNat < 2 ^ 24 ∧ (Claims.reg s 7).toNat / 16 % 16 < 10 ∧ (s.task 0).guarded = false) ∧
    (∃ v, s.scratchArea (.send 7 8) (Claims.reg s 8) 64 0 = .ok v ∧ (v == 64) = true) ∧ (s.releaseNow 0 4).1 = true ∧ g.src = .record ∧ (n.core 0).pop = none := by
  exact ⟨by decide +kernel, ok_of _ _ (by decide +kernel), by decide +kernel, by decide +kernel, by decide +kernel⟩

/-- A handle of core 0's quad: port 0 of the casement in slot 2, a sink or a source of 8 bytes. -/
def handle (sink : Bool) : PortRef := { PortRef.fresh (portName 0 2 1) sink 8 with block := false }

/-- A casement of one state and one transition of its ports 0, a sink, and 1, a source that has an offer. -/
def cas1 (b : Binding) : Casement where
  job := 1
  scope := 2
  buf := 0
  ports := [⟨true, 8, b, some (⟨[], false⟩, []), none, 4⟩, ⟨false, 8, b, some (⟨[1, 2, 3, 4, 5, 6, 7, 8], false⟩, []), none, 4⟩]
  fifos := []
  filters := []
  states := [(0, 1)]
  trans := [⟨3, 0, 0, 0, [], [(0, 1)]⟩]
  state := 0
  ptrs := [0]

/-- A state with that casement, its port bound as b, messages to and from the Transom, and a task with handle 4 on its port 0. -/
def ported (b : Binding) (r : PortRef) (f : Task → Task) (to_ : List (Nat × BitVec 2 × PMsg)) (from_ : List (Nat × PMsg)) : State :=
  (lab (fun x => f { (regs [(7, 64), (8, portName 0 2 1), (9, 16)] x) with p := vput x.p 4 (some r) }) []).modQuad 0 fun k =>
    { k with cas := vput k.cas 2 (some (cas1 b)), gens := vput k.gens 2 1, toT := to_, fromT := from_ }

theorem test_witness_HandlersHoldsAndGrids :
    let s := lab (regs [(7, 0x1000000000), (8, 5), (9, 7), (10, 2 ^ 32 + 3), (11, 0), (12, 2), (13, 0x100)]) []
    let t := ported .none (handle true) id [] []
    ((Claims.reg s 7).toNat % 4 = 0 ∧ (Claims.reg s 8).toNat < 2 ^ 8 ∧ (s.task 0).reply = none ∧ (s.task 0).team = none) ∧
    ((Claims.reg s 10).toNat / 2 ^ 38 % 4 = 0 ∧ (Claims.reg s 10).toNat < 2 ^ 48 ∧ Claims.reg s 11 = 0 ∧ (s.task 0).guarded = false) ∧
    (∃ u, s.releaseNow 0 4 = (true, u) ∧ (u.task u.focus).g = (s.task 0).g) ∧
    (let z := { s with attrs := [(0, [openAttr 1 0x1000000048])] }
     (z.releaseNow 0 4).1 = true ∧ Claims.updatable (z.releaseNow 0 4).2 (.task 7 0) 1 0x1000000048) ∧
    ((Claims.reg s 12).toNat ≤ 3 ∧ (Claims.reg s 12).toNat ≠ quadIndex 0 ∧ 2 ^ 8 ≤ (Claims.reg s 13).toNat ∧ (Claims.reg s 13).toNat < 2 ^ 9) ∧
    (2 ^ 63 ≤ (Claims.reg t 8).toNat ∧ nameValid (Claims.reg t 8) = true ∧ (t.portAt (Claims.reg t 8)).map (·.bind) = some .none ∧
      outOfScope (t.nameScope (Claims.reg t 8)) 0 (nameQuad (Claims.reg t 8)) = false) := by
  refine ⟨by decide +kernel, by decide +kernel, ⟨_, rfl, by decide +kernel⟩, ⟨by decide +kernel, ?_⟩, by decide +kernel, by decide +kernel⟩
  unfold Claims.updatable
  exact ⟨by decide, by decide, passes _ (by decide +kernel), by decide +kernel, by decide +kernel, by decide +kernel, by decide +kernel, by decide +kernel⟩

theorem test_witness_CasementsAndPorts :
    let n := portName 0 2 1; let s := ported (.task 7 0) (handle true) id [] []; let x := s.task 0
    (x.port 4 = some (handle true) ∧ (s.portAt n).isSome = true ∧ x.portBusy n = false ∧ x.guarded = false ∧
      (s.releaseNow 0 (s.nameScope n)).1 = true ∧ s.checkArea (handle true) 64 = .ok () ∧ x.port 3 = none) ∧
    (∃ l, s.checkAlt (.alt 1 9 7) 64 (maskHandles 16) = .ok l ∧ (oneCasement l && l.length == 1) = true) ∧
    (x.life = .running ∧ x.portWait = none ∧ nameValid n = true) ∧
    (∃ r, (lab id []).readGlobal 0x1000000000 256 = .ok r ∧ (firstFailing (headChecks r.1)).isSome = true) := by
  refine ⟨⟨by decide +kernel, by decide +kernel, by decide +kernel, by decide +kernel, by decide +kernel, passes _ (by decide +kernel), by decide +kernel⟩,
    ok_of _ _ (by decide +kernel), by decide +kernel, ok_of _ _ (by decide +kernel)⟩

theorem test_witness_TransomMoves :
    let n := portName 0 2 1; let s := ported (.task 7 0) (handle true) id [(0, 0, .offer 7 n ⟨[], false⟩ none [])] []
    let w := ported (.task 7 0) (handle true) id [(0, 0, .withdraw 7 n)] []; let b := ported .none (handle true) id [(0, 0, .bind 7 n)] []
    ((s.portAt n).map (·.boundTo 7) = some true ∧ s.firstToT 0 0 = some (.offer 7 n ⟨[], false⟩ none []) ∧ w.firstToT 0 0 = some (.withdraw 7 n) ∧
      (w.portAt n).map (·.offer.isSome) = some true ∧ b.firstToT 0 0 = some (.bind 7 n)) ∧
    ((cas1 (.task 7 0)).nextStep.isSome = true ∧ vget (s.quad 0).cas 2 none = some (cas1 (.task 7 0)) ∧ s.portAt (portName 0 2 2) = none ∧
      b.firstToT 0 1 = none) := by
  decide +kernel

theorem test_witness_PortReplies :
    let n := portName 0 2 1; let r := { handle true with offered := some (64, ⟨[], false⟩), block := true }; let d : Datum := ⟨[1, 2, 3, 4, 5, 6, 7, 8], false⟩
    let s := ported (.task 7 0) r (fun x => { x with life := .waiting .port, portWait := some (.fire 5 [4]) }) [] [(0, .fire 7 n d [])]
    let w := ported (.task 7 0) { r with asked := true } (fun x => { x with life := .waiting .port, portWait := some (.pwd 5 4) }) [] [(0, .withdrawn 7 n)]
    let b := ported .none r (fun x => { x with life := .waiting .port, portWait := some (.bind 5 3) }) [] [(0, .bound 7 n 0 true 8)]
    (s.findTid 7 = some 0 ∧ (s.task 0).handleOf n = some (4, r) ∧ s.firstFromT 0 0 = some (.fire 7 n d []) ∧
      s.watchedRange 0 64 8 = false ∧ (s.task 0).moving = none ∧ (s.task 0).halt = none) ∧
    (w.firstFromT 0 0 = some (.withdrawn 7 n) ∧ (w.task 0).portWait = some (.pwd 5 4)) ∧
    (b.firstFromT 0 0 = some (.bound 7 n 0 true 8) ∧ (b.task 0).portWait = some (.bind 5 3)) ∧ b.firstFromT 0 1 = none := by
  decide +kernel

/-- A copy of 128 bytes between two places of core 0's banks. -/
def copy1 : Copy where
  ident := 65562
  tid := 7
  job := 1
  asid := 1
  src := 0
  dst := 0x2000
  sfmt := (13, 0)
  dfmt := (13, 0)
  conv := false
  ssp := 1
  dsp := 1
  scoord := 0
  dcoord := 0
  pat := ⟨128, 0, []⟩
  rnd := ⟨0, 0, 0, 0⟩
  flags := 0
  dlo := 0x2000
  dhi := 0x2080
  ordered := true
  landed := 0
  ahead := []
  cache := none
  frozen := none
  aborting := false
  gated := false
  requested := true
  order := 0
  mword := none
  multi := none
  ring := none
  stream := none
  batch := 1

/-- The machine with that copy, or another, in slot 2 of core 0's engine, and its descriptor at 0x100. -/
def copying (k : Copy) (f : Task → Task) : State :=
  (lab (fun x => f (regs [(1, 0x100), (2, 65562), (4, 0x1000000000), (5, 0x2000)] x)) []).modCore 0 fun z =>
    { z with
      slots := vput z.slots 2 ⟨⟨true, false, false, false, false, 0x2000⟩, 3, some k⟩
      mem := z.mem.putBytes 0x100 (natBytes (64 + 2 ^ 42) 8 ++ natBytes 0 8) }

theorem test_witness_CopyEngine :
    let s := copying copy1 id; let p : Piece := ⟨0, 0, 64⟩
    (s.copySlot 0 2).copy = some copy1 ∧ s.nextUnit 0 copy1 = (0, [p]) ∧ s.unitReady 0 2 copy1 [p] = true ∧ s.unitFault 0 copy1 [p] = none ∧
    (s.hist.any (·.meets (copy1.srcLoc 0 0 0 0) 64)) = false ∧ (s.copySlot 0 3).copy = none ∧
    (let k := { copy1 with landed := 128 }; k.total ≤ k.landed) ∧
    (let k := { copy1 with ssp := 0, src := 0x3000000000 }
     let t := copying k id; (t.unitFault 0 k (t.nextUnit 0 k).2).isSome = true ∧ t.unitReady 0 2 k (t.nextUnit 0 k).2 = true) ∧
    (let k := { copy1 with frozen := some (2, 0x3000000000) }; ((copying k id).job 1).desc.trapEntry ≠ 0 ∧ debugged.takesIrq k = false) := by
  decide +kernel

theorem test_witness_CopyInstructionsAndControl :
    let s := copying copy1 id
    (copyTags s 4 = .ok () ∧ (∃ r, s.readDesc (.cpy 3 1 4) (Claims.reg s 1) = .ok r ∧
      (went (r.2.checkCopy (.cpy 3 1 4) r.1 r.1.pat (Claims.reg r.2 4) (Claims.reg r.2 5) none) && (r.2.core 0).freeSlot.isSome &&
        r.2.mayClaim .copySlot && (r.2.releaseNow 0 4).1 && r.1.dsp == 1) = true)) ∧
    ((Claims.reg s 2).toNat / 2 ^ 16 % 2 = 1 ∧ (Claims.reg s 2).toNat < 2 ^ 27 ∧ (s.copySlot 0 2).gen.toNat = (Claims.reg s 2).toNat / 2 ^ 3 % 2 ^ 13 ∧
      (s.copySlot 0 2).wmk.act = true ∧ (s.task 0).holdsCopy = false ∧ (s.task 0).batches.length < 64 ∧ (s.task 0).stream = none) := by
  exact ⟨⟨rfl, ok_of _ _ (by decide +kernel)⟩, by decide +kernel⟩

theorem test_witness_VectorLanes : let s := lab id []
    Claims.vecReady s 13 [1, 2, 3] ∧ Claims.vecReady s 1 [1, 2, 3] ∧ (13 : Nat) ∈ [11, 12, 13, 14, 30] ∧ hasD (coreOf s.focus) = true := by
  unfold Claims.vecReady
  decide +kernel

theorem test_witness_VectorConversionsAndMoves : let s := lab id []
    Claims.vecReady s 2 [1, 2] ∧ isCvt 2 = true ∧ isCvt 4 = true ∧ isPack 13 = true ∧ (0 : Nat) < 32 / fmtWidth 13 ∧ isMove 2 = true := by
  unfold Claims.vecReady
  decide +kernel

theorem test_witness_VectorArithmeticAndTraps : let s := lab id []; let t := { lab id [] with focus := 16 }
    Claims.vecReady s 2 [1, 2, 3] ∧ hasD (coreOf t.focus) = false ∧ leaseSize ((lab (fun x => { x with leaseCls := 1 }) []).task 0).leaseCls ≤ (31 : Vr).toNat ∧
    (let f := lab (fun x => { x with ftrapen := BitVec.allOnes 7, v := vput (vput x.v 2 (BitVec.ofNat 8192 0x7F800000)) 3 (BitVec.ofNat 8192 0xFF800000) }) []
     (Claims.rounded f 2 0 ((elemValue 2 (Claims.code 2 ((f.task 0).getV 2) 0)).add 0 (elemValue 2 (Claims.code 2 ((f.task 0).getV 3) 0)))).2 &&&
       (f.task 0).ftrapen ≠ 0 ∧ Claims.on 2 ((f.task 0).getK 0) 0 = true) := by
  unfold Claims.vecReady
  decide +kernel

theorem test_witness_VectorMemoryAndGather :
    let s := lab (fun x => { (regs [(7, 0x400)] x) with k := vput x.k 1 1 }) []; let l := Loc.bank 0 0x400
    (Claims.vecReady s 2 [1] ∧ isBlock 2 = false ∧ (s.task 0).buffers = false ∧ elemAligned 2 l.addr = true) ∧
    (∃ m, s.vmemFormat (.vld 1 7 1 0 2 0) 1 7 1 0 2 false = .ok m ∧ (m == (2, 0)) = true) ∧
    (∃ p, s.vmemPlace (.vld 1 7 1 0 2 0) 7 1 0 0 1024 false = .ok p ∧ (p == l) = true) ∧
    s.checkElems false accLoad (arrayElems l 2 0 (enabled 2 ((s.task 0).getK 1)) (elemCount 2)) = .ok () ∧ Claims.quiet s l 1024 ∧
    (∃ m, s.indexFormat (.vgather 1 7 1 1 2 2) 1 2 7 2 false = .ok m ∧ (m == 2) = true) ∧
    (∃ p, s.place 1 (Claims.reg s 7) 0 0 = .ok p ∧ (p == l) = true) := by
  unfold Claims.vecReady Claims.quiet
  exact ⟨by decide +kernel, ok_of _ _ (by decide +kernel), ok_of _ _ (by decide +kernel), passes _ (by decide +kernel), by decide +kernel,
    ok_of _ _ (by decide +kernel), ok_of _ _ (by decide +kernel)⟩

/-- The engine of core 0 as the task of `lab` owns it, for FP16 operands of K = 32. -/
def engine (q : List MCmd) : MatrixEngine :=
  { MatrixEngine.reset with
    owner := some (false, 7), k := 32, astr := 64, bstr := 64, ringOn := true, succ := 1, queue := q,
    latch := vput MatrixEngine.reset.latch 0 ⟨true, false, 3, 32, 0, List.replicate 64 0⟩
    sub := { MatrixEngine.reset.sub with k := 32, acc := false, astr := 64, bstr := 64, lvalid := true, lfmt := 3, lk := 32, ring := true } }

/-- The state with that engine. -/
def matrix (q : List MCmd) : State := (lab (regs [(7, 3 * 2 ^ 59 + 0x4000), (8, 31)]) []).modCore 0 fun k => { k with mx := engine q }

/-- A command of that task. -/
def command (i : Instr) (a : Word) : MCmd :=
  { instr := i, a := a, rows := [], cols := [], rnd := ⟨0, 0, 0, 0⟩, tid := 7, ord := 0, phase := 0, sub := (engine []).sub, clrf := false, routine := none, target := none,
    known := [], token := false, failed := false, sent := none, askew := false, dropped := false }

theorem test_witness_MatrixInstructionsAndEngine :
    let s := matrix []; let x := s.task 0; let e := s.mx 0; let A := Claims.reg s 7; let f := lab (regs [(7, 31)]) []
    (e.heldBy x.owner = true ∧ e.takes = true ∧ e.sub.ring = true ∧ e.orphan = false ∧ mcfgOk 31 0 = true ∧ (f.mx 0).owner = none ∧
      (f.mx 0).heldBy (f.task 0).owner = false ∧ (s.releaseNow 0 1).1 = true) ∧
    mmaCheck (s.core 0) e.sub 0 3 3 A false = .ok () ∧ tagNeedsD s A = .ok () ∧ checkTag A true = .ok () ∧ mloadCheck (s.core 0) 0x4000 = .ok () ∧
    drainFormat 0x4000 (e.sub.kind 0) = .ok () ∧ drainLocal (s.core 0) 0x4000 (e.sub.kind 0) = .ok () ∧
    (let c := command (.mma 0 3 3 7) A; s.rowsLanded 0 0x4000 64 64 64 = true ∧ e.latchOk c = true ∧ (e.bank e.cur).cols.length = 64 ∧ s.hist = [] ∧ (matrix [c]).gateShut 0 c = false) ∧
    (let m := command .mrot 0; let r := (matrix [m]).modCore 0 fun k => { k with mx := { k.mx with streamAcked := true, releasing := true, latch := vput k.mx.latch 1 ⟨true, true, 3, 32, 0, []⟩ } }
     (r.mx 0).streamAcked = true ∧ ((r.mx 0).bank (!(r.mx 0).cur)).full = true ∧ (r.mx 0).releasing = true ∧ r.rotating 0 = true) :=
  ⟨by decide +kernel, passes _ (by decide +kernel), passes _ (by decide +kernel), passes _ (by decide +kernel), passes _ (by decide +kernel),
    passes _ (by decide +kernel), passes _ (by decide +kernel), by decide +kernel, by decide +kernel⟩

/-- A routine of the core: its image in memory, integer, associative. -/
def image : List Byte := ([0x7C3A0000 + 2 ^ 15 + 2 ^ 11] ++ List.replicate 15 0 ++ [2 ^ 26 + 2 * 2 ^ 14 + 2 ^ 5]).flatMap fun w => natBytes w 4

/-- The machine with that image at 0x10_0000_0000, and a block for `fold` at g9. -/
def routined : State :=
  let s := lab (regs [(7, 0x1000000000), (9, 2 ^ 63 + 0x1000000000), (10, 0x40), (11, 4)]) []
  { s with l2 := tput s.l2 (lineKey 1 0x1000000000) (codeLine 0 image) }

theorem test_witness_Routines :
    (∃ r, routined.loadRoutine 0x1000000000 = .ok r ∧ (r.1.assoc && r.2.focus == 0 && r.1.words.length == 1) = true) ∧
    (∃ r, routined.hoPlan (.fold 3 0 1 9) (foldForm 0 1 9) = .ok r ∧ (r.2.focus == 0 && (r.2.core 0).rcmd.isNone && r.2.mayClaim .routineUnit) = true) ∧
    (foldForm 0 1 63).limit < (63 : Gpr).toNat ∧ routined.allArrived 0 = true :=
  ⟨ok_of _ _ (by decide +kernel), ok_of _ _ (by decide +kernel), by decide +kernel, by decide +kernel⟩

/-- The task of `lab` in a life. -/
def living (l : Life) : State := lab (fun x => x) [] |>.setTask 0 { (lab (fun x => x) []).task 0 with life := l }

/-- The machine with a trigger of one waiting record at core 0's mailbox, whose handler's header stands at 0x10_0000_0000. -/
def waiting (g : Trigger) : State :=
  let s := lab id []
  { s with tasks := [], l2 := tput s.l2 (lineKey 1 0x1000000000) (codeLine 0 (natBytes 0x464D0000 4 ++ natBytes 0 4)), cores := [(0, { Core.reset with job := some 1, mailbox := [g] })] }

/-- A record of job 1. -/
def record1 : Trigger := { Trigger.of [0x1000000000, 2, 3, 4, 5, 6, 7, 8] .message 1 with tid := 9 }

/-- A guard entry of four tiles, tile 1 out. -/
def guard1 : Guard where
  job := 1
  n := 4
  next := 2
  sur := 0x1000000000
  chk := 0x1000000000
  exa := 0x1000000000
  arg := 5
  record := 0x1000000040
  gtol := 0
  cls := 1
  redo := []
  tiles := [⟨1, 0, some 0, none, false, none, 0, false⟩]

theorem test_witness_GuardsFlagsAndCrossbar :
    let s := lab (regs [(7, 4), (8, 0x100 + 50), (9, 3), (10, 0x1000000000), (11, 0x1000000000), (12, 0x1000000000), (13, 5), (14, 0x1000000040), (15, 0x17)]) []
    let c := (lab (fun x => { x with guard := some (0, 1, 1, .check) }) []).modQuad 0 fun k => { k with guards := vput k.guards 1 (some guard1) }
    (1 ≤ (Claims.reg s 7).toNat ∧ (Claims.reg s 7).toNat ≤ 2 ^ 20 ∧ s.freeGuard 0 = some 0 ∧ (Claims.reg s 14).toNat % 32 = 0) ∧
    ((c.task 0).guard = some (0, 1, 1, .check) ∧ (c.task 0).moving = none ∧ vget (c.quad 0).guards 1 none = some guard1) ∧
    (2 ^ 8 ≤ (Claims.reg s 8).toNat ∧ (Claims.reg s 8).toNat < 2 ^ 9 ∧ itemOk 50 (Claims.reg s 9) = true ∧ (Claims.reg s 15).toNat / 16 % 16 < 10) ∧
    ({ s with raises := [(0, 3)] } : State).raises[0]? = some (0, 3) ∧
    (let t : Term := ⟨1, true, 3, true, 1⟩; t.en = true ∧ t.latched &&& t.mask = t.mask) ∧
    (let e : Msg := { id := 4, kind := .lines 3, core := 0, fromCore := 9, job := 1, tid := 7, dwords := [], rel := none, lamport := 0, stamped := false, landed := false, cls := 4, xy := false, phase := 0, left := 1 }
     ({ s with msgs := [e] } : State).msgReady e = true) := by
  decide +kernel

/-- The machine with the retired pair of tile 1 of that entry, whose decision is y. -/
def paired (y : GTile) : State :=
  let s := lab id []; let x := { s.task 0 with life := .retired }
  ({ s with
    tasks := [(0, { x with guard := some (0, 1, 1, .surrogate) }), (1, { x with tid := 11, guard := some (0, 1, 1, .check) })]
    attrs := [(0, [openAttr 1 0x1000000040])] }).modQuad 0 fun k => { k with guards := vput k.guards 1 (some { guard1 with tiles := [y] }) }

theorem test_witness_GuardedTileDecision :
    let y : GTile := ⟨1, 0, some 1, some 1, false, some 0x3F800000, 0x40000000, false⟩; let z := { y with gtol := 0 }; let p := paired y; let f := paired z
    let ready := fun (s : State) (y : GTile) => (s.task 0).life = .retired ∧ (s.task 0).settledPorts = true ∧ (s.task 0).guarded = true ∧
      (s.task 0).guard = some (0, 1, 1, .surrogate) ∧ (s.task 1).guard = some (0, 1, 1, .check) ∧ (s.tasks.map (·.1)).Nodup ∧
      vget (s.quad 0).guards 1 none = some { guard1 with tiles := [y] } ∧ ([y].find? (·.t == 1)) = some y ∧ s.swaps = [] ∧ s.pairSlots 0 1 1 = [0, 1] ∧
      ∀ m ∈ s.pairSlots 0 1 1, (s.task m).settledPorts = true ∧ (s.task m).joinAddr = none ∧ (s.task m).team = none ∧ (s.task m).sb = [] ∧
        (s.task m).shadow = [] ∧ s.allArrived m = true
    (ready p y ∧ Claims.outcome y = none ∧ Claims.updatable p (.task 7 0) 1 0x1000000040 ∧ Claims.updatable p (.task 7 0) 1 0x1000000048) ∧
    (ready f z ∧ Claims.outcome z = some 1 ∧ Claims.updatable f (.transom 0) 1 0x1000000050) ∧
    (let w := paired { y with cEnd := none }; ready w { y with cEnd := none }) := by
  unfold Claims.updatable
  refine ⟨⟨by decide +kernel, by decide +kernel, ?_, ?_⟩, ⟨by decide +kernel, by decide +kernel, ?_⟩, by decide +kernel⟩ <;>
    exact ⟨by decide, by decide, passes _ (by decide +kernel), by decide +kernel, by decide +kernel, by decide +kernel, by decide +kernel, by decide +kernel⟩

theorem test_witness_TaskStartsAndEnds :
    let s := waiting record1; let r := s.weighAll 0 (s.sources 0); let e := living .retired
    ((s.task 0).life = .free ∧ (r.1.pickTrigger 0 r.2).any (fun e => r.1.placeFree 0 0 e.1.lease e.1.shadow) = true) ∧
    ((living .ready).task 0).life = .ready ∧ ((living .ready).task 0).tid ≠ 0 ∧ ((living .ready).task 0).resends = false ∧
    ((e.task 0).life = .retired ∧ (e.task 0).settledPorts = true ∧ (e.task 0).guarded = false ∧ (e.commitNow 0).1 = true ∧ (e.commitNow 0).2.allArrived 0 = true) ∧
    (let w : Swap := ⟨{ (lab id []).task 0 with life := .swapped none }, 0, none, []⟩; w.task.life ≠ .free) ∧
    (let z := opened 0 64 (snapshotLoc 0) (lab (fun x => { x with life := .ready, snapDue := true, snapshot := some record1 }) [])
     ((z.task 0).snapDue = true ∧ (z.task 0).snapshot = some record1) ∧ (z.askLeave (.task (z.task 0).tid 0) true (snapshotLoc 0) 64).1 = .now) := by
  intro s r e
  exact ⟨by decide +kernel, by decide +kernel, by decide +kernel, by decide +kernel, by decide +kernel, by decide +kernel,
    ⟨rfl, rfl⟩, leaves_now _ _ _ _ _ (tget_tput_same _ _ _ _) rfl rfl⟩

theorem test_witness_PagesErrorsInterrupts :
    let p := living (.parked 1 0x3000000000 0 none); let i := lab (fun x => { x with irqs := [⟨3, 5, 6⟩] }) []; let b := lab buffering []
    ((p.walk 1 0x3000000000).kind = 0 ∧ (∀ q, q < 4 → tget p.windows q [] = [])) ∧
    ((i.task 0).irqs = [⟨3, 5, 6⟩] ∧ (i.task 0).life = .running ∧ (i.task 0).nest = false ∧ i.landing 0 = false ∧ (i.job (i.task 0).job).desc.trapEntry ≠ 0 ∧
      (i.task 0).owes = false ∧ (i.task 0).pendingTrap = none ∧ (i.task 0).engaged = false ∧ (i.task 0).reply = none ∧ (i.task 0).here ∉ (i.task 0).brk) ∧
    ((b.task 0).buffers = true ∧ (b.task 0).guarded = false ∧ (b.task 0).moving = none) ∧ ((lab id []).task 0).buffers = false := by
  decide +kernel

theorem test_witness_HoldsAndWaits :
    let h := lab (fun x => { x with life := .held none, holdSys := true }) []; let d := lab (fun x => { x with life := .held none, holdDbg := true }) []
    let q := { lab id [] with tasks := (lab id []).tasks ++ [(17, { (lab id []).task 0 with tid := 11, reply := some none })] }
    let r := q.modDie 0 fun k => { k with holdQ := [(11, 7, true)] }
    let i := lab (fun x => { (regs [(7, 100)] x) with life := .waiting .time }) [.idle 3 7]
    ((h.task 0).holdSys = true ∧ (h.task 0).life = .held none) ∧ ((d.task 0).holdDbg = true ∧ (d.task 0).life = .held none ∧ (d.task 0).tid ≠ 0 ∧ d.landing 0 = false) ∧
    ((tfind d.jobs 1).isSome = true ∧ (d.task 0).job = 1) ∧
    ((r.die 0).holdQ = [(11, 7, true)] ∧ (r.task 17).tid = BitVec.ofNat 64 11 ∧ (r.task 17).reply = some none ∧ r.findTid 7 = some 0 ∧ (r.task 0).holdReq = false ∧
      (r.task 0).life = .running) ∧
    ((i.task 0).life = .waiting .time ∧ (∃ f, i.fetch 0 (i.task 0).pc.toNat = .ok f ∧ (f == .instr (.idle 3 7) 4 false) = true) ∧ (i.clock 0).toNat < ((i.task 0).getG 7).toNat) := by
  refine ⟨by decide +kernel, by decide +kernel, by decide +kernel, by decide +kernel, by decide +kernel, ok_of _ _ (by decide +kernel), by decide +kernel⟩

/-- A message of one record. -/
def message1 (k : MsgKind) : Msg where
  id := 4
  kind := k
  core := 0
  fromCore := 9
  tid := 7
  job := 1
  dwords := record1.dwords
  rel := none
  lamport := 0
  stamped := false
  landed := false
  cls := 2
  xy := false
  phase := 0
  left := 1

/-- The state with that message on its way. -/
def mailed (k : MsgKind) (r : Ring) (c : Nat) : State :=
  { lab id [] with msgs := [message1 k], cores := [(0, { Core.reset with job := some 1, rings := vput Core.reset.rings 3 (some r), ringwait := BitVec.ofNat 32 c })], cycle := 100 }

theorem test_witness_MessagesAndThefts :
    let m := mailed .mailbox ring4 0; let r := mailed (.ring 3) { ring4 with msg := true } 16; let h := mailed (.ring 3) { ring4 with msg := true, held := [(4, 0)] } 16
    let st : Steal := ⟨false, 1, 0, 0, none, none, 0⟩
    let v := { lab id [] with tasks := [], cores := [(0, { Core.reset with job := some 1, dequeBase := 320, dequeBanks := 1, steal := some st }),
      (1, ({ Core.reset with job := some 1, dequeBase := 320, dequeBanks := 1 } : Core).putHeader 8 1)] }
    let i := { v with cores := [(0, { Core.reset with job := some 1 }), (1, { Core.reset with job := some 1 })], cycle := 40 }
    (m.msgs.find? (·.id == 4) = some (message1 .mailbox) ∧ m.msgReady (message1 .mailbox) = true ∧ (m.core 0).job = some 1 ∧
      m.named 0 { Trigger.of record1.dwords .message 1 with rel := none } ≠ .unbound 0) ∧
    (r.msgReady (message1 (.ring 3)) = true ∧ r.ring ⟨0, 3⟩ = some { ring4 with msg := true }) ∧
    ((h.ring ⟨0, 3⟩).map (·.held) = some [(4, 0)] ∧ 0 + (h.core 0).ringwait.toNat ≤ h.cycle) ∧
    ((v.core 0).steal = some st ∧ ((v.core 1).dequeTail - (v.core 1).dequeHead).toInt = 1) ∧
    (i.idle 0 = true ∧ (i.core 0).steal = none ∧ i.stealTime 0 = true) := by
  decide +kernel

/-- A grid of two teams of one task. -/
def grid1 : Grid where
  id := 3
  job := 1
  num := 3
  handler := 0x1000000000
  arg := 77
  teams := 2
  size := 1
  scr := 0
  counter := 0
  next := 0
  stamp := 9
  rel := none
  die := 0
  serial := 5

/-- A resident team of that grid. -/
def team1 : Team where
  grid := 3
  num := 0
  quad := 0
  bank := 0
  scr := 0
  alive := 1
  poisoned := false
  resident := 0
  swapped := false
  bySlice := false
  cls := 0
  order := 1
  known := []
  engines := []
  banks := []

/-- The machine with the four cores of a quad for the job, and no task. -/
def quad4 (f : State → State) : State :=
  f { lab id [] with tasks := [], cores := (quadCores 0).map fun c => (c, { Core.reset with job := some 1 }) }

theorem test_witness_TeamsAndPreemption :
    let s := quad4 fun s => { s with grids := [grid1] }; let d := s.modDie 0 fun k => { k with dieclk := 3000000 }
    let t := { d with teams := [(9, team1)], tasks := [(0, { (lab id []).task 0 with team := some (9, 0, 1) })] }
    let h := lab (fun x => { x with halt := some ⟨false, 0, false⟩ }) []; let o := lab (fun x => { x with halt := some ⟨false, 0, true⟩ }) []
    let w : Swap := ⟨{ (lab id []).task 0 with life := .swapped none, leaseCls := 0 }, 0, none, []⟩; let b := quad4 fun s => { s with swaps := [w] }
    let g := (quad4 id).modQuad 0 fun k => { k with guards := vput k.guards 1 (some { guard1 with tiles := [], next := 0 }) }
    let m := { lab id [.vdiv 1 2 3 0 2] with focus := 16 }
    (s.grids.find? (fun g => g.id == 3 && decide (g.next < g.teams)) = some grid1 ∧ (s.job 1).desc.quads.contains 0 = true ∧
      (match s.gridWeight 0 grid1 with
        | .go w => s.teamPossible 0 w.lease w.shadow 1 0 && (s.lowestRun 0 0).isSome && s.placesOk 0 w.lease w.shadow 1 [(0, 0)] && s.teamFits 0 w.lease w.shadow 1 &&
            !s.teamAhead 1 w.cls 3 && s.gridFirst grid1 w.cls && (List.range 4).all fun k => !s.goesFirst (quadCore 0 k) w.cls && !s.triggerBelow (quadCore 0 k) w.cls
        | _ => false) = true) ∧
    (tfind t.teams 9 = some team1 ∧ team1.resident + 2000000 ≤ (t.clock 0).toNat ∧ t.teamWaits team1 1 = true) ∧
    ((h.task 0).halt = some ⟨false, 0, false⟩ ∧ (h.task 0).life = .running ∧ (h.task 0).committing = false ∧ (o.task 0).saveable = true ∧ (o.task 0).team = none ∧
      (∀ e ∈ o.cores, e.2.mx.owner ≠ some (o.task 0).owner)) ∧
    (b.swaps[0]? = some w ∧ w.task.life ≠ .retired ∧ b.placeFree 0 0 w.task.leaseCls w.task.shadowKiB = true ∧ (b.core 0).job = some w.task.job ∧
      b.swapAhead 0 w = false ∧ b.nothingBelow [0] w.task.cls.toNat = true ∧ b.taskReturns w 0 = true) ∧
    (vget (g.quad 0).guards 1 none = some { guard1 with tiles := [], next := 0 } ∧ (g.nextPair 0 1 { guard1 with tiles := [], next := 0 }).isSome = true) ∧
    hasD (coreOf m.focus) = false := by
  decide +kernel

theorem test_witness_LinesAndPages :
    let s := lab id []; let k := lineKey 1 0x1000000000; let p := mapped 0x3000000000 (15 + 2 ^ 60 + 2 ^ 24) s
    let r := s.modDie 0 fun d => { d with withdrawing := [(k, [3, 4])] }
    let h := { s with hot := [(k, (List.range 64).map fun i => (i % 4 * 160, 0))] }
    ((0x1000000000 / 256 : Nat) < 2 ^ 48 ∧ tfind s.l2 k ≠ none ∧ (s.setMates 1 0x1000000000).length < 16) ∧
    ((p.translate 1 0x3000000000).kind = 2 ∧ (p.translate 1 0x3000000000).pte.getLsbD 60 = true ∧ p.pkg ≠ p.pkg + 1 ∧ (s.translate 1 0x3000000000).kind ≠ 2) ∧
    (s.mqTail - s.mqHead ≤ 2048 ∧ s.mqHead ≤ s.mqTail ∧ (s.owed.map (·.1)).Nodup) ∧
    ((r.die 0).withdrawing.find? (·.1 == k) = some (k, [3, 4]) ∧ 64 ≤ (((tget h.hot k []).filter fun e => decide (h.cycle < e.2 + 4096)).map (·.1)).length) ∧
    (s.walk 1 0x3000000000).kind ≠ 2 := by
  decide +kernel

theorem test_witness_LinesAndPages_queue :
    let s := lab id []; let va := 0x3000000000; let q := mqPlace 0; let d := 644 + 4 * (homeStack va / 3)
    let counter := fun (f c : Nat) (s : State) => { s with hbm := s.hbm.putBytes (Claims.recordAt f) (natBytes c 8) }
    let p := opened d 32 q (counter 4096 (255 * 2 ^ 48) (mapped va (15 + 2 ^ 60 + 2 ^ 28) s))
    let o := opened d 32 q (counter 4096 (300 * 2 ^ 48 + 2 ^ 37) { s with owed := [(4096, 1, va)] })
    let m := opened d 32 q { tabled va (entryOf 2 (homeStack va * 2 ^ 36 + 2 ^ 31) ||| 14) s with moves := [(pageKey 1 va, [0, 1, 2])] }
    (((p.translate 1 va).kind = 2 ∧ (p.translate 1 va).pte.getLsbD 60 = true ∧ (p.translate 1 va).pte.getLsbD 61 = false ∧ p.hbm.wf = true ∧
        Claims.frame (p.translate 1 va).pte = 4096 ∧ leWord (p.hbm.bytes (Claims.recordAt 4096) 8) = BitVec.ofNat 64 (255 * 2 ^ 48) ∧ p.conf.migthr = 256 ∧
        p.mqTail = 0 ∧ p.mqHead = 0) ∧ ((p.sliceAsk 1 va).askLeave (.curator (homeStack va / 3)) true q 32).1 = .now) ∧
    ((o.mqTail - o.mqHead ≤ 2048 ∧ (o.owed.filter fun e => homeStack e.2.2 == homeStack va) = [(4096, 1, va)] ∧
        leWord (o.hbm.bytes (Claims.recordAt 4096) 8) = BitVec.ofNat 64 (300 * 2 ^ 48 + 2 ^ 37)) ∧
      (o.askLeave (.curator (homeStack va / 3)) true q 32).1 = .now) ∧
    (((m.walk 1 va).kind = 2 ∧ (m.walk 1 va).pte.getLsbD 61 = false ∧ m.homeOf 1 va = some m.pkg ∧ (m.die 0).skew = [] ∧
        tget m.moves (pageKey 1 va) [] = [0, 1, 2] ∧ (m.die (homeStack va / 3)).dieclk.toNat < 1000000) ∧
      (m.askLeave (.curator (homeStack va / 3)) true q 32).1 = .now) := by
  intro s va q d counter p o m
  obtain ⟨h1, h2, h3⟩ := sliceAsk_leaves p 1 va
  exact ⟨⟨by decide +kernel, leaves_now _ _ _ _ _ (h1 ▸ tget_tput_same _ _ _ _) (h2 ▸ rfl) (h3 ▸ rfl)⟩,
    ⟨by decide +kernel, leaves_now _ _ _ _ _ (tget_tput_same _ _ _ _) rfl rfl⟩,
    ⟨by decide +kernel, leaves_now _ _ _ _ _ (tget_tput_same _ _ _ _) rfl rfl⟩⟩

theorem test_witness_HostAndStart :
    let s := lab id []; let b := { s with boot := { s.boot with stage := 6, done := true } }; let va := 0x3000000000
    let p := { b with wbase := [(0, 0x3000000000)], attrs := [(644, [openAttr 0 va])], tlbs := [(homeStack va, [⟨0, pageClass va, va / 2 ^ pageShift va, 15⟩])] }
    let z := { s with boot := { Boot.reset with stage := 5 }, image := { s.image with good := true }, tardar := { s.tardar with good := true } }
    (tfind p.windows 0 = none ∧ p.boot.done = true ∧ p.checkPages 644 0 false true false 1 va 64 = .ok () ∧ p.checkPages 644 0 true false false 0 va 64 = .ok () ∧
      p.replicatedFrom (.glob 0 va) 64 = false ∧ p.behindSwitch (.glob 0 va) = false ∧ (p.hist.any (·.meets (.glob 0 va) 64)) = false ∧ sectorStarts va 64 = [0] ∧
      p.sectorState (.glob 0 va) = 0) ∧
    (z.boot.stage ≠ 0 ∧ z.boot.done = false ∧ z.boot.fail = false ∧ z.boot.retry = false ∧ ((z.die 0).dieclk - z.boot.since).toNat ≤ 2000000000 ∧
      z.image.good = true ∧ z.rollback ≤ z.image.version ∧ z.tardar.good = true) ∧
    (let u := { b with schedule := [.bar2 0 8 (some 1)] }
     u.schedule = [.bar2 0 8 (some 1)] ∧ u.boot.stage ≠ 0 ∧ u.boot.done = true ∧ u.boot.fail = false ∧ u.hbm.wf = true) :=
  ⟨⟨by decide +kernel, by decide +kernel, passes _ (by decide +kernel), passes _ (by decide +kernel), by decide +kernel, by decide +kernel, by decide +kernel,
    by decide +kernel, by decide +kernel⟩, by decide +kernel, by decide +kernel⟩

/-- A member of a collective, on die d. -/
def member1 (d : Nat) : CollMember where
  die := d
  core := 4
  src := 0x1000000000
  dst := 0x1000000100
  status := 0x1000000200
  wake := 0
  warg := 5
  bitmap := []
  flags := 0
  ended := false

/-- An allgather of dies 0 and 1, with its one chunk in progress at cycle 3. -/
def coll1 : Coll where
  id := 9
  job := 1
  group := 5
  seq := 0
  ranks := [0, 1]
  rg := 1
  links := ([], [0])
  what := ⟨2, 0, 0, 16, none⟩
  members := [member1 0, member1 1]
  keep := [(0, [List.replicate 16 7, []], false)]
  grants := [(0, 0), (1, 1)]
  alternate := false
  retries := 0
  cause := none
  on := true
  acked := []
  flips := []
  since := [(0, 3)]

/-- The machine with that collective. -/
def collective (k : Coll) : State :=
  { lab id [] with
    colls := [k], cycle := 2 ^ 20 + 5
    attrs := [(640, [openAttr 1 0x1000000000])] }

theorem test_witness_Collectives :
    let s := collective coll1
    (s.colls.find? (·.id == 9) = some coll1 ∧ coll1.on = true ∧ coll1.cause = none ∧ (tfind coll1.since 0).isSome = true ∧ 0 ∉ coll1.acked ∧
      coll1.members.find? (·.die == 0) = some (member1 0) ∧ ((s.localRanks coll1).all fun g => coll1.members.any fun x => s.globalDie x.die == g) = true) ∧
    (s.engineCheck 0 1 0x1000000100 64 true = .fine ∧ s.engineCheck 0 1 0x1000000208 1 true = .fine ∧ (coll1.result 0 0 [List.replicate 16 7, []]).1.length = 16) ∧
    (tget coll1.since 0 0 + 2 ^ 20 ≤ s.cycle ∧ coll1.acked.length ≠ coll1.what.chunks 2) ∧
    (s.readSlot 0 = none ∧ (collective { coll1 with grants := [], on := false, since := [] }).waitsAt 0 { coll1 with grants := [], on := false, since := [] } = true) := by
  decide +kernel

theorem test_witness_FabricTraceAndJobs :
    let s := lab id []; let x := s.modDie 0 fun k => { k with tracectl := BitVec.ofNat 64 (2 ^ 63 + 10 * 2 ^ 56), trace := [[1, 2, 3, 4, 5, 6, 7, 8]] }
    let j := { job1 with job := 2, quads := [0], lcn := (quadCores 0).zipIdx.map fun e => (e.1, BitVec.ofNat 16 e.2) }
    let b := { State.reset with boot := { Boot.reset with stage := 6, done := true } }
    (s.links.getLsbD 3 = true ∧ (s.colls.map (·.id)).Nodup) ∧ (((5 - 3 : Word)).toInt + ((4 - 4 : Word)).toInt = 2 * 1) ∧ ((s.die 0).tracing = false ∧ (x.die 0).tracing = true) ∧
    (b.boot.done = true ∧ b.jobGone 2 = true ∧ b.quadsFree j.quads = true ∧ j.quads.Nodup ∧ (j.lcn.map (·.1)).Perm (coresOf j.quads) ∧
      (j.lcn.map fun e => e.2.toNat).Perm (List.range (4 * j.quads.length)) ∧ jobImageFits j = true) ∧ tfind s.jobs 1 ≠ none := by
  decide +kernel

theorem test_witness_DecodeOfEncode : (Instr.ldPrefixed 3 5 1 2 1 17 0x12345).wf = true ∧ isEvent (.ldPrefixed 3 5 1 2 1 17 0x12345) = false := by decide

theorem test_witness_EncodeOfDecode : decodeWord 0x04518700 = .ok (.add 5 6 7) ∧ isPrefix 0xFC000004 = true ∧
    decodePair 0xFC000004 0x20410000 = .ok (.addiPrefixed 4 4 0x10000) :=
  ⟨rfl, rfl, rfl⟩

theorem test_witness_StepRunsDecoded :
    let s := lab id [.add 3 5 6, .addiPrefixed 3 5 7]
    s.schedule = [] ∧ s.boot.fail = false ∧ Claims.free s ∧ (s.task 0).frame = none ∧ isPrefix (asWord ((encodeBytes (.add 3 5 6)).take 4)) = false ∧
    s.fetchWord 0 0x1000000000 = .ok (encodeBytes (.add 3 5 6)) ∧ decodeBytes (encodeBytes (.add 3 5 6)) = .ok (.add 3 5 6, 4) ∧
    s.fetchWord 0 0x1000000004 = .ok ((encodeBytes (.addiPrefixed 3 5 7)).take 4) ∧ s.fetchWord 0 0x1000000008 = .ok ((encodeBytes (.addiPrefixed 3 5 7)).drop 4) := by
  refine ⟨by decide +kernel, by decide +kernel, ?_, by decide +kernel, by decide +kernel, ok_eq _ _ (by decide +kernel), ok_eq _ _ (by decide +kernel),
    ok_eq _ _ (by decide +kernel), ok_eq _ _ (by decide +kernel)⟩
  unfold Claims.free
  decide +kernel

theorem test_witness_IllegalWords :
    let s := (lab id []).placeCode (natBytes 0 4)
    s.fetch 0 0x1000000000 = .ok (.bad 0 false) ∧ (s.task 0).halt = none ∧ (s.task 0).here = 0x1000000000 ∧ fld (0 : Half32) 26 6 = 0 ∧ fld (0xFC000000 : Half32) 26 6 = 0x3F :=
  ⟨ok_eq _ _ (by decide +kernel), by decide +kernel, by decide +kernel, by decide, by decide⟩

/-- Whether a step gives a next state. -/
def next? (o : Host.Outcome State Fault Refusal) : Bool :=
  match o with
  | .next _ => true
  | _ => false

theorem test_witness_StepKeepsMemories : Claims.memoriesOk State.reset ∧ ∃ t, step State.reset = .next t := by
  refine ⟨⟨?_, by decide +kernel, ?_, ?_⟩, ?_⟩
  · intro _ _ h; cases h
  · intro _ _ h; cases h
  · intro _ _ h; cases h
  · have g : next? (step State.reset) = true := by decide +kernel
    cases h : step State.reset with
    | next t => exact ⟨t, rfl⟩
    | fault f => rw [h] at g; cases g
    | refused r => rw [h] at g; cases g

theorem test_witness_DivisionResults : let s := lab (regs [(7, 2 ^ 63), (8, 2 ^ 64 - 1)]) []
    (Claims.reg s 7).toInt = -2 ^ 63 ∧ (Claims.reg s 8).toInt = -1 ∧ Claims.reg s 9 = 0 ∧ Claims.reg s 8 ≠ 0 := by
  decide +kernel

theorem test_witness_CompareAndSelect : Claims.holds 2 (BitVec.ofInt 64 (-1)) 0 ∧ ¬Claims.holds 4 (BitVec.ofInt 64 (-1)) 0 ∧
    fld (0x1400000A : Half32) 26 6 = 0x05 ∧ fld (0x1400000A : Half32) 4 4 = 0 ∧ 10 ≤ (fld (0x1400000A : Half32) 0 4).toNat := by
  unfold Claims.holds
  decide

theorem test_witness_FatPointers : let s := lab (regs [(7, 2 ^ 56 - 1), (8, 2 ^ 64 - 1)]) []
    let t := fun (a b : Gpr) => ((Claims.reg s a).toNat % 2 ^ 56 : Nat) + (Claims.reg s b).toInt
    0 ≤ t 7 8 ∧ t 7 8 < 2 ^ 56 ∧ 2 ^ 56 ≤ t 7 6 ∧ t 9 8 < 0 := by
  decide +kernel

theorem test_witness_ShortInstructionsComplete :
    let s := lab id []; let y := (lab buffering []).task 0; let u := s.modCore 0 fun k => { k with xbar := { k.xbar with counters := vput k.xbar.counters 3 5 } }
    (Claims.direct (s.task 0) ∧ (s.task 0).guarded = false) ∧ (y.guarded = false ∧ y.buffers = true ∧ y.shadow = []) ∧
    (vget (u.core 0).xbar.counters ((Claims.reg u 6).toNat % 16) 0 ≠ 0 ∧ (∀ w ∈ (u.core 0).xbar.waiters, w.2 = 3 → w.1 = u.focus) ∧
      (u.core 0).gatesWant 3 = false ∧ (u.task 0).life = .running) ∧ (3 : Gpr).toNat ≤ 30 ∧ (3 : Nat) % 8 ≤ 5 := by
  unfold Claims.direct
  decide +kernel

end Sys2Proof.Tests
end

section
/-! SUPPORT. Reset: what each unit of the machine holds, and the proof of the obligation about it (R8, R116, R231, R256, R262). -/

namespace Sys2Proof.Machine

/-! ### Every unit is at its Reset value

The tables of `State.reset` are empty, so each accessor gives its default. -/

@[simp] theorem State.task_reset (t : Nat) : State.reset.task t = Task.empty := rfl
@[simp] theorem State.core_reset (c : Nat) : State.reset.core c = Core.reset := rfl
@[simp] theorem State.quad_reset (q : Nat) : State.reset.quad q = Quad.reset := rfl
@[simp] theorem State.die_reset (d : Nat) : State.reset.die d = Die.reset := rfl

/-! ### The banks -/

/-- The value of a BANKMAP that holds these bank types, from bank 0 up: two bits a bank (R116). -/
def packBanks : List Nat → Nat
  | [] => 0
  | k :: r => k + 4 * packBanks r

/-- The two bits of bank b give its type back. -/
theorem packBanks_type {l : List Nat} (hl : ∀ k ∈ l, k < 4) (b : Nat) : packBanks l / 4 ^ b % 4 = l.getD b 0 := by
  induction l generalizing b with
  | nil => simp only [packBanks, Nat.zero_div, Nat.zero_mod, List.getD_nil]
  | cons k r ih =>
    have hk : k < 4 := hl k List.mem_cons_self
    rw [packBanks]
    cases b with
    | zero =>
      rw [Nat.pow_zero, Nat.div_one, List.getD_cons_zero]
      omega
    | succ b =>
      have tail : (k + 4 * packBanks r) / 4 = packBanks r := by omega
      rw [Nat.pow_succ', ← Nat.div_div_eq_div_mul, tail, List.getD_cons_succ]
      exact ih (fun j hj => hl j (List.mem_cons_of_mem k hj)) b

/-- The bank types at reset, from bank 0 up (R116). -/
def bankTypesReset : List Nat :=
  List.replicate 256 0 ++ (List.replicate 64 1 ++ (List.replicate 32 2 ++ (List.replicate 32 3 ++ [])))

theorem bankmapReset_toNat : bankmapReset.toNat = packBanks bankTypesReset := by decide +kernel

theorem bankTypesReset_lt : ∀ k ∈ bankTypesReset, k < 4 := by
  intro k hk
  simp only [bankTypesReset, List.mem_append, List.mem_replicate, List.not_mem_nil, or_false] at hk
  omega

/-- Reading a list that begins with a run of n equal entries. -/
theorem getD_replicate_append {α : Type} (n : Nat) (x d : α) (l : List α) (i : Nat) :
    (List.replicate n x ++ l).getD i d = if i < n then x else l.getD (i - n) d := by
  simp only [List.getD_eq_getElem?_getD, List.getElem?_append, List.length_replicate, List.getElem?_replicate]
  by_cases h : i < n
  · simp only [if_pos h, Option.getD_some]
  · simp only [if_neg h]

theorem bankTypesReset_getD {b : Nat} (hb : b < 384) :
    bankTypesReset.getD b 0 = if b < 256 then 0 else if b < 320 then 1 else if b < 352 then 2 else 3 := by
  simp only [bankTypesReset, getD_replicate_append]
  (repeat' split) <;> omega

theorem bankmapReset_type {b : Nat} (hb : b < 384) :
    bankmapReset.toNat / 4 ^ b % 4 = if b < 256 then 0 else if b < 320 then 1 else if b < 352 then 2 else 3 := by
  rw [bankmapReset_toNat, packBanks_type bankTypesReset_lt, bankTypesReset_getD hb]

/-! ### The vectors of a unit -/

@[simp] theorem Core.reset_ring (e : Nat) (h : e < 32) : Core.reset.rings[e] = none := Vector.getElem_replicate h
@[simp] theorem Crossbar.reset_term (n : Nat) (h : n < 32) : Crossbar.reset.terms[n] = ⟨0, false, 0, false, 0⟩ :=
  Vector.getElem_replicate h
@[simp] theorem Crossbar.reset_counter (n : Nat) (h : n < 16) : Crossbar.reset.counters[n] = 0 := Vector.getElem_replicate h
@[simp] theorem Crossbar.reset_cross (n : Nat) (h : n < 8) : Crossbar.reset.cross[n] = 0 := Vector.getElem_replicate h
@[simp] theorem Quad.reset_guard (e : Nat) (h : e < 4) : Quad.reset.guards[e] = none := Vector.getElem_replicate h
@[simp] theorem Quad.reset_cas (e : Nat) (h : e < 16) : Quad.reset.cas[e] = none := Vector.getElem_replicate h

/-! ### The obligation -/

/-- Settles O57, unit by unit: every register is read off its unit's Reset value, and BANKMAP by its base-4 digits. -/
theorem reset : Obligations.Reset := by
  unfold Obligations.Reset
  refine ⟨fun c b => ?core, fun q => ?quad, fun d => ?die, State.task_reset, ?registers⟩
  case core =>
    rw [State.core_reset]
    exact ⟨rfl, Core.reset_ring, rfl, rfl, rfl, rfl, Crossbar.reset_term, Crossbar.reset_counter, rfl, rfl, rfl, rfl,
      Crossbar.reset_cross, bankmapReset_type⟩
  case quad =>
    rw [State.quad_reset]
    exact ⟨rfl, rfl, Quad.reset_guard, Quad.reset_cas⟩
  case die =>
    rw [State.die_reset]
    exact ⟨rfl, rfl, rfl, rfl, rfl⟩
  case registers => exact ⟨rfl, rfl, rfl, rfl, rfl, rfl, rfl, rfl, rfl, rfl, rfl, rfl⟩

end Sys2Proof.Machine
end

section
/-! SUPPORT. The registers of a task and the short instructions: what `mfc` and `mtc` read and write, what a wake-up leaves of a task, and the proofs
of the obligations about them (R13, R15, R47, R73, R98, R100-R102). -/

namespace Sys2Proof.Machine

/-! ### Tables and bit strings -/

/-- An entry of a table whose entries were all changed in place. -/
theorem tfind_map {α β : Type} (t : Tbl α) (f : Nat → α → β) (n : Nat) :
    tfind (t.map fun e => (e.1, f e.1 e.2)) n = (tfind t n).map (f n) := by
  induction t with
  | nil => rfl
  | cons e r ih =>
    obtain ⟨k, v⟩ := e
    by_cases h : k = n
    · subst h; simp [tfind]
    · simp [tfind, h, ih]

/-- An entry of a table whose entries were all changed in place, where the change keeps the default. -/
theorem tget_map {α : Type} (t : Tbl α) (f : Nat → α → α) (n : Nat) (d : α) (h : f n d = d) :
    tget (t.map fun e => (e.1, f e.1 e.2)) n d = f n (tget t n d) := by
  rw [tget, tget, tfind_map]
  cases tfind t n with
  | none => exact h.symm
  | some v => rfl

theorem bitsNat_lt (l : List Bool) : bitsNat l < 2 ^ l.length := by
  induction l with
  | nil => exact Nat.one_pos
  | cons b r ih => cases b <;> simp only [bitsNat, List.length_cons, Nat.pow_succ] <;> simp only [if_true, Bool.false_eq_true, if_false] <;> omega

/-- Bit i of a number made of bits is bit i of the list. -/
theorem testBit_bitsNat (l : List Bool) (i : Nat) : (bitsNat l).testBit i = (l[i]?).getD false := by
  induction l generalizing i with
  | nil => simp [bitsNat]
  | cons b r ih =>
    have hb : (if b then 1 else 0) < 2 ^ 1 := by cases b <;> decide
    rw [bitsNat, Nat.add_comm, ← Nat.pow_one 2, Nat.testBit_two_pow_mul_add _ hb]
    cases i with
    | zero => cases b <;> rfl
    | succ i => simp [ih]

/-- A number with a part of b bits below another one: the low bits are the part's, the others the other's. -/
theorem getLsbD_ofNat_mul_add {w k a b i : Nat} (h : b < 2 ^ k) (hi : i < w) :
    (BitVec.ofNat w (2 ^ k * a + b)).getLsbD i = if i < k then b.testBit i else a.testBit (i - k) := by
  rw [BitVec.getLsbD_ofNat, Nat.testBit_two_pow_mul_add _ h]
  simp [hi]

/-! ### The end of an instruction -/

/-- The claims read a scalar register as the model does. -/
@[simp] theorem reg_eq (s : State) (r : Gpr) : Claims.reg s r = (s.task s.focus).getG r := rfl

/-- Completion of an instruction of n bytes that has done nothing else. -/
theorem retire_eq_passed (s : State) (n : Nat) : s.retire n = Claims.passed s n := rfl

/-- The context in focus after an instruction that completes. -/
theorem Claims.task_passed (s : State) (n : Nat) {f : Nat} (h : s.focus = f) : (Claims.passed s n).task f = Task.next n (s.task f) := by
  subst h
  exact State.task_setTask s _ _

/-- Completion of an instruction of n bytes that has written one scalar register. -/
theorem setG_retire_eq_wrote (s : State) (d : Gpr) (v : Word) (n : Nat) : (s.setG d v).retire n = Claims.wrote s d v n := by
  have h : (s.task s.focus).setG d v = { s.task s.focus with g := if d = 0 then (s.task s.focus).g else (s.task s.focus).g.set d.toNat v } := by
    unfold Task.setG
    split <;> rfl
  rw [State.setG_eq, State.retire_eq]
  rw [show (s.setTask s.focus ((s.task s.focus).setG d v)).focus = s.focus from rfl, State.task_setTask, State.setTask_setTask, h]
  rfl

/-- ILLEGAL is a trap with cause 1, SUB 0 and the word in TRAPVAL at the instruction at hand (R74). -/
theorem takeExit_illegal (s : State) (i : Instr) : s.takeExit (illegal i) = s.trapAt s.me.here 1 0 (wordOf i) none := rfl

/-- The PC after an instruction depends on the PC, the frame and the length only (R59, R77). -/
theorem Task.next_pc_congr {x y : Task} (n : Nat) (hpc : y.pc = x.pc) (hf : y.frame = x.frame) : (Task.next n y).pc = (Task.next n x).pc := by
  simp only [Task.next, Task.here, Task.leaveBars, hpc, hf]
  cases x.frame with
  | none => rfl
  | some f =>
    dsimp only
    split
    · rfl
    · split <;> rfl

/-! ### Wake-ups -/

/-- A wake-up changes a task's life at most. -/
theorem Task.wake_eq (w : WaitReason) (x : Task) : x.wake w = { x with life := (x.wake w).life } := by
  unfold Task.wake
  split <;> rfl

/-- What a wake-up makes of a context. -/
theorem State.task_wakeWhere (s : State) (w : WaitReason) (p : Nat → Task → Bool) (n : Nat) :
    (s.wakeWhere w p).task n = if p n (s.task n) then (s.task n).wake w else s.task n := by
  have entry : (s.wakeWhere w p).tasks = s.tasks.map fun e => (e.1, if p e.1 e.2 then e.2.wake w else e.2) :=
    List.map_congr_left fun e _ => by split <;> rfl
  rw [State.task, entry]
  exact tget_map s.tasks (fun k x => if p k x then x.wake w else x) n Task.empty (by simp [Task.wake, Task.empty])

/-- A wake-up of the tasks in `wait` changes each context's life at most. -/
theorem State.task_wakeWaiters (s : State) (c n : Nat) :
    (s.wakeWaiters c).task n = { s.task n with life := ((s.wakeWaiters c).task n).life } := by
  rw [State.wakeWaiters, State.task_wakeWhere]
  split
  · exact Task.wake_eq _ _
  · rfl

/-! ### Control registers -/

theorem exec_mfc (d b : Gpr) (s : State) : exec (.mfc d b) s = execMfc d b s := rfl
theorem exec_mtc (a b : Gpr) (s : State) : exec (.mtc a b) s = execMtc a b s := rfl

/-- `mfc` of a number that names a register gives D its value. -/
theorem mfc_of_readCr {s : State} {n : Gpr} {v : Word} (d : Gpr) (h : s.readCr n.toNat = some v) :
    exec (.mfc d n) s = .next (Claims.wrote s d v 4) := by
  rw [exec_mfc, execMfc, h]
  exact congrArg Host.Outcome.next (setG_retire_eq_wrote s d v 4)

/-- `mfc` of any other number is ILLEGAL. -/
theorem mfc_of_readCr_none {s : State} {n : Gpr} (d : Gpr) (h : s.readCr n.toNat = none) : Claims.traps (.mfc d n) s 1 0 (wordOf (.mfc d n)) none := by
  rw [Claims.traps, exec_mfc, execMfc, h]
  exact congrArg Host.Outcome.next (takeExit_illegal s _)

/-- `mtc` of a register a task may write completes in the state with the register written. -/
theorem mtc_of_writeCr {s t : State} {a n : Gpr} (h : s.writeCr n.toNat (Claims.reg s a) = some t) : exec (.mtc a n) s = .next (Claims.passed t 4) := by
  rw [exec_mtc, execMtc, State.g_eq, ← reg_eq, h]
  rfl

/-- `mtc` of any other number, or of a value the register does not take, is ILLEGAL. -/
theorem mtc_of_writeCr_none {s : State} {a n : Gpr} (h : s.writeCr n.toNat (Claims.reg s a) = none) :
    Claims.traps (.mtc a n) s 1 0 (wordOf (.mtc a n)) none := by
  rw [Claims.traps, exec_mtc, execMtc, State.g_eq, ← reg_eq, h]
  exact congrArg Host.Outcome.next (takeExit_illegal s _)

/-- `mtc` of a register of the context itself changes the context only. -/
theorem mtc_of_writeCr_task {s : State} {a n : Gpr} {y : Task} (h : s.writeCr n.toNat (Claims.reg s a) = some (s.setTask s.focus y)) :
    exec (.mtc a n) s = .next { s with tasks := tput s.tasks s.focus (Task.next 4 y) } := by
  rw [mtc_of_writeCr h]
  simp only [Claims.passed, State.setTask_tasks, tput_tput, show (s.setTask s.focus y).focus = s.focus from rfl, State.task_setTask]
  rfl

/-- 15 and the numbers from 31 on name no register (R73), 16 to 23 the watermark registers (R206). -/
theorem readCr_other (s : State) {n : Nat} (h : n = 15 ∨ (16 ≤ n ∧ n ≤ 23) ∨ 31 ≤ n) :
    s.readCr n = if 16 ≤ n ∧ n ≤ 23 then some (vget (s.core (coreOf s.focus)).slots (n - 16) CopySlot.reset).wmk.word else none := by
  rw [State.readCr.eq_23]
  case _ => rfl
  all_goals omega

theorem readCr_wmk (s : State) {n : Nat} (h1 : 16 ≤ n) (h2 : n ≤ 23) :
    s.readCr n = some (vget (s.core (coreOf s.focus)).slots (n - 16) CopySlot.reset).wmk.word := by
  rw [readCr_other s (.inr (.inl ⟨h1, h2⟩)), if_pos ⟨h1, h2⟩]

theorem readCr_unlisted (s : State) {n : Nat} (h : n = 15 ∨ 31 ≤ n) : s.readCr n = none := by
  rw [readCr_other s (h.imp_right .inr), if_neg (by omega)]

/-- Every other number names one. -/
theorem readCr_listed (s : State) {n : Nat} (h : n ≤ 30) (h15 : n ≠ 15) : ∃ v, s.readCr n = some v := by
  by_cases hw : 16 ≤ n ∧ n ≤ 23
  · exact ⟨_, readCr_wmk s hw.1 hw.2⟩
  · have hn : n = 0 ∨ n = 1 ∨ n = 2 ∨ n = 3 ∨ n = 4 ∨ n = 5 ∨ n = 6 ∨ n = 7 ∨ n = 8 ∨ n = 9 ∨ n = 10 ∨ n = 11 ∨ n = 12 ∨ n = 13 ∨ n = 14 ∨ n = 24 ∨ n = 25 ∨ n = 26 ∨ n = 27 ∨ n = 28 ∨ n = 29 ∨ n = 30 := by omega
    rcases hn with rfl | rfl | rfl | rfl | rfl | rfl | rfl | rfl | rfl | rfl | rfl | rfl | rfl | rfl | rfl | rfl | rfl | rfl | rfl | rfl | rfl | rfl
    all_goals exact ⟨_, rfl⟩

/-- The numbers of the registers that a task may not write (R15). -/
theorem writeCr_readOnly (s : State) (v : Word) {n : Nat} (h : n ≤ 2 ∨ (7 ≤ n ∧ n ≤ 12) ∨ (15 ≤ n ∧ n ≤ 23) ∨ 28 ≤ n) : s.writeCr n v = none := by
  rw [State.writeCr.eq_11]
  all_goals omega

/-- The numbers of the registers that a task may write: none of them is the PC, the frame or a scalar register (R15, R47). -/
theorem writeCr_writable (s : State) (v : Word) {n : Nat} (h : n = 4 ∨ n = 5 ∨ n = 6 ∨ n = 13 ∨ n = 14 ∨ (24 ≤ n ∧ n ≤ 27) ∨ (n = 3 ∧ bits v 0 3 ≤ 5)) :
    ∃ t, s.writeCr n v = some t ∧ t.focus = s.focus ∧ (t.task s.focus).pc = (s.task s.focus).pc ∧ (t.task s.focus).frame = (s.task s.focus).frame ∧
      (t.task s.focus).g = (s.task s.focus).g := by
  rcases h with rfl | rfl | rfl | rfl | rfl | ⟨h1, h2⟩ | ⟨rfl, h⟩
  case inr.inr.inr.inr.inr.inl =>
    have hn : n = 24 ∨ n = 25 ∨ n = 26 ∨ n = 27 := by omega
    rcases hn with rfl | rfl | rfl | rfl
    all_goals exact ⟨_, rfl, rfl, by simp, by simp, by simp⟩
  case inr.inr.inr.inr.inr.inr => exact ⟨_, if_pos h, rfl, by simp, by simp, by simp⟩
  all_goals exact ⟨_, rfl, rfl, by simp, by simp, by simp⟩

/-- The three low bits of a word. -/
theorem bits_zero_three (v : Word) : bits v 0 3 = v.toNat % 8 := by simp [bits]

theorem extractLsb'_zero (v : Word) (n : Nat) : v.extractLsb' 0 n = BitVec.ofNat n v.toNat := by
  apply BitVec.eq_of_toNat_eq
  simp

/-- EVCFG: OVF in [63:48], the EN bits of the terms from bit 0 on (R231). -/
theorem Crossbar.evcfg_fields (x : Crossbar) :
    x.evcfg.toNat / 2 ^ 48 = x.ovf.toNat ∧ ∀ i, i < 32 → x.evcfg.getLsbD i = (vget x.terms i ⟨0, false, 0, false, 0⟩).en := by
  have hb : bitsNat (x.terms.toList.map (·.en)) < 2 ^ 32 := by simpa using bitsNat_lt (x.terms.toList.map (·.en))
  have ho : x.ovf.toNat < 2 ^ 16 := x.ovf.isLt
  have hv : x.evcfg = BitVec.ofNat 64 (2 ^ 48 * x.ovf.toNat + bitsNat (x.terms.toList.map (·.en))) := by rw [Crossbar.evcfg, Nat.mul_comm]
  refine ⟨?ovf, fun i hi => ?en⟩
  case ovf =>
    rw [hv, BitVec.toNat_ofNat]
    omega
  case en =>
    rw [hv, getLsbD_ofNat_mul_add (by omega) (by omega), if_pos (by omega), testBit_bitsNat]
    simp [vget, hi]

/-- A watermark register: ADDR in [55:0], the five flags from bit 59 on (R206). -/
theorem WmkReg.word_eq (w : WmkReg) : w.word = BitVec.ofNat 64 (2 ^ 59 * bitsNat [w.strm, w.abt, w.uno, w.frz, w.act] + w.addr.toNat) := by
  obtain ⟨act, frz, uno, abt, strm, addr⟩ := w
  rw [WmkReg.word]
  congr 1
  simp only [bitsNat]
  cases act <;> cases frz <;> cases uno <;> cases abt <;> cases strm <;> simp

theorem WmkReg.word_fields (w : WmkReg) :
    w.word.toNat % 2 ^ 56 = w.addr.toNat ∧ w.word.getLsbD 63 = w.act ∧ w.word.getLsbD 62 = w.frz ∧ w.word.getLsbD 61 = w.uno ∧
      w.word.getLsbD 60 = w.abt ∧ w.word.getLsbD 59 = w.strm := by
  have ha : w.addr.toNat < 2 ^ 56 := w.addr.isLt
  have flag : ∀ i, i < 5 → w.word.getLsbD (59 + i) = ([w.strm, w.abt, w.uno, w.frz, w.act][i]?).getD false := fun i hi => by
    rw [WmkReg.word_eq, getLsbD_ofNat_mul_add (by omega) (by omega), if_neg (by omega), Nat.add_sub_cancel_left, testBit_bitsNat]
  refine ⟨?addr, flag 4 (by decide), flag 3 (by decide), flag 2 (by decide), flag 1 (by decide), flag 0 (by decide)⟩
  rw [WmkReg.word_eq, BitVec.toNat_ofNat]
  omega

/-! ### The short instructions -/

theorem exec_nop (s : State) : exec .nop s = execNop s := rfl
theorem exec_yield (s : State) : exec .yield s = execYield s := rfl
theorem exec_endTask (s : State) : exec .endTask s = execEndTask s := rfl
theorem exec_commit (s : State) : exec .commit s = execCommit s := rfl
theorem exec_wait (d a : Gpr) (s : State) : exec (.wait d a) s = execWait d a s := rfl

/-- A task that has come to its end is Retired, and how it ended is noted (R102, R109). -/
theorem State.task_endTask (s : State) (t how mark : Nat) : ((s.endTask t how mark).task t).life = .retired ∧ ((s.endTask t how mark).task t).how = how ∧
    ((s.endTask t how mark).task t).frame = none := by
  rw [State.endTask, State.modTask_eq, State.task_setTask]
  exact ⟨rfl, rfl, rfl⟩

/-- A commit of a task that does not buffer and has nothing left of its buffer changes nothing (R101). -/
theorem commitNow_direct {s : State} {t : Nat} (hb : (s.task t).buffers = false) (hs : (s.task t).shadow = []) : s.commitNow t = (true, s) := by
  simp [State.commitNow, hb, hs, State.commitSome]

/-- A commit of an empty buffer marks the task committed and is done (R101). -/
theorem commitNow_empty {s : State} {t : Nat} (hb : (s.task t).buffers = true) (hs : (s.task t).shadow = []) :
    s.commitNow t = (true, s.setTask t { s.task t with committed := true, shadowUsed := 0 }) := by
  simp [State.commitNow, hb, hs, State.commitSome]

/-- A commit that is done completes its instruction in what it leaves (R101). -/
theorem exec_commit_done {s u : State} (hg : (s.task s.focus).guarded = false) (h : s.commitNow s.focus = (true, u)) :
    exec .commit s = .next (Claims.passed u 4) := by
  rw [exec_commit, execCommit, State.irrevocable, State.me_eq, hg, h]
  rfl

/-- A counter that is not 0 serves a task where no other task waits on it (R98). -/
theorem Crossbar.serves_of {x : Crossbar} {t n : Nat} (hc : vget x.counters n 0 ≠ 0) (hw : ∀ w ∈ x.waiters, w.2 = n → w.1 = t) : x.serves t n = true := by
  have first : ((x.waiters.filter (·.2 == n)).head?).all (·.1 == t) = true := by
    rw [Option.all_eq_true]
    intro w h
    obtain ⟨hm, hn⟩ := List.mem_filter.mp (List.mem_of_mem_head? h)
    simpa using hw w hm (by simpa using hn)
  simpa only [Crossbar.serves, first, Bool.and_true, bne_iff_ne] using hc

/-- A scalar register written, the instruction over, tasks in `wait` woken: of the context in focus the wake-up changes the life at most. -/
theorem State.task_setG_retire_wakeWaiters (u : State) (d : Gpr) (v : Word) (c : Nat) :
    ∃ l, (((u.setG d v).retire 4).wakeWaiters c).task u.focus = { Task.next 4 ((u.task u.focus).setG d v) with life := l } := by
  have h : ((u.setG d v).retire 4).task u.focus = Task.next 4 ((u.task u.focus).setG d v) := by
    rw [State.setG_eq, State.retire_eq]
    exact (State.task_setTask _ _ _).trans (congrArg (Task.next 4) (State.task_setTask _ _ _))
  exact ⟨_, by rw [State.task_wakeWaiters, h]⟩

/-- `wait` on a counter that serves the task takes it down by 1, gives D its value before and completes; of the contexts it may wake, the lives change at most (R98). -/
theorem exec_wait_served {s : State} {d a : Gpr} (hs : (s.core (coreOf s.focus)).xbar.serves s.focus ((Claims.reg s a).toNat % 16) = true)
    (hg : (s.core (coreOf s.focus)).gatesWant ((Claims.reg s a).toNat % 16) = false) :
    ∃ t l, exec (.wait d a) s = .next t ∧ t.task s.focus = { Task.next 4 ((s.task s.focus).setG d
      ((vget (s.core (coreOf s.focus)).xbar.counters ((Claims.reg s a).toNat % 16) 0).setWidth 64)) with life := l } := by
  have hn : bits (s.g a) 0 4 = (Claims.reg s a).toNat % 16 := by simp [bits]
  rw [exec_wait, execWait, hn, State.myCore_eq, hs, hg]
  obtain ⟨l, hl⟩ := State.task_setG_retire_wakeWaiters (s.modCore (coreOf s.focus) fun c => { c with xbar := { c.xbar.leave s.focus with
    counters := vput c.xbar.counters ((Claims.reg s a).toNat % 16) (vget (s.core (coreOf s.focus)).xbar.counters ((Claims.reg s a).toNat % 16) 0 - 1) } })
    d ((vget (s.core (coreOf s.focus)).xbar.counters ((Claims.reg s a).toNat % 16) 0).setWidth 64) (coreOf s.focus)
  exact ⟨_, l, if_pos rfl, hl⟩

/-! ### The obligations -/

/-- Settles O8, by the laws of the accessors: a read after a write of the same register and of another. -/
theorem registerReads : Obligations.RegisterReads := by
  unfold Obligations.RegisterReads
  intro x d r kd k vd v w m u
  exact ⟨Task.getG_zero x, Task.setG_zero x w, Task.getG_setG_same x w, Task.getG_setG_ne x w, Task.getK_zero x, Task.setK_zero x m,
    Task.getK_setK_same x m, Task.getK_setK_ne x m, Task.getV_setV_same x vd u, Task.getV_setV_ne x u⟩

/-- What `mfc` reads, number by number (R15, R73). -/
theorem crReads : Claims.crReads := by
  unfold Claims.crReads
  intro s d
  dsimp only
  have reads {n : Gpr} {v : Word} : s.readCr n.toNat = some v → exec (.mfc d n) s = .next (Claims.wrote s d v 4) := mfc_of_readCr d
  refine ⟨reads rfl, reads rfl, reads rfl, reads rfl, reads rfl, reads rfl, reads rfl, reads ?hasD, reads rfl, reads rfl, reads rfl, reads rfl,
    reads rfl, reads rfl, reads rfl, reads rfl, reads rfl, reads rfl, reads rfl, reads rfl, reads rfl, ⟨_, reads rfl, ?evcfg⟩, ?wmk, ?unlisted⟩
  case hasD => show some (if hasD s.myCore then 1 else 0) = _; simp [hasD]
  case evcfg => exact Crossbar.evcfg_fields _
  case wmk =>
    intro n h1 h2
    exact ⟨_, reads (readCr_wmk s h1 h2), WmkReg.word_fields _⟩
  case unlisted =>
    intro n h
    exact mfc_of_readCr_none d (readCr_unlisted s (h.imp_left fun e => by rw [e]; rfl))

/-- What `mtc` writes, number by number (R15, R47, R73). -/
theorem crWrites : Claims.crWrites := by
  unfold Claims.crWrites
  intro s a
  dsimp only
  have low (n : Nat) : BitVec.ofNat n (Claims.reg s a).toNat = (Claims.reg s a).extractLsb' 0 n := (extractLsb'_zero _ n).symm
  have writes {n : Gpr} {y : Task} : s.writeCr n.toNat (Claims.reg s a) = some (s.setTask s.focus y) →
    exec (.mtc a n) s = .next { s with tasks := tput s.tasks s.focus (Task.next 4 y) } := mtc_of_writeCr_task
  simp only [low]
  refine ⟨fun h => writes ?round, fun h => mtc_of_writeCr_none ?badRound, writes rfl, writes rfl, writes rfl, writes rfl,
    ⟨_, mtc_of_writeCr rfl, rfl, rfl, ?qflags⟩, ⟨_, mtc_of_writeCr rfl, rfl, rfl, ?dflags⟩, writes rfl, writes rfl, writes rfl, ?readOnly⟩
  case round => exact if_pos (by rw [bits_zero_three]; exact h)
  case badRound => exact if_neg (by rw [bits_zero_three]; omega)
  case qflags => exact congrArg Quad.qflags (State.quad_modQuad s _ _)
  case dflags => exact congrArg Die.dflags (State.die_modDie s _ _)
  case readOnly =>
    intro n h
    exact mtc_of_writeCr_none (writeCr_readOnly s _ h)

/-- Settles O9: each number by the equation of its register, the others by the trap of R74. -/
theorem controlRegisters : Obligations.ControlRegisters := ⟨crReads, crWrites⟩

/-- Settles O22, instruction by instruction: the number `mfc` and `mtc` name has an equation in the tables above, `commit` is done at once, and `wait` is
served. -/
theorem shortInstructionsComplete : Obligations.ShortInstructionsComplete := by
  unfold Obligations.ShortInstructionsComplete
  intro s d a n
  dsimp only
  refine ⟨rfl, ⟨_, exec_yield s, ?yieldPc, ?yieldG, rfl⟩, ?endTask, fun hg hd => exec_commit_done hg (commitNow_direct hd.1 hd.2),
    fun hg hb hs => ⟨_, exec_commit_done hg (commitNow_empty hb hs), ?commit⟩, fun hc hw hg _ => ?wait, fun h h15 => ?mfc, fun h => ?mtc⟩
  case yieldPc => simp
  case yieldG => simp
  case endTask =>
    obtain ⟨hl, hh, -⟩ := State.task_endTask s s.focus 0 (match s.me.guard with | some (_, _, _, .check) => 2 | _ => 1)
    exact ⟨_, exec_endTask s, hl, hh⟩
  case commit =>
    rw [Claims.task_passed (f := s.focus) (s.setTask s.focus _) 4 rfl, Task.next_committed, State.task_setTask]
    exact ⟨rfl, Task.next_pc_congr 4 rfl rfl⟩
  case wait =>
    obtain ⟨t, l, ht, hx⟩ := exec_wait_served (d := d) (Crossbar.serves_of hc hw) hg
    refine ⟨t, ht, ?_, fun hd => ?_⟩
    · rw [hx]
      exact Task.next_pc_congr 4 (Task.setG_pc _ _ _) (Task.setG_frame _ _ _)
    · rw [hx]
      exact (Task.next_getG 4 _ d).trans (Task.getG_setG_same _ _ hd)
  case mfc =>
    obtain ⟨v, hv⟩ := readCr_listed s h (fun e => h15 (BitVec.eq_of_toNat_eq e))
    exact ⟨v, mfc_of_readCr d hv⟩
  case mtc =>
    obtain ⟨t, ht, hf, hpc, hfr, hg⟩ := writeCr_writable s (Claims.reg s a) (n := n.toNat)
      (by rw [bits_zero_three]; simp only [← BitVec.toNat_inj] at h; exact h)
    refine ⟨_, mtc_of_writeCr ht, ?_, ?_⟩
    · rw [Claims.task_passed t 4 hf]
      exact Task.next_pc_congr 4 hpc hfr
    · rw [Claims.task_passed t 4 hf, Task.next_g, hg]

end Sys2Proof.Machine
end

section
/-! SUPPORT. Why a statement about restored tasks fails: a stream that a halt has saved claims a slot in the very step that restores its task (R220), so the
context is not the saved one (R292, R303). -/

namespace Sys2Proof.Machine

/-- RESTORE of a task of no team, where its needs are met and nothing goes before it, brings its context in (R292, R303). -/
theorem exec_restore_swapIn {s : State} {n t : Nat} (base : Nat) {w : Swap} (hw : s.swaps[n]? = some w) (ht : w.team = none)
    (hok : w.task.life ≠ .retired ∧ t < 10240 ∧ s.placeFree t base w.task.leaseCls w.task.shadowKiB = true ∧ (s.core (coreOf t)).job = some w.task.job)
    (hfirst : s.swapAhead n w = false ∧ s.nothingBelow [coreOf t] w.task.cls.toNat = true) (hq : quadOf (coreOf t) = quadOf w.core)
    (hr : s.taskReturns w (coreOf t) = true) : exec (.restore n t base) s = .next (s.swapIn n w t base) := by
  obtain ⟨hl, hb, hp, hj⟩ := hok
  obtain ⟨ha, hn⟩ := hfirst
  show execRestore n t base s = _
  simp [execRestore, hw, ht, hl, hb, hp, hj, ha, hn, hq, hr]

/-! ### The counterexample -/

/-- A stream's copy as a halt has saved it: one run of 64 bytes, none of it landed (R219, R220). -/
def savedStreamCopy : Copy where
  ident := 65536
  tid := 5
  job := 0
  asid := 0
  src := 0
  dst := 0
  sfmt := (2, 0)
  dfmt := (2, 0)
  conv := false
  ssp := 1
  dsp := 1
  scoord := 0
  dcoord := 0
  pat := ⟨64, 0, []⟩
  rnd := ⟨0, 0, 0, 0⟩
  flags := 0
  dlo := 0
  dhi := 0
  ordered := true
  landed := 0
  ahead := []
  cache := none
  frozen := none
  aborting := false
  gated := false
  requested := true
  order := 0
  mword := none
  multi := none
  ring := none
  stream := some 2
  batch := 0

/-- A swapped task of no team and no port, halted on core 0 with its stream on (R220, R292). -/
def swappedWithStream : Swap where
  task := { Task.empty with tid := 5, life := .swapped none, stream := some ⟨0, 2, [], 0, false, false, some savedStreamCopy⟩ }
  core := 0
  team := none
  engines := []

/-- The machine with that task in memory and core 0 at its job's disposal, every slot of its copy engine free. -/
def streamToRestore : State :=
  { State.reset with cores := [(0, { Core.reset with job := some 0 })], swaps := [swappedWithStream] }

/-- Nothing holds the restore up. -/
theorem streamToRestore_meets :
    streamToRestore.placeFree 0 0 swappedWithStream.task.leaseCls swappedWithStream.task.shadowKiB = true ∧
      (streamToRestore.core 0).job = some swappedWithStream.task.job ∧ streamToRestore.swapAhead 0 swappedWithStream = false ∧
      streamToRestore.nothingBelow [0] swappedWithStream.task.cls.toNat = true ∧ streamToRestore.taskReturns swappedWithStream 0 = true := by
  decide +kernel

/-- In its new slot the task's stream has claimed a slot of the copy engine and is saved no longer. -/
theorem streamToRestore_claims :
    ((streamToRestore.swapIn 0 swappedWithStream 0 0).task 0).stream = some ⟨0, 2, [], 0, false, false, none⟩ := by
  decide +kernel

/-- Refutes O47: where a task of no team is restored and a slot of the core's copy engine is free, the restore also gives the slot to the task's saved
stream; the statement has the context come back with the stream still saved. -/
theorem not_teamsAndPreemption : ¬ Obligations.TeamsAndPreemption := by
  rintro ⟨-, -, -, -, hrestores, -⟩
  obtain ⟨hp, hj, ha, hn, hr⟩ := streamToRestore_meets
  have hok : swappedWithStream.task.life ≠ .retired ∧ 0 < 10240 ∧
      streamToRestore.placeFree 0 0 swappedWithStream.task.leaseCls swappedWithStream.task.shadowKiB = true ∧
      (streamToRestore.core (coreOf 0)).job = some swappedWithStream.task.job := ⟨by decide, by decide, hp, hj⟩
  have hfirst : streamToRestore.swapAhead 0 swappedWithStream = false ∧ streamToRestore.nothingBelow [coreOf 0] swappedWithStream.task.cls.toNat = true :=
    ⟨ha, hn⟩
  have hports (h : Nat) (hh : h < 16) : swappedWithStream.task.p[h] = none := Vector.getElem_replicate hh
  obtain ⟨-, hreturn⟩ := hrestores streamToRestore 0 0 0 swappedWithStream
  obtain ⟨-, -, hreturn, -⟩ := hreturn rfl
  obtain ⟨t, ht, hback, -⟩ := hreturn rfl hok hfirst rfl hr hports
  have ht' : t = streamToRestore.swapIn 0 swappedWithStream 0 0 :=
    Host.Outcome.next.inj (ht.symm.trans (exec_restore_swapIn 0 rfl rfl hok hfirst rfl hr))
  have hstream : some ⟨0, 2, [], 0, false, false, none⟩ = swappedWithStream.task.stream := by
    rw [← streamToRestore_claims, ← ht', hback]
  exact absurd hstream (by decide)

end Sys2Proof.Machine
end

section
/-! SUPPORT. Why a statement about TRACECTL_WRITE fails: where the line of the buffer's header is replicated, the write of EN waits and begins the line's
withdrawal at its home die (R270, R352), which is a change of that die. -/

namespace Sys2Proof.Machine

/-- TRACECTL_WRITE that would turn tracing on while the header cannot be written yet leaves the machine as the Curator's request does (R270, R323, R327, R352). -/
theorem exec_tracectlWrite_later {s u : State} {d : Nat} {v : Word} (hlog : 10 ≤ bits v 56 6 ∧ bits v 56 6 ≤ 24) (ht : (s.die d).tracing = false)
    (hen : (v &&& 0xFF0000000000FFFF).getLsbD 63 = true) (hask : s.curatorAsk d true 0 64 = (.later, u)) :
    exec (.tracectlWrite d false v) s = .next u := by
  show execTracectlWrite d false v s = _
  simp only [execTracectlWrite, if_pos hlog, ht, hen, hask]
  rfl

/-! ### The counterexample -/

/-- The machine with the trace buffer of die 0 at address 0, a page that the Curator may write, and a replica of the header's line at half 0 of the die. -/
def replicatedTraceHeader : State :=
  { State.reset with dies := [(0, { Die.reset with replicas := [(lineKey 0 0, [0])] })], attrs := [(Party.unit (.curator 0), [⟨0, 0, 0, 2, true, true, true⟩])] }

/-- TRACECTL with EN and LOG 10. -/
def traceOn : Word := 0x8A00000000000000

/-- The Curator has to wait, and the withdrawal of the line has begun. -/
theorem replicatedTraceHeader_waits :
    (replicatedTraceHeader.curatorAsk 0 true 0 64).1 = .later ∧
      ((replicatedTraceHeader.curatorAsk 0 true 0 64).2.die 0).withdrawing = [(lineKey 0 0, [1000])] := by
  decide +kernel

/-- Refutes O51: a write of EN that waits for a replicated line of the header begins the line's withdrawal, so the dies do not stay as they were. -/
theorem not_fabricTraceAndJobs : ¬ Obligations.FabricTraceAndJobs := by
  rintro ⟨-, htraces, -⟩
  obtain ⟨hask, hwithdraw⟩ := replicatedTraceHeader_waits
  obtain ⟨-, -, -, hlater, -⟩ := htraces replicatedTraceHeader 0 0 traceOn
  obtain ⟨t, ht, hdies⟩ := hlater (by decide) (by decide) hask
  have ht' : t = (replicatedTraceHeader.curatorAsk 0 true 0 64).2 :=
    Host.Outcome.next.inj (ht.symm.trans (exec_tracectlWrite_later (by decide) (by decide) (by decide) (Prod.ext hask rfl)))
  have hsame : t.die 0 = replicatedTraceHeader.die 0 := congrArg (tget · 0 Die.reset) hdies
  rw [ht'] at hsame
  have hnone : (replicatedTraceHeader.die 0).withdrawing = [(lineKey 0 0, [1000])] := by rw [← hsame, hwithdraw]
  exact absurd hnone (by decide)

end Sys2Proof.Machine
end

section
/-! SUPPORT. Bytes written at their home: what a line of L2 holds after a write of whole words, and after a write or a counter update by the hardware
(R95, R265, R266, R276). -/

namespace Sys2Proof.Machine

/-! ### Lines (R265) -/

/-- A byte of a line after a write of a byte. -/
theorem Line.byte_put (l : Line) {i j : Nat} (b : Byte) (hi : i < 256) (hj : j < 256) : (l.put i b).byte j = if j = i then b else l.byte j := by
  apply BitVec.eq_of_getLsbD_eq
  intro k hk
  have ones (m : Nat) (hm : m < 2048) : (0xFF#2048).getLsbD m = decide (m < 8) := by
    rw [BitVec.getLsbD_ofNat, show 255 = 2 ^ 8 - 1 from rfl, Nat.testBit_two_pow_sub_one]
    simp [hm]
  simp only [Line.byte, Line.put, BitVec.getLsbD_extractLsb', BitVec.getLsbD_or, BitVec.getLsbD_and, BitVec.getLsbD_not, BitVec.getLsbD_shiftLeft,
    BitVec.getLsbD_setWidth, BitVec.ofNat_eq_ofNat]
  rw [ones _ (by omega)]
  by_cases h : j = i
  · subst h
    have hlow : 8 * j + k - 8 * j = k := by omega
    have hin : 8 * j + k < 2048 ∧ k < 2048 := by omega
    have hge : ¬ 8 * j + k < 8 * j := by omega
    simp [hk, hlow, hin, hge]
  · rw [if_neg h]
    by_cases hlt : 8 * j + k < 8 * i
    · simp [hk, hlt]; omega
    · have hb : b.getLsbD (8 * j + k - 8 * i) = false := BitVec.getLsbD_of_ge _ _ (by omega)
      simp [hk, hlt, hb]; omega

/-- The words that hold data after the word of a byte has been written. -/
theorem Line.has_word (l : Line) {i j : Nat} (hj : j < 256) :
    (l.mask ||| (1 : BitVec 64) <<< (i / 4)).getLsbD (j / 4) = (l.has j || decide (j / 4 = i / 4)) := by
  have hw : j / 4 < 64 := by omega
  have one : ∀ m, (1#64).getLsbD m = decide (m = 0) := fun m => by simp
  simp only [Line.has, BitVec.getLsbD_or, BitVec.getLsbD_shiftLeft, BitVec.ofNat_eq_ofNat, one, hw, decide_true, Bool.true_and]
  congr 1
  by_cases h : j / 4 = i / 4
  · simp [h]
  · by_cases hlt : j / 4 < i / 4
    · simp [h, hlt]
    · have hne : ¬ j / 4 - i / 4 = 0 := by omega
      simp [h, hne]

/-! ### Addresses of one line -/

/-- Two addresses of one line have the same line key. -/
theorem lineKey_congr (a : Nat) {u v : Nat} (hu : u < 2 ^ 56) (hv : v < 2 ^ 56) (h : u / 256 = v / 256) : lineKey a u = lineKey a v := by
  have hc : u / 2 ^ 54 % 4 = v / 2 ^ 54 % 4 := by omega
  simp only [lineKey, spaceOf, hc, Nat.mod_eq_of_lt hu, Nat.mod_eq_of_lt hv, h]

/-- Two addresses of one line lie in one page, so one peer entry speaks of both. -/
theorem State.peerOf_congr (s : State) (a : Nat) {u v : Nat} (hu : u < 2 ^ 56) (hv : v < 2 ^ 56) (h : u / 256 = v / 256) : s.peerOf a u = s.peerOf a v := by
  have hc : u / 2 ^ 54 % 4 = v / 2 ^ 54 % 4 := by omega
  have hshift : pageShift u = pageShift v := by simp only [pageShift, hc]
  have hpage : u / 2 ^ pageShift v = v / 2 ^ pageShift v := by
    have : ∀ k, 8 ≤ k → u / 2 ^ k = v / 2 ^ k := fun k hk => by
      obtain ⟨m, rfl⟩ := Nat.exists_eq_add_of_le hk
      rw [Nat.pow_add, ← Nat.div_div_eq_div_mul, ← Nat.div_div_eq_div_mul]
      exact congrArg (· / 2 ^ m) h
    apply this
    unfold pageShift
    split <;> decide
  simp only [State.peerOf, homeStack, spaceOf, pageClass, hc, hshift, Nat.mod_eq_of_lt hu, Nat.mod_eq_of_lt hv, hpage]

/-! ### What allocating a line leaves alone: the peer table -/

/-- A fold whose step keeps a part of the state keeps it. -/
theorem foldl_keeps {σ α β : Type} (g : σ → β) (f : σ → α → σ) (h : ∀ s a, g (f s a) = g s) (l : List α) (s : σ) : g (l.foldl f s) = g s := by
  induction l generalizing s with
  | nil => rfl
  | cons a r ih => exact (ih (f s a)).trans (h s a)

@[simp] theorem State.sliceAsk_peers (s : State) (a va : Nat) : (s.sliceAsk a va).peers = s.peers := by
  unfold State.sliceAsk State.fillTlb State.noteMalformed
  dsimp only
  split
  · split <;> rfl
  · split <;> rfl

@[simp] theorem State.writeBackSector_peers (s : State) (a va : Nat) : (s.writeBackSector a va).peers = s.peers := by
  unfold State.writeBackSector
  dsimp only
  split
  · rfl
  · split <;> exact State.sliceAsk_peers _ a va

@[simp] theorem State.dropLine_peers (s : State) (a va : Nat) : (s.dropLine a va).peers = s.peers :=
  foldl_keeps State.peers _ (fun s _ => State.writeBackSector_peers s a _) _ s

@[simp] theorem State.choose_peers (s : State) (n : Nat) : (s.choose n).2.peers = s.peers := by
  unfold State.choose
  split
  · rfl
  · split <;> rfl

@[simp] theorem State.makeRoom_peers (s : State) (a va : Nat) : (s.makeRoom a va).peers = s.peers := by
  unfold State.makeRoom
  split
  · rfl
  · dsimp only
    split
    · rfl
    · exact (State.dropLine_peers _ _ _).trans (State.choose_peers s _)

@[simp] theorem State.allocate_peers (s : State) (a va : Nat) : (s.allocate a va).peers = s.peers := by
  unfold State.allocate
  split
  · rfl
  · rw [State.sliceAsk_peers, State.makeRoom_peers]

@[simp] theorem State.putGlobByte_peers (s : State) (a va : Nat) (b : Byte) : (s.putGlobByte a va b).peers = s.peers := State.allocate_peers s a va

/-! ### Bytes of a line in L2 -/

/-- The line of an address holds bytes, from the address on. -/
def State.lineHolds (s : State) (a va : Nat) (bs : List Byte) : Prop :=
  ∀ (i : Nat) (h : i < bs.length), (s.line a va).has (va % 256 + i) = true ∧ (s.line a va).byte (va % 256 + i) = bs[i]

/-- A line that holds a word is allocated. -/
theorem State.allocate_of_has {s : State} {a va j : Nat} (h : (s.line a va).has j = true) : s.allocate a va = s := by
  unfold State.allocate
  refine if_pos ?_
  cases hf : tfind s.l2 (lineKey a va) with
  | some l => rfl
  | none => simp [State.line, tget, hf, Line.has, Line.invalid] at h

/-- The line of an address after a byte of it has been stored at its home. -/
theorem State.line_putGlobByte (s : State) (a va : Nat) (b : Byte) {j : Nat} (hj : j < 256) :
    ((s.putGlobByte a va b).line a va).has j = (((s.allocate a va).line a va).has j || decide (j / 4 = va % 256 / 4)) ∧
      ((s.putGlobByte a va b).line a va).byte j = if j = va % 256 then b else ((s.allocate a va).line a va).byte j := by
  have hl : ∃ p d y, (s.putGlobByte a va b).line a va = { ((s.allocate a va).line a va).put (va % 256) b with
      mask := ((s.allocate a va).line a va).mask ||| (1 : BitVec 64) <<< (va % 256 / 4), dirty := d, poison := p, syn := y } :=
    ⟨_, _, _, by unfold State.putGlobByte State.line Line.recheck; exact tget_tput_same _ _ _ _⟩
  obtain ⟨p, d, y, hl⟩ := hl
  rw [hl]
  exact ⟨Line.has_word _ hj, Line.byte_put _ b (Nat.mod_lt _ (by decide)) hj⟩

/-- The line holds one byte more after the byte that comes next has been stored. -/
theorem State.lineHolds.snoc {s : State} {a va : Nat} {bs : List Byte} (h : s.lineHolds a va bs) (b : Byte) (hv : va < 2 ^ 56)
    (hfit : va % 256 + bs.length < 256) : (s.putGlobByte a (va + bs.length) b).lineHolds a va (bs ++ [b]) := by
  have hu : va + bs.length < 2 ^ 56 := by omega
  have hkey : lineKey a (va + bs.length) = lineKey a va := lineKey_congr a hu hv (by omega)
  have hline (t : State) : t.line a (va + bs.length) = t.line a va := by rw [State.line, State.line, hkey]
  have hoff : (va + bs.length) % 256 = va % 256 + bs.length := by omega
  intro i hi
  rw [List.length_append, List.length_singleton] at hi
  obtain ⟨hhas, hbyte⟩ := State.line_putGlobByte s a (va + bs.length) b (j := va % 256 + i) (by omega)
  rw [hline, hline, hoff] at hhas hbyte
  rw [hhas, hbyte]
  by_cases hlast : i = bs.length
  · subst hlast
    simp
  · have hi' : i < bs.length := by omega
    obtain ⟨h1, h2⟩ := h i hi'
    have hall : s.allocate a (va + bs.length) = s := State.allocate_of_has ((congrArg (Line.has · _) (hline s)).trans h1)
    have hne : ¬ va % 256 + i = va % 256 + bs.length := by omega
    rw [hall, h1, if_neg hne, h2, List.getElem_append_left hi']
    exact ⟨Bool.true_or _, rfl⟩

/-- Cleaning a sector leaves the bytes of a line alone. -/
theorem State.lineHolds.cleanSector {s : State} {a va : Nat} {bs : List Byte} (h : s.lineHolds a va bs) (l : Loc) : (s.cleanSector l).lineHolds a va bs := by
  cases l with
  | bank c off => exact h
  | glob b u =>
    have hl : ∃ p y, (State.cleanSector s (.glob b u)).line a va = { s.line a va with poison := p, syn := y } := by
      unfold State.cleanSector
      dsimp only
      cases hf : tfind s.l2 (lineKey b u) with
      | none => exact ⟨_, _, rfl⟩
      | some l =>
        by_cases hk : lineKey a va = lineKey b u
        · refine ⟨l.poison &&& ~~~((1 : BitVec 4) <<< (u / 64 % 4)),
            (({ l with poison := l.poison &&& ~~~((1 : BitVec 4) <<< (u / 64 % 4)) } : Line).recheck (u / 64 % 4)).syn, ?_⟩
          rw [State.line, hk]
          exact (tget_tput_same _ _ _ _).trans (by rw [State.line, hk, tget, hf]; rfl)
        · exact ⟨(s.line a va).poison, (s.line a va).syn, tget_tput_ne _ _ _ hk⟩
    obtain ⟨p, y, hl⟩ := hl
    intro i hi
    rw [hl]
    exact h i hi

@[simp] theorem State.cleanSector_peers (s : State) (l : Loc) : (s.cleanSector l).peers = s.peers := by
  cases l with
  | bank c off => rfl
  | glob a va => unfold State.cleanSector; dsimp only; split <;> rfl

/-- Bytes stored in order at their home behind those that the line holds already, each as part of a word that the write covers. -/
theorem State.lineHolds.foldl {s : State} {a va : Nat} {pre : List Byte} (h : s.lineHolds a va pre) (bs : List Byte) (hv : va < 2 ^ 56)
    (hfit : va % 256 + (pre.length + bs.length) ≤ 256) (hp : s.peerOf a va = none) :
    let t := (bs.zipIdx pre.length).foldl (fun s e => s.putHomeByte ((Loc.glob a va).plus e.2) true e.1) s
    t.lineHolds a va (pre ++ bs) ∧ t.peers = s.peers := by
  induction bs generalizing s pre with
  | nil => exact ⟨by rw [List.append_nil]; exact h, rfl⟩
  | cons b bs ih =>
    rw [List.length_cons] at hfit
    have hu : va + pre.length < 2 ^ 56 := by omega
    have hpeer : s.peerOf a (va + pre.length) = none := (State.peerOf_congr s a hu hv (by omega)).trans hp
    have hput : s.putHomeByte ((Loc.glob a va).plus pre.length) true b = s.putGlobByte a (va + pre.length) b := by
      simp only [Loc.plus, Nat.mod_eq_of_lt hu, State.putHomeByte, hpeer, Bool.true_or, if_true]
    have hlen : (pre ++ [b]).length = pre.length + 1 := List.length_append
    have hpeers : (s.putGlobByte a (va + pre.length) b).peers = s.peers := State.putGlobByte_peers s a _ b
    have hp' : (s.putGlobByte a (va + pre.length) b).peerOf a va = none := by rw [State.peerOf, hpeers]; exact hp
    obtain ⟨hh, hps⟩ := ih (h.snoc b hv (by omega)) (by omega) hp'
    rw [List.zipIdx_cons, List.foldl_cons, hput, ← hlen]
    rw [List.append_assoc] at hh
    exact ⟨hh, hps.trans hpeers⟩

/-- Folds over one list of steps that agree on its members agree. -/
theorem foldl_congr_of_mem {σ α : Type} {f g : σ → α → σ} (l : List α) (h : ∀ s, ∀ e ∈ l, f s e = g s e) (s : σ) : l.foldl f s = l.foldl g s := by
  induction l generalizing s with
  | nil => rfl
  | cons e r ih =>
    rw [List.foldl_cons, List.foldl_cons, h s e List.mem_cons_self]
    exact ih (fun s e' he => h s e' (List.mem_cons_of_mem e he)) _

/-- A write of whole words within a line, to a page that is no peer page: the line holds its bytes (R266). -/
theorem State.putHome_lineHolds {s : State} {a va : Nat} {bs : List Byte} (hv : va < 2 ^ 56) (hfit : va % 256 + bs.length ≤ 256) (h4 : va % 4 = 0)
    (hn : bs.length % 4 = 0) (hp : s.peerOf a va = none) :
    (s.putHome (.glob a va) bs []).lineHolds a va bs ∧ (s.putHome (.glob a va) bs []).peers = s.peers := by
  have hwhole : ∀ i, i < bs.length → coversAll 4 va bs.length i = true := fun i hi => by
    simp only [coversAll, Bool.and_eq_true, decide_eq_true_eq]
    omega
  have hnil : s.lineHolds a va [] := fun i hi => absurd hi (Nat.not_lt_zero i)
  obtain ⟨hh, hpeers⟩ := hnil.foldl bs hv (by rwa [List.length_nil, Nat.zero_add]) hp
  rw [List.length_nil, List.nil_append] at hh
  rw [List.length_nil] at hpeers
  have hbytes : bs.zipIdx.foldl (fun s (b, i) => if ([] : List Byte) ≠ [] ∧ (([] : List Byte)[i]?).getD 0 = 0 then s
      else s.putHomeByte ((Loc.glob a va).plus i) (([] : List Byte).isEmpty && coversAll 4 (Loc.glob a va).addr bs.length i)
        (maskByte [] i (s.homeByte ((Loc.glob a va).plus i)) b)) s =
      bs.zipIdx.foldl (fun s e => s.putHomeByte ((Loc.glob a va).plus e.2) true e.1) s := by
    refine foldl_congr_of_mem _ (fun t e he => ?_) s
    obtain ⟨b, i⟩ := e
    have hi : i < bs.length := by simpa using (List.mem_zipIdx he).2.1
    simp [Loc.addr, hwhole i hi, maskByte]
  unfold State.putHome
  dsimp only
  rw [hbytes, if_neg (by simp)]
  generalize bs.zipIdx.foldl (fun s e => s.putHomeByte ((Loc.glob a va).plus e.2) true e.1) s = u at hh hpeers
  generalize sectorStarts (Loc.glob a va).addr bs.length = l
  induction l generalizing u with
  | nil => exact ⟨hh, hpeers⟩
  | cons i r ih =>
    rw [List.foldl_cons]
    split
    · exact ih _ (hh.cleanSector _) ((State.cleanSector_peers u _).trans hpeers)
    · exact ih u hh hpeers

/-- What the home of a range reads where its line holds the bytes and its page is no peer page (R275). -/
theorem State.lineHolds.homeBytes {s : State} {a va : Nat} {bs : List Byte} (h : s.lineHolds a va bs) (hv : va < 2 ^ 56)
    (hfit : va % 256 + bs.length ≤ 256) (hp : s.peerOf a va = none) : s.homeBytes (.glob a va) bs.length = bs := by
  apply List.ext_getElem
  · simp [State.homeBytes]
  · intro i hi hi'
    have hu : va + i < 2 ^ 56 := by omega
    have hpeer : s.peerOf a (va + i) = none := by rw [State.peerOf_congr s a hu hv (by omega), hp]
    have hline : s.line a (va + i) = s.line a va := by rw [State.line, State.line, lineKey_congr a hu hv (by omega)]
    obtain ⟨h1, h2⟩ := h i hi'
    have hoff : (va + i) % 256 = va % 256 + i := by omega
    have hfar : s.farMember a (va + i) = none := by rw [State.farMember, hpeer, Option.bind_none]
    simp only [State.homeBytes, List.getElem_map, List.getElem_range, Loc.plus, Nat.mod_eq_of_lt hu, State.homeByte, hfar, hline, hoff, h1, if_true]
    exact h2

end Sys2Proof.Machine
end

section
/-! SUPPORT. Writes and counter updates by the hardware: what they leave at their home (R95, R107, R276). -/

namespace Sys2Proof.Machine

/-! ### Steps that leave the lines of L2 and the peer pages alone -/

/-- What the bytes of a line depend on where the line holds them: the lines of L2 and the table of peer pages. -/
def State.lines (s : State) : Tbl Line × Tbl (List Peer) := (s.l2, s.peers)

theorem State.lineHolds_congr {s t : State} (h : t.lines = s.lines) (a va : Nat) (bs : List Byte) : t.lineHolds a va bs ↔ s.lineHolds a va bs := by
  have hl : t.l2 = s.l2 := congrArg Prod.fst h
  simp only [State.lineHolds, State.line, hl]

theorem State.peerOf_congr_lines {s t : State} (h : t.lines = s.lines) (a va : Nat) : t.peerOf a va = s.peerOf a va := by
  have hp : t.peers = s.peers := congrArg Prod.snd h
  simp only [State.peerOf, hp]

@[simp] theorem State.withdrawFor_lines (s : State) (l : Loc) : (s.withdrawFor l).lines = s.lines := by
  unfold State.withdrawFor
  split
  · rfl
  · split <;> rfl

@[simp] theorem State.freeGuards_lines (s : State) : s.freeGuards.lines = s.lines := by
  unfold State.freeGuards
  split <;> rfl

@[simp] theorem State.fillAttr_lines (s : State) (unit asid va : Nat) : (s.fillAttr unit asid va).lines = s.lines := by
  unfold State.fillAttr
  dsimp only
  split <;> rfl

@[simp] theorem State.fillPages_lines (s : State) (unit asid va n : Nat) : (s.fillPages unit asid va n).lines = s.lines := by
  unfold State.fillPages
  split
  · rfl
  · exact foldl_keeps State.lines _ (fun s a => State.fillAttr_lines s unit asid a) _ s

@[simp] theorem State.learn_lines (s : State) (p : Party) (ids : List Nat) : (s.learn p ids).lines = s.lines := by
  cases p <;> rfl

@[simp] theorem State.setTask_lines (s : State) (t : Nat) (x : Task) : (s.setTask t x).lines = s.lines := rfl
@[simp] theorem State.modCore_lines (s : State) (c : Nat) (f : Core → Core) : (s.modCore c f).lines = s.lines := rfl
@[simp] theorem State.modQuad_lines (s : State) (q : Nat) (f : Quad → Quad) : (s.modQuad q f).lines = s.lines := rfl
@[simp] theorem State.modDie_lines (s : State) (d : Nat) (f : Die → Die) : (s.modDie d f).lines = s.lines := rfl

/-! ### Writes that the hardware makes of its own (R276) -/

/-- A plain write of whole words, or an update of a word that its line holds: what it leaves of the lines is its new bytes put at their home. -/
theorem State.joinHome_lines {s : State} {w : Write} (hfill : w.op.isSome → s.fillWords w.loc w.bytes.length = s) (hmask : w.op = none → w.mask = [])
    (hcover : w.cover = false) (hbad : w.bad = false) :
    (s.joinHome w).lines = ((s.withdrawFor w.loc).putHome w.loc (w.newBytes (s.homeBytes w.loc w.bytes.length)) []).lines := by
  cases ho : w.op with
  | none =>
    simp only [State.joinHome, ho, Option.isSome_none, Bool.false_eq_true, if_false, hcover, hbad, hmask ho]
    exact State.freeGuards_lines _
  | some o =>
    simp only [State.joinHome, ho, Option.isSome_some, if_true, Bool.false_eq_true, if_false, hcover, hbad, hfill (Option.isSome_of_eq_some ho)]
    exact State.freeGuards_lines _

theorem State.joinHome_lineHolds {s : State} {w : Write} {a va : Nat} (hloc : w.loc = .glob a va) (hv : va < 2 ^ 56) (hp : s.peerOf a va = none)
    (hfill : w.op.isSome → s.fillWords w.loc w.bytes.length = s) (hmask : w.op = none → w.mask = []) (hcover : w.cover = false) (hbad : w.bad = false)
    {bs : List Byte} (hbs : w.newBytes (s.homeBytes w.loc w.bytes.length) = bs) (hfit : va % 256 + bs.length ≤ 256) (h4 : va % 4 = 0)
    (hn : bs.length % 4 = 0) : (s.joinHome w).lineHolds a va bs ∧ (s.joinHome w).peerOf a va = none := by
  have hlines := State.joinHome_lines hfill hmask hcover hbad
  rw [hbs, hloc] at hlines
  have hp' : (s.withdrawFor (.glob a va)).peerOf a va = none := (State.peerOf_congr_lines (State.withdrawFor_lines s _) a va).trans hp
  obtain ⟨hh, hps⟩ := State.putHome_lineHolds hv hfit h4 hn hp'
  refine ⟨(State.lineHolds_congr hlines a va bs).mpr hh, (State.peerOf_congr_lines hlines a va).trans ?_⟩
  rw [State.peerOf, hps]
  exact hp'

/-! ### Bytes of a number -/

@[simp] theorem natBytes_length (v n : Nat) : (natBytes v n).length = n := by
  induction n generalizing v with
  | zero => rfl
  | succ n ih => rw [natBytes, List.length_cons, ih]

/-- The bytes of a number read as a number again. -/
theorem leNat_natBytes (v n : Nat) : leNat (natBytes v n) = v % 256 ^ n := by
  induction n generalizing v with
  | zero => simp [natBytes, leNat, Nat.mod_one]
  | succ n ih =>
    rw [natBytes, leNat, ih, BitVec.toNat_ofNat, show 256 ^ (n + 1) = 256 * 256 ^ n from Nat.pow_succ', Nat.mod_mul]

theorem leWord_natBytes (v : Word) : leWord (natBytes v.toNat 8) = v := by
  rw [leWord, leNat_natBytes, Nat.mod_eq_of_lt (show v.toNat < 256 ^ 8 from v.isLt), BitVec.ofNat_toNat, BitVec.setWidth_eq]

/-! ### The update of a counter at once (R95) -/

/-- The write of an update of a word by the hardware. -/
def State.updateWrite (s : State) (p : Party) (rel : Option Release) (asid va : Nat) (op : BitVec 4) (n : Nat) : Write :=
  { s.hardWrite p [] rel.toList (.glob (spaceOf asid va) va) (natBytes n 8) [] with op := some op, phase := s.phaseOf p }

/-- A write by the hardware leaves at once where its pages let it, none of its lines is replicated and nothing stands at a switch before it. -/
theorem State.askLeave_now {s : State} {p : Party} {a va n : Nat} (hpages : s.checkPages p.unit a false true false 1 va n = .ok ())
    (hrep : s.replicatedFrom (.glob a va) n = false) (hpeer : s.peerOf a va = none) :
    s.askLeave p true (.glob a va) n = (.now, s.fillPages p.unit a va n) := by
  have hswitch : s.behindSwitch (.glob a va) = false := by rw [State.behindSwitch, hpeer, Option.any_none]
  unfold State.askLeave
  simp only [Bool.not_true, if_true, hpages, hrep, hswitch, Bool.and_false, Bool.false_eq_true, if_false]

/-- A range that no line's end cuts enters one line. -/
theorem lineStarts_of_fits {a n : Nat} (hn : n ≠ 0) (h : a % 256 + n ≤ 256) : lineStarts a n = [0] := by
  have hline : (a % 256 + n - 1) / 256 = 0 := by omega
  simp [lineStarts, hn, hline]

theorem State.replicatedFrom_of_fits (s : State) {a va n : Nat} (hv : va < 2 ^ 56) (hn : n ≠ 0) (h : va % 256 + n ≤ 256) :
    s.replicatedFrom (.glob a va) n = s.replicated (.glob a va) := by
  unfold State.replicatedFrom
  rw [Loc.addr, lineStarts_of_fits hn h, List.any_cons, List.any_nil, Bool.or_false, Loc.plus, Nat.add_zero, Nat.mod_eq_of_lt hv]

/-- An update that nothing holds up joins its home at once. -/
theorem State.hwUpdate_now {s : State} {p : Party} {asid va : Nat} (h : Claims.updatable s p asid va) (rel : Option Release) (op : BitVec 4) (n : Nat) :
    s.hwUpdate p rel asid va op n =
      (({ s with nextId := s.nextId + 1 } : State).fillPages p.unit (spaceOf asid va) va 8).joinHome (s.updateWrite p rel asid va op n) := by
  obtain ⟨hv, h8, hpages, hpeer, hrep, -, -, hpath⟩ := h
  have hmod : va % 2 ^ 56 = va := Nat.mod_eq_of_lt hv
  have hw : { s.hardWrite p [] rel.toList (.glob (spaceOf asid va) (va % 2 ^ 56)) (natBytes n 8) [] with op := some op, phase := s.phaseOf p } =
      s.updateWrite p rel asid va op n := by rw [hmod]; rfl
  unfold State.hwUpdate
  rw [hw]
  generalize hu : ({ s with nextId := s.nextId + 1 } : State) = u
  have hfree : u.behindUpdate (s.updateWrite p rel asid va op n) = false := by
    subst hu
    rw [State.behindUpdate, List.any_eq_false]
    intro w hw hc
    simp only [Bool.and_eq_true, beq_iff_eq] at hc
    exact hpath w hw hc.1.2
  have hleave : u.askLeave p true (.glob (spaceOf asid va) va) 8 = (.now, u.fillPages p.unit (spaceOf asid va) va 8) := by
    subst hu
    refine State.askLeave_now hpages ?_ hpeer
    rw [State.replicatedFrom_of_fits _ hv (by decide) (by omega)]
    exact hrep
  have hloc : (s.updateWrite p rel asid va op n).loc = .glob (spaceOf asid va) va := rfl
  simp only [hfree, Bool.false_eq_true, if_false, hloc, hleave]

/-- A line that has both words of a doubleword has all its bytes. -/
theorem Line.has_of_words {l : Line} {va i : Nat} (h8 : va % 8 = 0) (hlow : l.has (va % 256) = true) (hhigh : l.has (va % 256 + 4) = true) (hi : i < 8) :
    l.has (va % 256 + i) = true := by
  rcases Nat.lt_or_ge i 4 with h4 | h4
  · rwa [Line.has, show (va % 256 + i) / 4 = va % 256 / 4 by omega]
  · rwa [Line.has, show (va % 256 + i) / 4 = (va % 256 + 4) / 4 by omega]

/-- The words of an update are filled where its line lacks them only. -/
theorem State.fillWords_of_has {s : State} {a va : Nat} (hv : va < 2 ^ 56) (h8 : va % 8 = 0) (hlow : (s.line a va).has (va % 256) = true)
    (hhigh : (s.line a va).has (va % 256 + 4) = true) : s.fillWords (.glob a va) 8 = s := by
  unfold State.fillWords
  dsimp only
  split
  · rfl
  have hkeep : ∀ (l : List Nat), (∀ i ∈ l, i < 8) → l.foldl (fun s i => let v := (va + i) % 2 ^ 56
      if (s.line a v).has (v % 256) then s else s.fillSector a v) s = s := by
    intro l
    induction l with
    | nil => intro _; rfl
    | cons i r ih =>
      intro hl
      have hi : i < 8 := hl i List.mem_cons_self
      have hline : s.line a (va + i) = s.line a va := by rw [State.line, State.line, lineKey_congr a (by omega) hv (by omega)]
      have hword : (s.line a va).has ((va + i) % 256) = true := by
        rw [show (va + i) % 256 = va % 256 + i by omega]
        exact Line.has_of_words h8 hlow hhigh hi
      rw [List.foldl_cons]
      simp only [Nat.mod_eq_of_lt (show va + i < 2 ^ 56 by omega), hline, hword, if_true]
      exact ih fun j hj => hl j (List.mem_cons_of_mem i hj)
  exact hkeep _ fun i hi => List.mem_range.mp hi

/-- The bytes that a doubleword's line has are those at its home. -/
theorem State.homeBytes_of_has {s : State} {a va : Nat} (hv : va < 2 ^ 56) (h8 : va % 8 = 0) (hp : s.peerOf a va = none)
    (hlow : (s.line a va).has (va % 256) = true) (hhigh : (s.line a va).has (va % 256 + 4) = true) :
    s.homeBytes (.glob a va) 8 = (List.range 8).map fun i => (s.line a va).byte (va % 256 + i) := by
  have hh : s.lineHolds a va ((List.range 8).map fun i => (s.line a va).byte (va % 256 + i)) := fun i hi => by
    have hi8 : i < 8 := by simpa using hi
    refine ⟨Line.has_of_words h8 hlow hhigh hi8, ?_⟩
    rw [List.getElem_map, List.getElem_range]
  have h := hh.homeBytes hv (by rw [List.length_map, List.length_range]; omega) hp
  rwa [List.length_map, List.length_range] at h

/-- Nothing holds an update of a word up: the word holds the counter's next value. -/
theorem State.hwUpdate_word {s : State} {p : Party} {asid va : Nat} (h : Claims.updatable s p asid va) (rel : Option Release) (op : BitVec 4) (n : Nat)
    (hop : 12 ≤ op.toNat) :
    (s.hwUpdate p rel asid va op n).lineHolds (spaceOf asid va) va
        (natBytes (counterResult op (leWord (natBytes n 8)) (Claims.memWord s asid va)).toNat 8) ∧
      (s.hwUpdate p rel asid va op n).peerOf (spaceOf asid va) va = none := by
  rw [State.hwUpdate_now h]
  obtain ⟨hv, h8, -, hpeer, -, hlow, hhigh, -⟩ := h
  generalize hu : ({ s with nextId := s.nextId + 1 } : State).fillPages p.unit (spaceOf asid va) va 8 = u
  have hlines : u.lines = s.lines := by subst hu; exact State.fillPages_lines _ _ _ _ _
  have hpeer' : u.peerOf (spaceOf asid va) va = none := (State.peerOf_congr_lines hlines _ _).trans hpeer
  have hline : u.line (spaceOf asid va) va = s.line (spaceOf asid va) va := by
    rw [State.line, State.line, show u.l2 = s.l2 from congrArg Prod.fst hlines]
  have hlow' : (u.line (spaceOf asid va) va).has (va % 256) = true := by rw [hline]; exact hlow
  have hhigh' : (u.line (spaceOf asid va) va).has (va % 256 + 4) = true := by rw [hline]; exact hhigh
  have hold : u.homeBytes (.glob (spaceOf asid va) va) 8 = s.homeBytes (.glob (spaceOf asid va) va) 8 := by
    rw [State.homeBytes_of_has hv h8 hpeer' hlow' hhigh', State.homeBytes_of_has hv h8 hpeer hlow hhigh, hline]
  have hlen : (s.updateWrite p rel asid va op n).bytes.length = 8 := natBytes_length n 8
  refine State.joinHome_lineHolds (w := s.updateWrite p rel asid va op n) rfl hv hpeer' (fun _ => ?fill) (fun h => nomatch h) rfl rfl ?bytes
    (by rw [natBytes_length]; omega) (by omega) (by rw [natBytes_length])
  case fill =>
    rw [hlen]
    exact State.fillWords_of_has hv h8 hlow' hhigh'
  case bytes =>
    have hupd : (s.updateWrite p rel asid va op n).update = true := decide_eq_true hop
    have hop' : (s.updateWrite p rel asid va op n).op = some op := rfl
    rw [hlen, show (s.updateWrite p rel asid va op n).loc = .glob (spaceOf asid va) va from rfl, hold]
    simp only [Write.newBytes, hop', hupd, if_true, hlen]
    rfl

end Sys2Proof.Machine
end

section
/-! SUPPORT. DISPATCH (R20, R22): the trigger that is chosen, and the context it becomes. -/

namespace Sys2Proof.Machine

/-! ### The choice of a trigger (R22) -/

/-- The chosen trigger is one of those weighed, fits, and no other has a lower class number. -/
theorem pickTrigger_spec {s : State} {core : Nat} {l : List (Weighed × Place)} {w : Weighed} {pl : Place} (h : s.pickTrigger core l = some (w, pl)) :
    (w, pl) ∈ l ∧ s.fits core w.lease w.shadow 1 = true ∧ ∀ e ∈ l, w.cls ≤ e.1.cls := by
  unfold State.pickTrigger at h
  dsimp only at h
  split at h
  · cases h
  · rename_i c hc
    split at h
    · cases h
    · obtain ⟨hmem, hcls⟩ := List.mem_filter.mp (List.mem_of_find?_eq_some h)
      have hfit := List.find?_some h
      have hwc : w.cls = c := by simpa using hcls
      refine ⟨hmem, hfit, fun e he => ?_⟩
      rw [hwc]
      refine Nat.le_of_not_lt fun hlt => ?_
      have hmine : e ∈ l.filter fun x => x.1.cls == e.1.cls := List.mem_filter.mpr ⟨he, beq_self_eq_true _⟩
      have hempty : (l.filter fun x => x.1.cls == e.1.cls) = [] := by
        have hbefore := (List.find?_range_eq_some.mp (show (List.range 4).find? _ = some c from hc)).2.2 e.1.cls hlt
        simpa using hbefore
      rw [hempty] at hmine
      cases hmine

/-! ### The context of a start (R13, R15, R20) -/

/-- A start acquires: it touches the new context's view only. -/
theorem State.task_acquire (s : State) (t scope : Nat) : ∃ v, (s.acquire t scope).task t = { s.task t with view := v } := by
  unfold State.acquire
  split
  · exact ⟨(s.task t).view, rfl⟩
  · dsimp only
    rw [State.modTask_eq, State.task_setTask]
    have hd : (s.dropCopies (coreOf t) scope).task t = s.task t := by
      unfold State.dropCopies
      split
      · rfl
      · dsimp only; split <;> rfl
    rw [hd]
    exact ⟨_, rfl⟩

theorem State.task_acquireFrom (s : State) (t : Nat) (r : Option Release) : ∃ v, (s.acquireFrom t r).task t = { s.task t with view := v } := by
  cases r with
  | none => exact ⟨(s.task t).view, rfl⟩
  | some r => exact ⟨_, State.task_setTask _ _ _⟩

theorem State.task_acquires (s : State) (t : Nat) (r : Option Release) : ∃ v, ((s.acquireFrom t r).acquire t 4).task t = { s.task t with view := v } := by
  obtain ⟨v1, h1⟩ := State.task_acquireFrom s t r
  obtain ⟨v2, h2⟩ := State.task_acquire (s.acquireFrom t r) t 4
  exact ⟨v2, by rw [h2, h1]⟩

theorem State.task_modTask_fresh (s : State) (t : Nat) (x : Task) (f : Task → Task) : ((s.setTask t x).fresh.2.modTask t f).task t = f x := by
  rw [State.modTask_eq, State.task_setTask]
  exact congrArg f (State.task_setTask s t x)

/-- The context that a start leaves in its slot: the one the weighed trigger stands for, with the trap of a header that could not be used. -/
theorem State.task_startTask (s : State) (t base : Nat) (w : Weighed) :
    ∃ v p, (s.startTask t base w).task t = { w.task s t base with view := v, pendingTrap := p } ∧
      (w.fail = none → p = none) ∧ ∀ c sub x, w.fail = some (c, sub, x) → ∃ info, p = some (w.handler, c, sub, x, info) := by
  have hport : ∀ (u : State), State.task (match w.trig.port with
      | some (name, _) => if w.trig.src == Source.requeue then u else u.toTransom (coreOf t) (nameQuad name) 0 (.credit name)
      | none => u) t = u.task t := fun u => by
    split
    · split <;> rfl
    · rfl
  have hview : ∀ (u : State) (v v0 : View) (p : Option (Word × Nat × Nat × Word × Word)),
      u.task t = { w.task s t base with view := v0, pendingTrap := p } →
      { u.task t with view := v } = { w.task s t base with view := v, pendingTrap := p } := fun u v v0 p h => by rw [h]
  cases hf : w.fail with
  | none =>
    unfold State.startTask
    rw [hf]
    dsimp only
    obtain ⟨v, hv⟩ := State.task_acquires _ t w.trig.rel
    refine ⟨v, none, hv.trans (hview _ v _ none ((hport _).trans (State.task_setTask s t _))), fun _ => rfl, fun c sub x h => nomatch h⟩
  | some e =>
    obtain ⟨c, sub, x⟩ := e
    have hpc : (w.task s t base).pc = w.handler := if_pos (Option.isSome_of_eq_some hf)
    unfold State.startTask
    rw [hf]
    dsimp only
    obtain ⟨v, hv⟩ := State.task_acquires _ t w.trig.rel
    refine ⟨v, some (w.handler, c, sub, x, Config.freeWord s.tick), ?_, (fun h => nomatch h), fun c' sub' x' h => ?_⟩
    · refine hv.trans (hview _ v { (w.task s t base).view with issued := s.inFlight (w.task s t base).tid } _ ((hport _).trans ?_))
      rw [State.task_modTask_fresh, ← hpc]
      rfl
    · cases h
      exact ⟨_, rfl⟩

/-- The registers of a started context are the doublewords of its trigger, and zero elsewhere (R20). -/
theorem Weighed.task_getG (w : Weighed) (s : State) (t base : Nat) (r : Gpr) :
    (w.task s t base).getG r = if 1 ≤ r.toNat ∧ r.toNat ≤ 7 then (w.trig.dwords[r.toNat]?).getD 0 else 0 := by
  have hr : r = 0 ↔ r.toNat = 0 := by
    rw [← BitVec.toNat_inj]
    rfl
  unfold Task.getG
  split
  · rename_i h0
    rw [if_neg (by have := hr.mp h0; omega)]
  · exact Vector.getElem_ofFn _

/-- DISPATCH of a chosen trigger into a free place (R22). -/
theorem exec_dispatch_start {s u : State} {core slot base : Nat} {l : List (Weighed × Place)} {w : Weighed} {pl : Place} (hs : slot < 16)
    (hc : core < 640) (hf : (s.task (16 * core + slot)).life = .free) (hw : s.weighAll core (s.sources core) = (u, l))
    (hp : u.pickTrigger core l = some (w, pl)) (hfree : u.placeFree (16 * core + slot) base w.lease w.shadow = true) :
    exec (.dispatch core slot base) s = .next ((u.take core w.trig pl).startTask (16 * core + slot) base w) := by
  show execDispatch core slot base s = _
  simp only [execDispatch, hs, hc, hf, and_self, if_true, hw, hp, hfree]

theorem exec_dispatch_none {s u : State} {core slot base : Nat} {l : List (Weighed × Place)} (hs : slot < 16) (hc : core < 640)
    (hf : (s.task (16 * core + slot)).life = .free) (hw : s.weighAll core (s.sources core) = (u, l)) (hp : u.pickTrigger core l = none) :
    exec (.dispatch core slot base) s = .next u := by
  show execDispatch core slot base s = _
  simp only [execDispatch, hs, hc, hf, and_self, if_true, hw, hp]

theorem exec_dispatch_taken {s : State} {core slot base : Nat} (hf : (s.task (16 * core + slot)).life ≠ .free) :
    exec (.dispatch core slot base) s = .next s := by
  show execDispatch core slot base s = _
  simp only [execDispatch, hf, and_false, if_false]

/-- The clauses about DISPATCH hold (R20, R22). -/
theorem claims_dispatches : Claims.dispatches := by
  refine ⟨fun s core l w pl h => pickTrigger_spec h, fun s u core slot base l w pl hs hc => ⟨exec_dispatch_taken, fun hf hw =>
    ⟨exec_dispatch_none hs hc hf hw, fun hp hfree => ⟨_, exec_dispatch_start hs hc hf hw hp hfree, ?_⟩⟩⟩⟩
  obtain ⟨v, p, ht, hnone, hsome⟩ := State.task_startTask (u.take core w.trig pl) (16 * core + slot) base w
  rw [ht]
  refine ⟨rfl, rfl, rfl, rfl, rfl, Weighed.task_getG w (u.take core w.trig pl) (16 * core + slot) base, rfl, rfl, rfl, rfl, fun h => ⟨hnone h, ?_⟩, fun c sub x h => ⟨?_, hsome c sub x h⟩⟩
  · exact if_neg (by rw [h]; exact Bool.false_ne_true)
  · exact if_pos (Option.isSome_of_eq_some h)

end Sys2Proof.Machine
end

section
/-! SUPPORT. The end of a task (R23, R95, R102, R113): what it leaves in memory, and the clauses of O42 about it. -/

namespace Sys2Proof.Machine

/-! ### The join counter's next value (R95) -/

theorem toNat_and_not_signBit (c : Word) : (c &&& ~~~((1 : Word) <<< 63)).toNat = c.toNat % 2 ^ 63 := by
  rw [BitVec.toNat_and, show (~~~((1 : Word) <<< 63)).toNat = 2 ^ 63 - 1 from rfl, Nat.and_two_pow_sub_one_eq_mod]

theorem toNat_and_signBit (c : Word) : (c &&& (1 : Word) <<< 63).toNat = 2 ^ 63 * (c.toNat / 2 ^ 63) := by
  have hc := c.isLt
  rw [show (1 : Word) <<< 63 = BitVec.twoPow 64 63 from rfl, BitVec.and_twoPow, BitVec.getLsbD, Nat.testBit_eq_decide_div_mod_eq]
  have htop : c.toNat / 2 ^ 63 = 0 ∨ c.toNat / 2 ^ 63 = 1 := by omega
  rcases htop with h | h
  · rw [h]; rfl
  · rw [h]; rfl

/-- The update of a join counter is the count of R95: POISON apart, COUNT goes down by 1. -/
theorem countDown_eq_counted (poison : Bool) (c : Word) : countDown poison c = Claims.counted poison c := by
  have hbits : bits c 0 63 = c.toNat % 2 ^ 63 := by simp [bits]
  unfold countDown Claims.counted
  rw [hbits]
  by_cases h0 : c.toNat % 2 ^ 63 = 0
  · rw [if_pos h0, if_pos h0]; rfl
  rw [if_neg h0, if_neg h0]
  apply BitVec.eq_of_toNat_eq
  have hlow : ((c &&& ~~~((1 : Word) <<< 63)) - 1).toNat = c.toNat % 2 ^ 63 - 1 := by
    rw [BitVec.toNat_sub, toNat_and_not_signBit]
    simp only [BitVec.ofNat_eq_ofNat, BitVec.toNat_ofNat]
    omega
  have hor (k : Nat) (hk : k < 2) : (2 ^ 63 * k ||| (c.toNat % 2 ^ 63 - 1)) = 2 ^ 63 * k + (c.toNat % 2 ^ 63 - 1) :=
    (Nat.two_pow_add_eq_or_of_lt (by omega) k).symm
  have hc := c.isLt
  rw [BitVec.toNat_or, hlow, BitVec.toNat_ofNat]
  cases poison with
  | true =>
    rw [if_pos rfl, if_pos rfl, show ((1 : Word) <<< 63).toNat = 2 ^ 63 * 1 from rfl, hor 1 (by decide)]
    omega
  | false =>
    rw [if_neg Bool.false_ne_true, if_neg Bool.false_ne_true, toNat_and_signBit, hor _ (by omega)]
    omega

theorem counterResult_downOp (poison : Bool) (n c : Word) : counterResult (downOp poison) n c = Claims.counted poison c := by
  rw [← countDown_eq_counted]
  cases poison <;> rfl

/-! ### What the end of a context does beside its join counter -/

@[simp] theorem State.emit_lines (s : State) (core slot kind : Nat) (tid : Word) (pay : List Word) : (s.emit core slot kind tid pay).lines = s.lines := by
  unfold State.emit State.emitFrom State.setTrace
  split
  · rfl
  split
  · (repeat' split) <;> rfl
  · rfl

@[simp] theorem State.freePorts_lines (s : State) (core : Nat) (x : Task) : (s.freePorts core x).lines = s.lines := by
  refine foldl_keeps State.lines _ (fun s p => ?_) _ s
  cases p with
  | none => rfl
  | some r => dsimp only; split <;> rfl

@[simp] theorem State.freeRings_lines (s : State) (x : Task) : (s.freeRings x).lines = s.lines := by
  refine foldl_keeps State.lines _ (fun s q => ?_) _ s
  cases q <;> rfl

/-- The end of a context that belongs to no team leaves in the lines what its join counter's update does. -/
theorem State.freeContext_lines (s : State) {x : Task} (hteam : x.team = none) (core slot : Nat) :
    (s.freeContext x core slot).lines = (s.updateJoin x core).lines := by
  have hleave : ((s.updateJoin x core).leaveTeam x core).lines = (s.updateJoin x core).lines := by
    rw [State.leaveTeam, hteam]; rfl
  unfold State.freeContext State.countTimes
  dsimp only
  rw [show ∀ u : State, u.wakeWatchers.lines = u.lines from fun _ => rfl, State.emit_lines, State.modCore_lines, State.freeRings_lines,
    State.freePorts_lines, hleave]

/-- The join counter of an ended task has counted it where nothing holds its update up (R95). -/
theorem State.freeSlot_memWord {s : State} {n : Nat} {c : Word} (hjoin : (s.task n).joinAddr = some c) (hteam : (s.task n).team = none)
    (h : Claims.updatable s (.task (s.task n).tid (coreOf n)) (s.asid (s.task n).job) (c.toNat % 2 ^ 56)) :
    Claims.memWord (s.freeSlot n) (s.asid (s.task n).job) (c.toNat % 2 ^ 56) =
      Claims.counted ((s.task n).how != 0) (Claims.memWord s (s.asid (s.task n).job) (c.toNat % 2 ^ 56)) := by
  have hop : 12 ≤ (downOp ((s.task n).how != 0)).toNat := by
    cases (s.task n).how != 0 <;> decide
  obtain ⟨hh, hp⟩ := State.hwUpdate_word h ((s.task n).finalRelease (coreOf n)) (downOp ((s.task n).how != 0)) 0 hop
  obtain ⟨hv, h8, -⟩ := h
  have hlines : (s.freeSlot n).lines = (s.hwUpdate (.task (s.task n).tid (coreOf n)) ((s.task n).finalRelease (coreOf n)) (s.asid (s.task n).job)
      (c.toNat % 2 ^ 56) (downOp ((s.task n).how != 0)) 0).lines := by
    rw [State.freeSlot, State.setTask_lines, State.freeContext_lines s hteam, State.updateJoin, hjoin]
    rfl
  have hh' := (State.lineHolds_congr hlines _ _ _).mpr hh
  have hp' := (State.peerOf_congr_lines hlines _ _).trans hp
  have hbytes := hh'.homeBytes hv (by rw [natBytes_length]; omega) hp'
  rw [natBytes_length] at hbytes
  rw [Claims.memWord, hbytes, leWord_natBytes, counterResult_downOp]

/-! ### The clauses about the end of a task -/

/-- RETIRED_TO_FREE of a task that belongs to no pair is its end once its buffer is drained (R102). -/
theorem exec_retiredToFree {s : State} {n : Nat} (hn : n < 20000) (hl : (s.task n).life = .retired) (hp : (s.task n).settledPorts = true)
    (hg : (s.task n).guarded = false) : exec (.retiredToFree n) s = .next (s.freeOrdinary n) := by
  have hn' : ¬ 20000 ≤ n := by omega
  show execRetiredToFree n s = _
  simp only [execRetiredToFree, hn', if_false, hl, hp, hg, and_self, if_true, Bool.false_eq_true]

theorem exec_retiredToFree_early {s : State} {n : Nat} (hn : n < 20000) (h : (s.task n).life ≠ .retired ∨ (s.task n).settledPorts = false) :
    exec (.retiredToFree n) s = .next s := by
  have hn' : ¬ 20000 ≤ n := by omega
  have hc : ¬ ((s.task n).life = .retired ∧ (s.task n).settledPorts = true) := fun hc => h.elim (absurd hc.1) fun hf => by
    rw [hf] at hc; exact Bool.false_ne_true hc.2
  show execRetiredToFree n s = _
  simp only [execRetiredToFree, hn', if_false, hc]

/-! What an end that discards the uncommitted buffer keeps on the way: the buffer is uncommitted, or empty already. -/

/-- Whether the end of a task with poison leaves no store of its buffer. -/
def Task.discards (x : Task) : Prop := x.buffers = true ∨ x.shadow = []

theorem Task.discards_congr {x y : Task} (hr : y.restartable = x.restartable) (hc : y.committed = x.committed) (hs : y.shadow = x.shadow)
    (h : x.discards) : y.discards := by
  unfold Task.discards Task.buffers at *
  rw [hr, hc, hs]
  exact h

theorem State.cancelRoutine_discards {s : State} {n : Nat} (h : (s.task n).discards) : ((s.cancelRoutine n).task n).discards := by
  unfold State.cancelRoutine
  split
  · rw [State.modTask_eq, State.task_setTask]
    exact Task.discards_congr (x := s.task n) rfl rfl rfl h
  · exact h

theorem State.leaveWaiters_discards {s : State} {n : Nat} (h : (s.task n).discards) : ((s.leaveWaiters n).task n).discards := by
  rw [State.leaveWaiters, State.task_wakeWaiters]
  exact Task.discards_congr (x := s.task n) rfl rfl rfl h

theorem State.dropMove_discards {s : State} {n : Nat} (h : (s.task n).discards) : ((s.dropMove n).task n).discards := by
  unfold State.dropMove
  split
  · rename_i d _
    rw [State.modTask_eq, State.task_setTask]
    by_cases hd : n = d
    · rw [hd, State.task_setTask]
      exact .inr rfl
    · rw [State.task_setTask_ne s _ hd]
      exact Task.discards_congr (x := s.task n) rfl rfl rfl h
  · rw [State.modTask_eq, State.task_setTask]
    exact Task.discards_congr (x := s.task n) rfl rfl rfl h

/-- Withdrawing a task's offers sends messages, and marks its ports. -/
theorem State.withdrawOffers_eq (s : State) (n : Nat) :
    ∃ (u : State) (f : Task → Vector (Option PortRef) 16), u.tasks = s.tasks ∧ s.withdrawOffers n = u.modTask n fun y => { y with p := f y } := by
  refine ⟨_, fun y => y.p.map fun p => p.map fun r => if r.open_ then { r with asked := true } else r, ?_, rfl⟩
  refine foldl_keeps State.tasks _ (fun s p => ?_) _ s
  cases p with
  | none => rfl
  | some r => dsimp only; split <;> rfl

theorem State.withdrawOffers_discards {s : State} {n : Nat} (h : (s.task n).discards) : ((s.withdrawOffers n).task n).discards := by
  obtain ⟨u, f, hu, he⟩ := State.withdrawOffers_eq s n
  have ht : u.task n = s.task n := by rw [State.task, State.task, hu]
  rw [he, State.modTask_eq, State.task_setTask, ht]
  exact Task.discards_congr (x := s.task n) rfl rfl rfl h

theorem State.raise_discards {s : State} {n : Nat} (f : Flags) (h : (s.task n).discards) : ((s.raise n f).task n).discards := by
  by_cases hf : f = 0
  · rw [State.raise, if_pos hf]
    exact h
  · have ht : (s.raise n f).task n = { s.task n with fflags := (s.task n).fflags ||| f } := by
      rw [State.raise, if_neg hf]
      exact State.task_setTask s n _
    rw [ht]
    exact Task.discards_congr (x := s.task n) rfl rfl rfl h

theorem State.task_freeStreamSlot (s : State) (n m : Nat) : (s.freeStreamSlot n).task m = s.task m := by
  unfold State.freeStreamSlot
  split
  · split <;> rfl
  · rfl

theorem State.dropStream_discards {s : State} {n : Nat} (h : (s.task n).discards) : ((s.dropStream n).task n).discards := by
  unfold State.dropStream
  split
  · exact h
  · dsimp only
    rw [State.modTask_eq, State.task_setTask, State.task_freeStreamSlot]
    exact Task.discards_congr (x := (s.raise n _).task n) rfl rfl rfl (State.raise_discards _ h)

theorem State.task_markTile (s : State) (x : Task) (k : Nat) (spilled : Bool) (m : Nat) : (s.markTile x k spilled).task m = s.task m := by
  unfold State.markTile
  split <;> rfl

theorem State.endTask_discards {s : State} {n : Nat} (how mark : Nat) (h : (s.task n).discards) : ((s.endTask n how mark).task n).discards := by
  have hr := State.dropMove_discards (State.leaveWaiters_discards (State.cancelRoutine_discards h))
  rw [State.endTask, State.modTask_eq, State.task_setTask, State.task_markTile]
  generalize ((s.cancelRoutine n).leaveWaiters n).dropMove n = u at hr
  exact Task.discards_congr (x := ((u.withdrawOffers n).dropStream n).task n) rfl rfl rfl (State.dropStream_discards (State.withdrawOffers_discards hr))

/-- KILL of a task that buffers leaves nothing of its buffer (R102, R113). -/
theorem State.task_poisonEnd_shadow {s : State} {n how : Nat} (hb : (s.task n).buffers = true) : ((s.poisonEnd n how).task n).shadow = [] := by
  rw [State.poisonEnd, State.modTask_eq, State.task_setTask]
  dsimp only
  split
  · rfl
  · rename_i hnot
    exact (State.endTask_discards how 2 (.inl hb)).resolve_left hnot

theorem exec_kill {s : State} {n : Nat} (hn : n < 20000) (hl : (s.task n).life ≠ .free) (ht : (s.task n).tid ≠ 0) :
    exec (.kill n) s = .next (s.poisonEnd n 1) := by
  have hn' : ¬ 20000 ≤ n := by omega
  show execKill n s = _
  simp only [execKill, hn', if_false, hl, ht, or_self]

theorem exec_kill_none {s : State} {n : Nat} (hn : n < 20000) (h : (s.task n).life = .free ∨ (s.task n).tid = 0) : exec (.kill n) s = .next s := by
  have hn' : ¬ 20000 ≤ n := by omega
  show execKill n s = _
  simp only [execKill, hn', if_false, h, if_true]

/-- The context that a list of swapped tasks holds at a place after it has been replaced. -/
theorem lset_getElem? {α : Type} (l : List α) (n : Nat) (a : α) (h : n < l.length) : (lset l n a)[n]? = some a := by
  induction l generalizing n with
  | nil => exact absurd h (Nat.not_lt_zero n)
  | cons x r ih =>
    cases n with
    | zero => rfl
    | succ n => exact ih n (Nat.lt_of_succ_lt_succ h)

/-- KILL of a swapped task (R23). -/
theorem exec_kill_swapped {s : State} {n : Nat} {w : Swap} (h : s.swaps[n]? = some w) :
    ∃ t w', exec (.kill (20000 + n)) s = .next t ∧ t.swaps[n]? = some w' ∧ w'.task.life = .retired ∧ w'.task.how = 1 ∧ w'.core = w.core ∧
      t.tasks = s.tasks := by
  have hn : n < s.swaps.length := (List.getElem?_eq_some_iff.mp h).1
  let x : Task := { w.task with life := .retired, how := 1, shadow := if w.task.buffers then [] else w.task.shadow, portWait := none }
  have hkill : exec (.kill (20000 + n)) s = .next (({ s with swaps := lset s.swaps n { w with task := x } } : State).markTile x 2 false) := by
    show execKill (20000 + n) s = _
    simp only [execKill, Nat.le_add_right, if_true, Nat.add_sub_cancel_left, State.killSwapped, h]
    rfl
  refine ⟨_, { w with task := x }, hkill, ?_, rfl, rfl, rfl, ?_⟩
  · rw [show ∀ u : State, (u.markTile x 2 false).swaps = u.swaps from fun u => by unfold State.markTile; split <;> rfl]
    exact lset_getElem? _ _ _ hn
  · unfold State.markTile
    split <;> rfl

/-- The clauses about the end of a task hold (R23, R95, R102, R113). -/
theorem claims_ends : Claims.ends := by
  refine ⟨fun s u n hn => ⟨exec_retiredToFree_early hn, fun hl hp hg => ⟨fun hc => ?held, fun hc ha => ?draining, fun hc ha => ?freed⟩⟩,
    fun s n hn => ⟨exec_kill_none hn, fun hl ht => ⟨_, exec_kill hn hl ht, ?killed⟩⟩, fun s n w => exec_kill_swapped⟩
  case held => rw [exec_retiredToFree hn hl hp hg, State.freeOrdinary, hc]
  case draining => rw [exec_retiredToFree hn hl hp hg, State.freeOrdinary, hc]; dsimp only; rw [ha]; rfl
  case freed =>
    refine ⟨u.freeSlot n, ?_, State.task_setTask _ _ _, fun c hj ht _ h => State.freeSlot_memWord hj ht h⟩
    rw [exec_retiredToFree hn hl hp hg, State.freeOrdinary, hc]
    exact congrArg Host.Outcome.next (if_pos ha)
  case killed =>
    obtain ⟨hlife, hhow, hframe⟩ := State.task_endTask s n 1 2
    refine ⟨?_, ?_, ?_, State.task_poisonEnd_shadow⟩
    all_goals rw [State.poisonEnd, State.modTask_eq, State.task_setTask]
    · exact hlife
    · exact hhow
    · exact hframe

end Sys2Proof.Machine
end

section
/-! SUPPORT. CONTEXT_LOADED (R23, R24, R107). The snapshot clause of O42 holds where the slots of the snapshot areas are whole sectors, and fails
where one crosses the end of a page: `Config.snapshotArea` is opaque (log 101), so the model decides neither. -/

namespace Sys2Proof.Machine

theorem exec_contextLoaded (n : Nat) (s : State) : exec (.contextLoaded n) s = execContextLoaded n s := rfl

theorem contextLoaded_early {s : State} {n : Nat} (h : (s.task n).life ≠ .ready ∨ (s.task n).tid = 0) : exec (.contextLoaded n) s = .next s := by
  have hc : ¬ ((s.task n).life = .ready ∧ (s.task n).tid ≠ 0) := fun ⟨hl, ht⟩ => h.elim (absurd hl) fun h0 => ht h0
  rw [exec_contextLoaded, execContextLoaded, if_neg hc]

/-- A Ready task goes on once its snapshot is written. -/
theorem contextLoaded_done {s u : State} {n : Nat} (hl : (s.task n).life = .ready) (ht : (s.task n).tid ≠ 0) (hw : s.writeSnapshot n = (true, u)) :
    exec (.contextLoaded n) s = .next (u.modTask n Task.loaded) := by
  rw [exec_contextLoaded, execContextLoaded, if_pos ⟨hl, ht⟩, hw]

theorem contextLoaded_waits {s u : State} {n : Nat} (hl : (s.task n).life = .ready) (ht : (s.task n).tid ≠ 0) (hw : s.writeSnapshot n = (false, u)) :
    exec (.contextLoaded n) s = .next u := by
  rw [exec_contextLoaded, execContextLoaded, if_pos ⟨hl, ht⟩, hw]

/-- No snapshot is due. -/
theorem writeSnapshot_none {s : State} {n : Nat} (h : (s.task n).snapDue = false ∨ (s.task n).snapshot = none) : s.writeSnapshot n = (true, s) := by
  have hnone : (if (s.task n).snapDue then (s.task n).snapshot else none) = none := by
    rcases h with h | h
    · rw [h]; rfl
    · rw [h, ite_self]
  unfold State.writeSnapshot
  dsimp only
  rw [hnone]

/-- A snapshot that may be written is (R107). -/
theorem writeSnapshot_now {s u : State} {n : Nat} {g : Trigger} (hd : (s.task n).snapDue = true) (hg : (s.task n).snapshot = some g)
    (h : s.askLeave (.task (s.task n).tid (coreOf n)) true (snapshotLoc n) 64 = (.now, u)) :
    s.writeSnapshot n = (true, (u.hwWrite (.task (s.task n).tid (coreOf n)) [] none (snapshotLoc n) (bytesOfDwords ((List.range 8).map g.dw)) []).modTask n
      fun x => { x with snapDue := false }) := by
  unfold State.writeSnapshot
  dsimp only
  rw [hd, if_pos rfl, hg]
  dsimp only
  rw [h]

theorem writeSnapshot_later {s u : State} {n : Nat} {g : Trigger} (hd : (s.task n).snapDue = true) (hg : (s.task n).snapshot = some g)
    (h : s.askLeave (.task (s.task n).tid (coreOf n)) true (snapshotLoc n) 64 = (.later, u)) : s.writeSnapshot n = (false, u) := by
  unfold State.writeSnapshot
  dsimp only
  rw [hd, if_pos rfl, hg]
  dsimp only
  rw [h]

/-! ### What a task enters -/

theorem Task.loaded_held {x : Task} (h : x.holdReq = true ∨ x.holdDbg = true ∨ x.holdSys = true) : x.loaded = { x with life := .held x.waitsOn } := by
  have hh : x.onHold = true := by simpa [Task.onHold, or_assoc] using h
  rw [Task.loaded, if_pos hh]

theorem Task.loaded_free {x : Task} (h : ¬ (x.holdReq = true ∨ x.holdDbg = true ∨ x.holdSys = true)) (hr : x.resends = false) :
    x.loaded = { x with life := (x.waitsOn).elim .running .waiting } := by
  have hh : x.onHold = false := by simpa [Task.onHold, and_assoc] using h
  rw [Task.loaded, hh, Task.goesOn, hr]
  rfl

/-- The barrier of the task's `bar` at hand is not yet complete. -/
def Task.barOpen (x : Task) : Prop := ∃ b, x.bars.find? (fun b => b.nest == x.nest && b.pc == x.here) = some b ∧ b.passed = none

theorem Task.barHere_any (x : Task) : x.barHere.any (·.passed.isNone) = true ↔ x.barOpen := by
  unfold Task.barOpen Task.barHere
  cases x.bars.find? (fun b => b.nest == x.nest && b.pc == x.here) with
  | none => simp
  | some b => simp

theorem Task.waitsOn_port {x : Task} (hp : x.portWait ≠ none) (hd : x.portDue = false) : x.waitsOn = some .port := by
  have hs : x.portWait.isSome = true := Option.isSome_iff_ne_none.mpr hp
  rw [Task.waitsOn, hs, hd]
  rfl

theorem Task.waitsOn_bar {x : Task} (hp : x.portWait = none) (hb : x.barOpen) : x.waitsOn = some .event := by
  rw [Task.waitsOn, hp, if_neg (by simp), if_pos ((Task.barHere_any x).mpr hb)]

theorem Task.waitsOn_none {x : Task} (hp : x.portWait = none) (hb : ¬ x.barOpen) : x.waitsOn = none := by
  rw [Task.waitsOn, hp, if_neg (by simp), if_neg (fun h => hb ((Task.barHere_any x).mp h))]

theorem Task.loaded_life (x : Task) : x.loaded.life ≠ .ready := by
  show (if x.onHold then Life.held x.waitsOn else x.goesOn) ≠ .ready
  split
  · exact fun h => nomatch h
  · unfold Task.goesOn
    split
    · exact fun h => nomatch h
    · cases x.waitsOn <;> exact fun h => nomatch h

/-! ### Waiting for the snapshot's place -/

@[simp] theorem State.startWithdraw_tasks (s : State) (a va : Nat) : (s.startWithdraw a va).tasks = s.tasks := by
  unfold State.startWithdraw
  dsimp only
  split <;> rfl

@[simp] theorem State.withdrawFrom_tasks (s : State) (l : Loc) (n : Nat) : (s.withdrawFrom l n).tasks = s.tasks := by
  refine foldl_keeps State.tasks _ (fun s i => ?_) _ s
  split
  · cases l.plus i with
    | bank c off => rfl
    | glob a va => exact State.startWithdraw_tasks s a va
  · rfl

@[simp] theorem State.fillPages_tasks (s : State) (unit a va n : Nat) : (s.fillPages unit a va n).tasks = s.tasks := by
  unfold State.fillPages
  split
  · rfl
  · refine foldl_keeps State.tasks _ (fun s i => ?_) _ s
    unfold State.fillAttr
    dsimp only
    split <;> rfl

@[simp] theorem State.askPage_tasks (s : State) (a va kind : Nat) : (s.askPage a va kind).tasks = s.tasks := by
  unfold State.askPage
  dsimp only
  split <;> rfl

@[simp] theorem State.notePages_tasks (s : State) (a va n : Nat) : (s.notePages a va n).tasks = s.tasks := by
  unfold State.notePages
  split
  · rfl
  · refine foldl_keeps State.tasks _ (fun s i => ?_) _ s
    unfold State.noteMalformed
    split <;> rfl

/-- Asking for an access changes no context. -/
theorem State.task_askLeave (s : State) (p : Party) (write : Bool) (l : Loc) (k n : Nat) : (s.askLeave p write l k).2.task n = s.task n := by
  have h : (s.askLeave p write l k).2.tasks = s.tasks := by
    unfold State.askLeave
    split
    · rfl
    · split
      · split
        · exact State.withdrawFrom_tasks _ _ _
        · split
          · rfl
          · exact State.fillPages_tasks _ _ _ _ _
      · exact State.askPage_tasks _ _ _ _
      · exact State.notePages_tasks _ _ _ _
  rw [State.task, State.task, h]

/-- An access that goes on at once leaves the lines and the peer pages alone. -/
theorem State.askLeave_lines {s : State} {p : Party} {write : Bool} {l : Loc} {k : Nat} (h : (s.askLeave p write l k).1 = .now) :
    (s.askLeave p write l k).2.lines = s.lines := by
  unfold State.askLeave at h ⊢
  cases l with
  | bank c off => rfl
  | glob a va =>
    dsimp only at h ⊢
    split at h
    · split at h
      · exact nomatch h
      · rename_i h1
        rw [if_neg h1]
        split at h
        · exact nomatch h
        · rename_i h2
          rw [if_neg h2]
          exact State.fillPages_lines _ _ _ _ _
    · exact nomatch h
    · exact nomatch h

/-! ### The snapshot's bytes -/

/-- The slots of a die's snapshot area are whole sectors of lines. -/
theorem snapshotLoc_aligned {n : Nat} (h : 64 ∣ Config.snapshotArea (dieOf (coreOf n))) :
    ∃ va, snapshotLoc n = .glob 0 va ∧ va < 2 ^ 56 ∧ va % 64 = 0 := by
  refine ⟨_, rfl, Nat.mod_lt _ (by decide), ?_⟩
  omega

theorem bytesOfDwords_length (l : List Word) : (bytesOfDwords l).length = 8 * l.length := by
  induction l with
  | nil => rfl
  | cons w r ih =>
    show (natBytes w.toNat 8 ++ bytesOfDwords r).length = _
    rw [List.length_append, natBytes_length, ih, List.length_cons]
    omega

/-- A plain write gives its own bytes. -/
theorem Write.newBytes_plain {w : Write} (hop : w.op = none) (hm : w.mask = []) (old : List Byte) : w.newBytes old = w.bytes := by
  simp only [Write.newBytes, hop, hm, maskByte]
  exact List.zipIdx_map_fst 0 w.bytes

/-- A write by the hardware of whole words within a line, to a page that is no peer page, is what its home reads afterwards (R276). -/
theorem State.hwWrite_homeBytes {s : State} {a va : Nat} {bs : List Byte} (p : Party) (hv : va < 2 ^ 56) (hfit : va % 256 + bs.length ≤ 256)
    (h4 : va % 4 = 0) (hn : bs.length % 4 = 0) (hp : s.peerOf a va = none) :
    (s.hwWrite p [] none (.glob a va) bs []).homeBytes (.glob a va) bs.length = bs := by
  obtain ⟨hh, hp'⟩ := State.joinHome_lineHolds (s := { s with nextId := s.nextId + 1 }) (w := s.hardWrite p [] [] (.glob a va) bs []) rfl hv hp
    (fun h => nomatch h) (fun _ => rfl) rfl rfl (Write.newBytes_plain rfl rfl _) hfit h4 hn
  have hlines : (s.hwWrite p [] none (.glob a va) bs []).lines =
      (({ s with nextId := s.nextId + 1 } : State).joinHome (s.hardWrite p [] [] (.glob a va) bs [])).lines := State.learn_lines _ _ _
  exact ((State.lineHolds_congr hlines a va bs).mpr hh).homeBytes hv hfit ((State.peerOf_congr_lines hlines a va).trans hp')

theorem State.homeBytes_setTask (s : State) (t : Nat) (x : Task) (l : Loc) (n : Nat) : (s.setTask t x).homeBytes l n = s.homeBytes l n := rfl

/-- The clauses about CONTEXT_LOADED hold where the snapshots lie in whole sectors (R23, R24, R107). -/
theorem claims_loads_of_aligned (harea : ∀ d, 64 ∣ Config.snapshotArea d) : Claims.loads := by
  refine fun s n => ⟨contextLoaded_early, fun hl ht hr hd => ?enters, fun hl ht hd g hg => ⟨fun hleave => ?later, fun hleave hpeer => ?now⟩⟩
  case enters =>
    have hexec := contextLoaded_done hl ht (writeSnapshot_none hd)
    refine ⟨fun hh hp hb => ?_, fun hh hp hd => ?_, fun hh hp hb => ?_, fun hh => ⟨(s.task n).waitsOn, ?_⟩⟩
    · rw [hexec, State.modTask_eq, Task.loaded_free hh hr, Task.waitsOn_none hp hb]; rfl
    · rw [hexec, State.modTask_eq, Task.loaded_free hh hr, Task.waitsOn_port hp hd]; rfl
    · rw [hexec, State.modTask_eq, Task.loaded_free hh hr, Task.waitsOn_bar hp hb]; rfl
    · rw [hexec, State.modTask_eq, Task.loaded_held hh]; rfl
  case later =>
    have hask := State.task_askLeave s (.task (s.task n).tid (coreOf n)) true (snapshotLoc n) 64 n
    refine ⟨_, contextLoaded_waits hl ht (writeSnapshot_later hd hg (Prod.ext hleave rfl)), ?_, ?_⟩
    · rw [hask]; exact hl
    · rw [hask]; exact hd
  case now =>
    obtain ⟨va, hloc, hv, h64⟩ := snapshotLoc_aligned (harea (dieOf (coreOf n)))
    refine ⟨_, contextLoaded_done hl ht (writeSnapshot_now hd hg (Prod.ext hleave rfl)), ?_, ?_, ?_⟩
    · rw [State.modTask_eq, State.task_setTask]; exact Task.loaded_life _
    · rw [State.modTask_eq, State.task_setTask, State.modTask_eq, State.task_setTask]; rfl
    · have hlen : (bytesOfDwords ((List.range 8).map g.dw)).length = 64 := by
        rw [bytesOfDwords_length, List.length_map, List.length_range]
      have hp : (s.askLeave (.task (s.task n).tid (coreOf n)) true (snapshotLoc n) 64).2.peerOf 0 va = none :=
        (State.peerOf_congr_lines (State.askLeave_lines hleave) 0 va).trans (hpeer 0 va hloc)
      have hbytes := State.hwWrite_homeBytes (bs := bytesOfDwords ((List.range 8).map g.dw)) (.task (s.task n).tid (coreOf n)) hv (by omega) (by omega)
        (by omega) hp
      rw [State.modTask_eq, State.homeBytes_setTask, State.modTask_eq, State.homeBytes_setTask]
      rw [hlen] at hbytes
      rw [hloc] at hbytes ⊢
      exact hbytes

/-- O42 where the snapshot areas are whole sectors. -/
theorem taskStartsAndEnds_of_aligned (harea : ∀ d, 64 ∣ Config.snapshotArea d) : Obligations.TaskStartsAndEnds :=
  ⟨claims_dispatches, claims_loads_of_aligned harea, claims_ends⟩

/-! ### A slot that crosses the end of a page -/

/-- A trigger whose doubleword 4 is 1. -/
def crossingTrigger : Trigger := Trigger.of [0, 0, 0, 0, 1, 0, 0, 0] .requeue 0

/-- A Ready restartable task in slot 0 with its snapshot still to write. Core 0 may write the first two pages of address space 0; the second one is a peer
page whose only member cannot be reached (R349). -/
def crossingSnapshot : State :=
  { State.reset with
    tasks := [(0, { Task.empty with life := .ready, tid := 1, snapDue := true, snapshot := some crossingTrigger })],
    attrs := [(0, [⟨0, 0, 0, 2, true, true, true⟩, ⟨0, 0, 1, 2, true, true, true⟩])],
    peers := [(1, [⟨0, 0, 1, [1], 1⟩])],
    unreachable := [1] }

/-- O42 fails where slot 0 lies half in the second page: its bytes there are lost, though its first byte is in no peer page. -/
theorem not_taskStartsAndEnds_of_crossing (harea : Config.snapshotArea 0 = 65504) : ¬ Obligations.TaskStartsAndEnds := by
  intro ⟨_, hloads, _⟩
  have hloc : snapshotLoc 0 = .glob 0 65504 := congrArg (fun a => Loc.glob 0 ((a + 64 * (0 % 2560)) % 2 ^ 56)) harea
  have hleave : (crossingSnapshot.askLeave (.task 1 0) true (snapshotLoc 0) 64).1 = .now := by
    rw [hloc]
    decide +kernel
  have hpeer : ∀ a va, snapshotLoc 0 = .glob a va → crossingSnapshot.peerOf a va = none := fun a va h => by
    rw [hloc] at h
    cases h
    decide +kernel
  have hnow := writeSnapshot_now (s := crossingSnapshot) (n := 0) (g := crossingTrigger) rfl rfl (Prod.ext hleave rfl)
  obtain ⟨t, hexec, -, -, hbytes⟩ := ((hloads crossingSnapshot 0).2.2 rfl (by decide) rfl crossingTrigger rfl).2 hleave hpeer
  rw [contextLoaded_done rfl (by decide) hnow] at hexec
  cases hexec
  rw [State.modTask_eq, State.homeBytes_setTask, State.modTask_eq, State.homeBytes_setTask, hloc] at hbytes
  have hlost : (((crossingSnapshot.askLeave (.task 1 0) true (.glob 0 65504) 64).2.hwWrite (.task 1 0) [] none (.glob 0 65504)
      (bytesOfDwords ((List.range 8).map crossingTrigger.dw)) []).homeBytes (.glob 0 65504) 64)[32]? = some 0 := by decide +kernel
  have hkept : (bytesOfDwords ((List.range 8).map crossingTrigger.dw))[32]? = some 1 := by decide +kernel
  have hboth : (some 0 : Option Byte) = some 1 := hlost.symm.trans ((congrArg (·[32]?) hbytes).trans hkept)
  exact absurd hboth (by decide)

end Sys2Proof.Machine
end
